-- ==== Sys2Proof/Word.lean ====
section
/-! DEFINITION. The word types of the device and the fields of an instruction word. -/

namespace Sys2Proof

abbrev Byte := BitVec 8
abbrev W32 := BitVec 32
abbrev W64 := BitVec 64

/-- A table from a natural key to a value: a list of pairs. Keys rise strictly, and a key that is
not listed has the table's unlisted value (registers and memory: zero). -/
abbrev Tab (α : Type) := List (Nat × α)

/-- Instruction lengths (R35). -/
inductive Len where
  | w64 | w96 | w128
  deriving DecidableEq, Repr, Inhabited

/-- The guard of an instruction (R41): unguarded, or guarded by predicate `idx`, inverted with `neg`. -/
inductive Guard where
  | always
  | on (neg : Bool) (idx : BitVec 7)
  deriving DecidableEq, Repr, Inhabited

/-- The fields of an instruction word (R39) with its immediate or extended word (R44, R45).
`imm` is 0 in the 64-bit form and has its upper half 0 in the 96-bit form. -/
structure Fields where
  len : Len := .w64
  u : Bool := false
  guard : Guard := .always
  d : BitVec 8 := 0
  a : BitVec 8 := 0
  b : BitVec 8 := 0
  c : BitVec 8 := 0
  ka : Bool := false
  kb : Bool := false
  kc : Bool := false
  fn : BitVec 9 := 0
  imm : W64 := 0
  deriving DecidableEq, Repr, Inhabited

/-- A group by its place: core (R7), group slot 0 to 31, and `hnd` for the handler group that issues
in that slot (R317, R350). -/
structure Gid where
  core : Nat
  slot : Nat
  hnd : Bool := false
  deriving DecidableEq, Repr, Inhabited

/-- Whose access meets a link error (R302, R370): a group's, a copy's, a pass's or silo operation's, a Thresher lane's, a
push's, a launch's completion's, a sequencer's; or none that the device can name. -/
inductive LinkUser where
  | group (g : Gid)
  | copy (id : Nat)
  | op (id : Nat)
  | lane (n : Nat)
  | push (k : Nat)
  | launch (id : Nat)
  | seq (core slot : Nat)
  | other
  deriving DecidableEq, Repr, Inhabited

/-- The agent that writes a control-block register (R371, R372). -/
inductive Agent where
  | host | device | granary
  deriving DecidableEq, Repr, Inhabited

end Sys2Proof
end

