-- ==== Sys2Proof/Syntax.lean ====
section
/-! DEFINITION. The abstract syntax: one constructor per row of spec/opcode_table.json.

An instruction's constructor carries the fields of its word (R39). A device event has no word: its
constructor carries what the step is about (which group, which entry, which lane) and what the
outside brings to it (a written value); what one of them takes from a free value is said at its meaning.
The events without data stand last. -/

namespace Sys2Proof

/-- One row of the table of operations and events each. -/
inductive Instr where
  /-- POWER_ON_RESET: Power-on reset brings up the rails, the Granary image or recovery loader, engine self-test,
  memory, links, DOMID, the Thresher and PCIe port 0, in order. (R388) -/
  | powerOnReset (imageOk : Bool) (failed : List (Nat × Nat)) (domId : Nat)
  /-- LINK_RETRY_FAILURE: A flit fails link-level retry 16 times, making its access ADDRV and raising the link's error
  counters. (R370) -/
  | linkRetryFailure (link : Nat) (who : LinkUser)
  /-- DRAIN: An outbox store entry leaves and is written to its home slice or scratch, or an oldest marker leaves.
  (R213) -/
  | drain (g : Gid) (k : Nat)
  /-- EVICT: One line copy leaves one core's view at any time. (R213) -/
  | evict (core line : Nat)
  /-- REMOTE_REPLY: The reply of a remote load or atomic arrives and its lanes write their destinations. (R234) -/
  | remoteReply (g : Gid)
  /-- TASK_RECORD_VALIDATION: A dispatcher validates a task record when it arrives and accepts it or rejects it with
  TASKINV. (R64) -/
  | taskRecordValidation (die : Nat)
  /-- DISPATCH_DECISION: A die's dispatcher orders eligible launches and places the first placeable sheaf through a
  tentative reservation. (R65) -/
  | dispatchDecision (die : Nat)
  /-- ADMISSION_COMMIT: When every core passes, the dispatcher commits the sheaf, its crews start and ages change. (R69) -/
  | admissionCommit (die : Nat)
  /-- ADMISSION_RELEASE: When any core fails, the dispatcher releases all tentative holdings and tries the next
  rectangle or launch. (R69) -/
  | admissionRelease (die : Nat)
  /-- CORE_RESERVATION: A launch whose age reaches 128 asks for a core reservation, and pre-emption requests go to the
  resident crews. (R67) -/
  | coreReservation (die : Nat)
  /-- PREEMPTION_REQUEST: A pre-emption request names crews to be evicted at their next blocking point. (R84) -/
  | preemptionRequest (core slot : Nat)
  /-- CREW_EVICTION: A named crew or sheaf whose groups are all exited or at blocking points is saved to context frames
  and its holdings return. (R85) -/
  | crewEviction (core slot : Nat)
  /-- CREW_RESTORE: An evicted crew or sheaf whose wake condition holds is admitted again and rebuilt from its frames.
  (R87) -/
  | crewRestore (id core : Nat)
  /-- FULL_TEST_END: The grant unit's full safe-state test ends, keeping the tentative holding or withdrawing it and
  deferring the request. (R76) -/
  | fullTestEnd (core : Nat)
  /-- SPAWN_RECORD_START: A spawn record starts a new group when a slot, group count and free granules allow. (R80) -/
  | spawnRecordStart (core k : Nat)
  /-- OVERFLOW_RING_MOVE: A record moves from the overflow ring segment into the core's spawn pool as an entry frees.
  (R80) -/
  | overflowRingMove (core : Nat)
  /-- CREW_RETIRE: A crew whose groups, handler lanes, spawn records, copies and passes have all finished retires. (R89) -/
  | crewRetire (core slot : Nat)
  /-- QUEUE_ENTRY_RECEIPT: A receiver accepts an in-order entry and acknowledges it, or drops it with a negative
  acknowledgement. (R90) -/
  | queueEntryReceipt (link : Nat) (full : Bool)
  /-- ACKNOWLEDGEMENT: An acknowledgement frees a place in the sender's window of 16 unacknowledged entries. (R90) -/
  | acknowledgement (link : Nat)
  /-- NEGATIVE_ACKNOWLEDGEMENT: A negative acknowledgement makes the sender wait its back-off time. (R90) -/
  | negativeAcknowledgement (link : Nat)
  /-- BACKOFF_EXPIRY: After the back-off wait the sender resends every unacknowledged entry from the refused number.
  (R91) -/
  | backoffExpiry (link : Nat)
  /-- SLEEP_EXPIRY: A sleeping group becomes ready again after its n clocks. (R109) -/
  | sleepExpiry (g : Gid)
  /-- YIELD_END: A yielding group becomes ready once every other ready group issued or 8 issue opportunities passed.
  (R109) -/
  | yieldEnd (g : Gid)
  /-- COPY_ISSUE: A checked copy enters its channel's queue, taking range-lock and scoreboard entries, once a channel is
  free and no overlap remains. (R217) -/
  | copyIssue (g : Gid)
  /-- BEAT: A copy beat reads one 16-byte source unit and writes its destination unit. (R217) -/
  | beat (id k : Nat)
  /-- COPY_COMPLETION: After the last beat the copy's entries are removed, it arrives at its barrier with its bytes, and
  resolves its future. (R217) -/
  | copyCompletion (id : Nat)
  /-- ARBITER_GRANT: The engine arbiter grants the first ready reservation entry the free arrays it needs. (R183) -/
  | arbiterGrant (engine : Nat)
  /-- PASS_SEGMENT: A pass completes one segment, checks it, scales it and accumulates it into the silo. (R186) -/
  | passSegment (id : Nat)
  /-- PASS_COMPLETION: A pass's last word is in the silo and it arrives at its barrier when CBV is set. (R195) -/
  | passCompletion (id : Nat)
  /-- SILO_OPERATION_COMPLETION: An MZERO, MFILL, MDRAIN, MCPY or MTLD completes and makes its barrier arrival. (R203) -/
  | siloOperationCompletion (id : Nat)
  /-- ENGINE_RESUME: After rerunning its self-test the engine resumes in the resulting mode within 8,192 clocks. (R334) -/
  | engineResume (engine : Nat) (failed : List Nat)
  /-- PUSH: A join record whose count reaches zero appends its continuation's task record to the device launch queue,
  waiting for room. (R248) -/
  | push (k : Nat)
  /-- EXCHANGE: A Gleaner sends an owed dirty line to its phase partner, which joins it into its replica. (R222) -/
  | exchange (desc src line : Nat)
  /-- PHASE_END: A region's exchange phase ends after PHCLK clocks and its owed lines, starting the next pairing and
  counting stretches. (R261) -/
  | phaseEnd (desc : Nat) (stretched : Bool)
  /-- THRESHOLD_LOAD: A waiting threshold load whose cells satisfy the threshold returns them and empties the core's
  view. (R269) -/
  | thresholdLoad (g : Gid)
  /-- TLDT_TIMEOUT: A TLDT whose timeout passes returns current cells with the timed-out predicate set in unmet lanes.
  (R270) -/
  | tldtTimeout (g : Gid)
  /-- LSYNC_DONE: LSYNC returns once every earlier join of its die is in all four replicas. (R273) -/
  | lsyncDone (g : Gid)
  /-- FUTURE_WAIT_RETURN: FREG.wait returns once every lane's future is resolved or poisoned, writing values and
  emptying the view. (R250) -/
  | futureWaitReturn (g : Gid)
  /-- FWAIT_EXPIRY: A group waiting in place on a replayable fault for FWAIT clocks causes its crew to be saved. (R299) -/
  | fwaitExpiry (g : Gid)
  /-- FAULT_RECORD_WRITE: A held fault record is written to the partition's fault ring once a slot frees, with WIDX
  updated. (R305) -/
  | faultRecordWrite (part : Nat)
  /-- HEAT_SAMPLE: A translation that brings the core's sampling count from 63 to 0 increments its frame's heat counter.
  (R297) -/
  | heatSample (core frame : Nat)
  /-- TRAP_COMPACTION: Parked trapped lanes of a crew are compacted into handler groups from the trap pool. (R317) -/
  | trapCompaction (core slot : Nat)
  /-- SHEAF_HALT_ARRIVAL: A sheaf halt broadcast reaches another crew of the sheaf within 96 clocks and its groups stop
  after the skid. (R347) -/
  | sheafHaltArrival (core slot : Nat)
  /-- FATAL_HANDLER_START: Once a stopped crew's work has settled, its fatal handler group starts from the trap pool.
  (R326) -/
  | fatalHandlerStart (core slot : Nat)
  /-- QUEUE_POLL: A Thresher lane reads its queue's slot header at least every 256 clocks and takes the packet when SEQ
  matches. (R375) -/
  | queuePoll (lane : Nat)
  /-- DEVICE_LAUNCH_QUEUE_TAKE: The Thresher takes a device launch queue entry in QPOP's separate steps and passes the
  record on. (R119) -/
  | deviceLaunchQueueTake (lane : Nat)
  /-- QUEUE_RESTART: Writing RST to a stopped host queue advances RIDX past the failing slot and resumes polling. (R380) -/
  | queueRestart (lane : Nat)
  /-- REGION_REGISTRATION: Writing LDESC word 0 with EN = 1 registers a lattice region or refuses it with LATDESC.
  (R254) -/
  | regionRegistration (desc : Nat) (w : W64)
  /-- REGION_DEREGISTRATION: Writing EN = 0 deregisters a lattice region unless a wait, saved wake or join names it.
  (R255) -/
  | regionDeregistration (desc : Nat) (w : W64)
  /-- PARTITION_ENABLE: Setting PARTD EN puts a partition in force unless masks overlap, FRLOG is bad or shares exceed
  256. (R290) -/
  | partitionEnable (part : Nat) (w : W64)
  /-- ASID_DISABLE: Clearing an ASIDT entry's EN is ignored while the ASID has crews, regions or queues. (R290) -/
  | asidDisable (asid : Nat) (w : W64)
  /-- POOL_WINDOW_ENABLE: Setting POOLWIN EN puts a CXL pool window in force unless it is refused. (R372) -/
  | poolWindowEnable (port win : Nat) (w : W64) (trained : Bool)
  /-- POOL_WINDOW_DISABLE: Clearing POOLWIN EN is refused and logged while a POOL leaf maps a frame in the window.
  (R372) -/
  | poolWindowDisable (port win : Nat) (w : W64)
  /-- FREPLAY: A FREPLAY write makes every waiter and saved crew on the named page, or all of the partition, retry.
  (R306) -/
  | freplay (part : Nat) (w : W64)
  /-- PTE_UPDATE: Writing PTEUPD STAT with 1 walks, compares and swaps the entry, and starts the shootdown. (R307) -/
  | pteUpdate (die : Nat)
  /-- PTE_INVALIDATE: Writing PTEUPD STAT with 2 starts an invalidation of the page's translations only. (R307) -/
  | pteInvalidate (die : Nat)
  /-- SHOOTDOWN_COMPLETE: STAT becomes done once every translation agent has acknowledged the invalidation. (R307) -/
  | shootdownComplete (die : Nat)
  /-- BAR2_READ: A host read through BAR2 reads device memory at the home slice or completes as unsupported. (R372) -/
  | bar2Read (off size : Nat)
  /-- BAR2_WRITE: A host write through BAR2 writes device memory at the home slice or is dropped as unsupported. (R372) -/
  | bar2Write (off size : Nat) (val : W64)
  /-- REGISTER_WRITE: A write to a control-block register with no behaviour of its own sets its RW fields. (R371) -/
  | registerWrite (who : Agent) (off : Nat) (w : W64)
  /-- NOP: Does nothing but advance the PC. (R94) -/
  | nop (f : Fields)
  /-- EXIT: Ends the Active threads, or the whole group with U=1. (R99) -/
  | exit (f : Fields)
  /-- BRA: Branches PC-relative when its CC condition holds. (R96) -/
  | bra (f : Fields)
  /-- BRX: Branches to the address in a G register when its condition holds. (R96) -/
  | brx (f : Fields)
  /-- CALL: Saves the return address in a G register and branches PC-relative. (R97) -/
  | call (f : Fields)
  /-- CALL_I: Saves the return address and branches to a G-register target. (R97) -/
  | callI (f : Fields)
  /-- RET: Branches to the address in a G register. (R97) -/
  | ret (f : Fields)
  /-- LOOP: Counts a G register down and branches while it is nonzero. (R98) -/
  | loop (f : Fields)
  /-- DPUSH: Pushes a divergence entry and narrows EXEC to one path of a lane predicate. (R102) -/
  | dpush (f : Fields)
  /-- DELSE: Turns to the other path of the top divergence entry, restoring FMT. (R103) -/
  | delse (f : Fields)
  /-- DPOP: Closes the split, restoring EXEC and FMT from the top entry. (R103) -/
  | dpop (f : Fields)
  /-- REPACK: Arrives at a barrier and regroups the participants' threads by target into new groups. (R105) -/
  | repack (f : Fields)
  /-- UNPACK: Arrives at the barrier and restores the participants once every new group has arrived. (R107) -/
  | unpack (f : Fields)
  /-- SETFMT: Writes FMT from an immediate or a G register, refusing reserved codes. (R108) -/
  | setfmt (f : Fields)
  /-- YIELD: Makes the group not ready until other ready groups have issued. (R109) -/
  | yield (f : Fields)
  /-- SLEEP: Makes the group not ready for n clocks. (R109) -/
  | sleep (f : Fields)
  /-- MOVS: Reads a special register into V or G registers. (R110) -/
  | movs (f : Fields)
  /-- MOVSW: Writes each Active lane's %fpx. (R110) -/
  | movsw (f : Fields)
  /-- LEADER: Sets a predicate in the lowest or highest Active lane only. (R111) -/
  | leader (f : Fields)
  /-- MOV: Copies a register. (R152) -/
  | mov (f : Fields)
  /-- MOVI: Writes an immediate. (R152) -/
  | movi (f : Fields)
  /-- SEL: Selects A or B by a predicate. (R152) -/
  | sel (f : Fields)
  /-- IADD: Integer add, wrapping or saturating. (R152) -/
  | iadd (f : Fields)
  /-- IADDC: Integer add with carry in and out. (R152) -/
  | iaddc (f : Fields)
  /-- ISUB: Integer subtract, wrapping or saturating. (R152) -/
  | isub (f : Fields)
  /-- ISUBB: Integer subtract with borrow in and out. (R152) -/
  | isubb (f : Fields)
  /-- IMUL: Integer multiply, low part. (R152) -/
  | imul (f : Fields)
  /-- IMULH: Integer multiply, high part. (R152) -/
  | imulh (f : Fields)
  /-- IMAD: Integer multiply-add. (R152) -/
  | imad (f : Fields)
  /-- IMADW: 32-bit multiply with 64-bit accumulate into a pair. (R152) -/
  | imadw (f : Fields)
  /-- IABS: Integer absolute value. (R152) -/
  | iabs (f : Fields)
  /-- INEG: Integer negation. (R152) -/
  | ineg (f : Fields)
  /-- IMIN: Integer minimum. (R152) -/
  | imin (f : Fields)
  /-- IMAX: Integer maximum. (R152) -/
  | imax (f : Fields)
  /-- ICMP: Integer compare into a lane or group predicate. (R154) -/
  | icmp (f : Fields)
  /-- LEA: Adds a scaled index to a 64-bit base. (R152) -/
  | lea (f : Fields)
  /-- AND: Bitwise AND. (R150) -/
  | and (f : Fields)
  /-- OR: Bitwise OR. (R150) -/
  | or (f : Fields)
  /-- XOR: Bitwise XOR. (R150) -/
  | xor (f : Fields)
  /-- NOT: Bitwise NOT. (R150) -/
  | not (f : Fields)
  /-- BTAB: Bitwise three-input table function. (R155) -/
  | btab (f : Fields)
  /-- SHL: Shift left. (R154) -/
  | shl (f : Fields)
  /-- SHR: Logical shift right. (R154) -/
  | shr (f : Fields)
  /-- SHA: Arithmetic shift right. (R154) -/
  | sha (f : Fields)
  /-- ROT: Rotate left. (R154) -/
  | rot (f : Fields)
  /-- BFX: Bit-field extract. (R154) -/
  | bfx (f : Fields)
  /-- BFI: Bit-field insert. (R154) -/
  | bfi (f : Fields)
  /-- POPC: Population count. (R154) -/
  | popc (f : Fields)
  /-- CLZ: Count leading zeros. (R154) -/
  | clz (f : Fields)
  /-- BREV: Bit reverse. (R154) -/
  | brev (f : Fields)
  /-- BYSEL: Byte select from A, B and constants. (R155) -/
  | bysel (f : Fields)
  /-- DOT4: Four-way 8-bit dot product with accumulate. (R152) -/
  | dot4 (f : Fields)
  /-- FADD: F32 add. (R158) -/
  | fadd (f : Fields)
  /-- FSUB: F32 subtract. (R158) -/
  | fsub (f : Fields)
  /-- FMUL: F32 multiply. (R158) -/
  | fmul (f : Fields)
  /-- FFMA: F32 fused multiply-add. (R158) -/
  | ffma (f : Fields)
  /-- FMIN: F32 minimumNumber. (R159) -/
  | fmin (f : Fields)
  /-- FMAX: F32 maximumNumber. (R159) -/
  | fmax (f : Fields)
  /-- FCMP: F32 compare into a lane predicate. (R159) -/
  | fcmp (f : Fields)
  /-- FDIV: F32 divide. (R158) -/
  | fdiv (f : Fields)
  /-- FSQRT: F32 square root. (R158) -/
  | fsqrt (f : Fields)
  /-- FRCP: F32 reciprocal. (R158) -/
  | frcp (f : Fields)
  /-- FRSQ: F32 reciprocal square root. (R158) -/
  | frsq (f : Fields)
  /-- FEXP2: F32 power of two. (R158) -/
  | fexp2 (f : Fields)
  /-- FLOG2: F32 base-2 logarithm. (R158) -/
  | flog2 (f : Fields)
  /-- FRND: Rounds F32 to an integral value. (R159) -/
  | frnd (f : Fields)
  /-- FCLASS: Classifies an F32 value as a one-hot mask. (R159) -/
  | fclass (f : Fields)
  /-- PFMA: Packed BF16 or H16 fused multiply-add per half. (R160) -/
  | pfma (f : Fields)
  /-- F2F: Converts between floating formats. (R162) -/
  | f2f (f : Fields)
  /-- F2I: Converts floating to integer. (R162) -/
  | f2i (f : Fields)
  /-- I2F: Converts integer to floating. (R162) -/
  | i2f (f : Fields)
  /-- QBLK: Quantises F32 values of scale groups into elements and scale bytes. (R164) -/
  | qblk (f : Fields)
  /-- DQBLK: Dequantises elements times their group scale to F32. (R165) -/
  | dqblk (f : Fields)
  /-- LXCH: Exchanges values between lanes within segments. (R168) -/
  | lxch (f : Fields)
  /-- QSWZ: Swizzles values within each quad. (R168) -/
  | qswz (f : Fields)
  /-- QBCAST: Broadcasts one lane of each quad. (R168) -/
  | qbcast (f : Fields)
  /-- QDIFF: Quad horizontal or vertical difference. (R168) -/
  | qdiff (f : Fields)
  /-- PCOLL: Collects a predicate across contributing lanes into Q or G. (R170) -/
  | pcoll (f : Fields)
  /-- REDG: Reduces a value across contributing lanes into a G register. (R169) -/
  | redg (f : Fields)
  /-- SCANG: Inclusive or exclusive scan across contributing lanes. (R169) -/
  | scang (f : Fields)
  /-- BCASTG: Broadcasts one lane's value into a G register. (R170) -/
  | bcastg (f : Fields)
  /-- MATCHG: Finds lanes with equal values as a mask or leader. (R170) -/
  | matchg (f : Fields)
  /-- PLOP: Three-input table function on lane predicates. (R171) -/
  | plop (f : Fields)
  /-- PMOV: Moves predicates to and from predicates, V or G registers. (R171) -/
  | pmov (f : Fields)
  /-- QLOP: Three-input table function on group predicates. (R171) -/
  | qlop (f : Fields)
  /-- LD: Loads global memory per lane. (R228) -/
  | ld (f : Fields)
  /-- ST: Stores to global memory per lane through the outbox. (R228) -/
  | st (f : Fields)
  /-- LDS: Loads from scratch or the sheaf window. (R228) -/
  | lds (f : Fields)
  /-- STS: Stores to scratch or the sheaf window. (R228) -/
  | sts (f : Fields)
  /-- LDC: Loads constant and argument memory. (R228) -/
  | ldc (f : Fields)
  /-- LDB: Loads whole scale groups with their scales. (R229) -/
  | ldb (f : Fields)
  /-- STB: Stores whole scale groups with their scales as one entry. (R229) -/
  | stb (f : Fields)
  /-- SPILL: Spills one vector register in compressed form to a frame slot. (R230) -/
  | spill (f : Fields)
  /-- FILL: Restores one vector register from a spill slot. (R230) -/
  | fill (f : Fields)
  /-- PREF: Prefetches a line into the view or L2. (R231) -/
  | pref (f : Fields)
  /-- CCTL_IC: Invalidates instruction-cache blocks of a range on the partition's cores. (R232) -/
  | cctlIc (f : Fields)
  /-- CCTL_VIEW: Empties the core's view. (R232) -/
  | cctlView (f : Fields)
  /-- CCTL_WB: Writes dirty L2 lines of a range to memory. (R232) -/
  | cctlWb (f : Fields)
  /-- ATOM: Atomic read-modify-write on global memory, lane by lane. (R234) -/
  | atom (f : Fields)
  /-- ATOMS: Atomic read-modify-write on scratch, lane by lane. (R234) -/
  | atoms (f : Fields)
  /-- FENCE: Appends a release marker and/or takes the acquire action of its scope. (R215) -/
  | fence (f : Fields)
  /-- FSC: Sequentially consistent fence waiting for an empty outbox and the next tick. (R216) -/
  | fsc (f : Fields)
  /-- CPYT: Copies a tensor box between global memory and scratch. (R239) -/
  | cpyt (f : Fields)
  /-- CPYO: Copies a byte range between scratch and global memory. (R238) -/
  | cpyo (f : Fields)
  /-- CPYB: Copies whole scale groups with their scales. (R240) -/
  | cpyb (f : Fields)
  /-- BINIT: Initialises a barrier with its expected members. (R243) -/
  | binit (f : Fields)
  /-- BARV: Arrives at a barrier without waiting. (R243) -/
  | barv (f : Fields)
  /-- BWAIT: Waits until the barrier's phase differs from a parity. (R243) -/
  | bwait (f : Fields)
  /-- BARW: Arrives at a barrier and waits for its phase to complete. (R243) -/
  | barw (f : Fields)
  /-- BEXP: Adds expected bytes to a barrier's pending count. (R243) -/
  | bexp (f : Fields)
  /-- BTEST: Reads a barrier's state or arrival mask. (R243) -/
  | btest (f : Fields)
  /-- SQCFG: Configures a stage set and initialises its barriers. (R246) -/
  | sqcfg (f : Fields)
  /-- SQWAIT: Waits for a stage slot to be full or empty for a sequence number. (R246) -/
  | sqwait (f : Fields)
  /-- SQREL: Arrives at a stage slot's full or empty barrier. (R246) -/
  | sqrel (f : Fields)
  /-- JST: Joins each lane's value into its lattice cell in the local replica. (R268) -/
  | jst (f : Fields)
  /-- MST: Stores a monotone value into each lattice cell or faults NONMONO. (R268) -/
  | mst (f : Fields)
  /-- TLD: Waits until the local cells satisfy the thresholds. (R269) -/
  | tld (f : Fields)
  /-- TLDT: Threshold load with a timeout. (R270) -/
  | tldt (f : Fields)
  /-- LPEEK: Reads local lattice cells without waiting or acquiring. (R271) -/
  | lpeek (f : Fields)
  /-- LJOIN: Joins two register values under a lattice type. (R272) -/
  | ljoin (f : Fields)
  /-- LCMP: Compares two register values under a lattice order. (R272) -/
  | lcmp (f : Fields)
  /-- LSYNC: Waits until its die's earlier joins are in all replicas. (R273) -/
  | lsync (f : Fields)
  /-- FREG: Registers a future on a join record, or decrements it at once if already resolved. (R250) -/
  | freg (f : Fields)
  /-- FREG_WAIT: Waits for the lanes' futures to be resolved or poisoned. (R250) -/
  | fregWait (f : Fields)
  /-- FRES: Resolves a future with a value, decrementing its join record. (R250) -/
  | fres (f : Fields)
  /-- FPOIS: Poisons a future with a code, decrementing its join record. (R250) -/
  | fpois (f : Fields)
  /-- SPAWN: Places a spawn record for a new group of the crew. (R114) -/
  | spawn (f : Fields)
  /-- TSUB: Pushes a task record onto the partition's device launch queue. (R119) -/
  | tsub (f : Fields)
  /-- QPOP: Takes an entry from a device queue into eight G registers. (R118) -/
  | qpop (f : Fields)
  /-- QPUSH: Pushes eight G registers onto a device queue. (R117) -/
  | qpush (f : Fields)
  /-- CLAIM: Requests resources from the grant unit, granted or deferred. (R121) -/
  | claim (f : Fields)
  /-- RELEASE: Returns resources to the grant unit and re-tests deferred requests. (R122) -/
  | release (f : Fields)
  /-- RGSUR: Surrenders a group's top register granules to the crew. (R123) -/
  | rgsur (f : Fields)
  /-- RGCLM: Takes register granules from the crew's free granules, waiting if needed. (R123) -/
  | rgclm (f : Fields)
  /-- CLQRY: Reads the crew's Hold, Max, Need, the core's Avail or granule counts. (R124) -/
  | clqry (f : Fields)
  /-- HELPER_ON: Fills partial quads with helper lanes. (R112) -/
  | helperOn (f : Fields)
  /-- HELPER_OFF: Removes helper lanes from EXEC. (R112) -/
  | helperOff (f : Fields)
  /-- HELPER_RD: Reads the helper mask into a predicate. (R112) -/
  | helperRd (f : Fields)
  /-- MMA: Posts an unscaled matrix pass. (R195) -/
  | mma (f : Fields)
  /-- MMAS: Posts a scaled matrix pass. (R195) -/
  | mmas (f : Fields)
  /-- MZERO: Zeroes a silo region. (R196) -/
  | mzero (f : Fields)
  /-- MFILL: Fills a silo region with a value. (R196) -/
  | mfill (f : Fields)
  /-- MDRAIN: Writes a silo region to memory, raw or requantised. (R197) -/
  | mdrain (f : Fields)
  /-- MCPY_OUT: Copies raw silo words to scratch. (R198) -/
  | mcpyOut (f : Fields)
  /-- MCPY_IN: Copies raw words from scratch into the silo. (R198) -/
  | mcpyIn (f : Fields)
  /-- MTLD: Loads consecutive M registers from scratch. (R199) -/
  | mtld (f : Fields)
  /-- MCFG_FMT: Sets MFMT from an immediate. (R200) -/
  | mcfgFmt (f : Fields)
  /-- MCFG_FMTM: Sets MFMT from an M register. (R200) -/
  | mcfgFmtm (f : Fields)
  /-- MCFG_GRP: Sets the matrix group map. (R200) -/
  | mcfgGrp (f : Fields)
  /-- MSYNC: Waits until every posted pass and silo operation has completed. (R201) -/
  | msync (f : Fields)
  /-- MBAR_ARV: The sequencer arrives at a crew barrier. (R202) -/
  | mbarArv (f : Fields)
  /-- MBAR_WAIT: The sequencer waits for a barrier phase to complete. (R202) -/
  | mbarWait (f : Fields)
  /-- MSTAT: Reads MSTATUS and optionally clears its sticky flags. (R204) -/
  | mstat (f : Fields)
  /-- SEQ_MOVI: Writes an immediate to an M register in a matrix stream. (R176) -/
  | seqMovi (f : Fields)
  /-- SEQ_IADD: Adds M registers in a matrix stream. (R176) -/
  | seqIadd (f : Fields)
  /-- SEQ_ISUB: Subtracts M registers in a matrix stream. (R176) -/
  | seqIsub (f : Fields)
  /-- SEQ_ICMP: Compares M registers into MCC. (R176) -/
  | seqIcmp (f : Fields)
  /-- SEQ_BRA: Branches the sequencer on an MCC condition. (R176) -/
  | seqBra (f : Fields)
  /-- SEQ_LOOP: Counts an M register down and branches the sequencer. (R176) -/
  | seqLoop (f : Fields)
  /-- SEQ_EXIT: Stops the sequencer. (R176) -/
  | seqExit (f : Fields)
  /-- TRAP: Raises a software lane-level trap in the Active lanes. (R320) -/
  | trap (f : Fields)
  /-- TRAP_HSET: Sets the crew's lane-level handler entry and argument. (R320) -/
  | trapHset (f : Fields)
  /-- TRAP_FSET: Sets the crew's fatal handler entry and argument. (R320) -/
  | trapFset (f : Fields)
  /-- TRET: Returns lanes from a handler group to their parked group. (R321) -/
  | tret (f : Fields)
  /-- TRET_WR: Returns lanes, writing one register of each thread. (R321) -/
  | tretWr (f : Fields)
  /-- BKPT: Halts its group with CAUSE 5. (R353) -/
  | bkpt (f : Fields)
  /-- BKPT_CREW: Halts its group and broadcasts a crew halt. (R353) -/
  | bkptCrew (f : Fields)
  /-- DUMP: Writes the stopped crew's state to a dump buffer. (R327) -/
  | dump (f : Fields)
  /-- ERRINJ: Injects an engine, plane or memory error for testing. (R338) -/
  | errinj (f : Fields)
  /-- WPSET: Sets a watch predicate and takes ownership. (R345) -/
  | wpset (f : Fields)
  /-- WPCLR: Clears a watch predicate. (R345) -/
  | wpclr (f : Fields)
  /-- WPRD: Reads a watch predicate word. (R345) -/
  | wprd (f : Fields)
  /-- HRD: Reads a halted group's register or status. (R350) -/
  | hrd (f : Fields)
  /-- HWR: Writes a halted group's register. (R350) -/
  | hwr (f : Fields)
  /-- HSTEP: Steps a halted group by one instruction. (R351) -/
  | hstep (f : Fields)
  /-- HSTEP_LANE: Steps a halted group until a lane takes part or the limit is reached. (R351) -/
  | hstepLane (f : Fields)
  /-- HRES: Resumes a halted group. (R352) -/
  | hres (f : Fields)
  /-- HRES_CREW: Resumes every halted group of the target's crew and its sequencer. (R352) -/
  | hresCrew (f : Fields)
  /-- HRES_SHEAF: Resumes every halted group of the target's sheaf. (R352) -/
  | hresSheaf (f : Fields)
  /-- SNAP: Raises the common snapshot trigger. (R354) -/
  | snap (f : Fields)
  /-- PROBE: Reduces an issue-slot or watch counter across the partition's cores. (R356) -/
  | probe (f : Fields)
  /-- TRACE: Writes a marker record to the trace ring. (R359) -/
  | trace (f : Fields)
  /-- HEATRD: Reads, and optionally halves, eight heat counters. (R298) -/
  | heatrd (f : Fields)
  /-- CCTL_COMPLETION: A CCTL.ic completes once every core of the partition has invalidated, or a CCTL.wb once memory or
  the CXL port acknowledges its writes, and the issuing group may issue again. (R232) -/
  | cctlCompletion (g : Gid)
  /-- MSIX_UNMASK: The host unmasks an MSI-X vector, and an interrupt held pending while it was masked is then sent.
  (R373) -/
  | msixUnmask (vec : Nat)
  /-- PEER_LINK_CHANGE: A peer link trains or fails; the Granary updates DOMMAP and logs the change. (R372) -/
  | peerLinkChange
  /-- BACK_INVALIDATE: A pool device's back-invalidate drops the line from L2 and every view after writing through
  pending stores. (R302) -/
  | backInvalidate
  /-- TICK: The heartbeat rises by one every 128 clocks and releases groups waiting in FSC. (R31) -/
  | tick
  /-- SENSOR_SAMPLE: Every 10 µs the Granary reads temperature and current sensors and may move the clock step or stop
  the device. (R384) -/
  | sensorSample
  /-- COOL_PERIOD_EXPIRY: After 10 ms with all readings below 90 °C and within limits, the clock moves one step faster.
  (R384) -/
  | coolPeriodExpiry
  /-- ENGINE_WATCHDOG_EXPIRY: A pass holding arrays for 2^20 clocks, or a hung segment, starts an engine reset. (R334) -/
  | engineWatchdogExpiry
  /-- SNAPSHOT_TRIGGER: A watch action, SNAP, the Granary or the host raises the common snapshot trigger or increments
  MISSED. (R32) -/
  | snapshotTrigger
  /-- SNAPSHOT_LATCH: 96 clocks after the trigger every snapshot register latches in one clock and vector 1 is raised.
  (R32) -/
  | snapshotLatch
  /-- THRESHER_ROUND: The Thresher serves each lane's packet in hand by type order, one step per lane. (R377) -/
  | thresherRound
  /-- NOP_PACKET: A NOP packet is taken with no action. (R376) -/
  | nopPacket
  /-- LAUNCH: A LAUNCH packet's task record is validated and passed to dispatch with the queue's ASID and PRIV. (R376) -/
  | launch
  /-- IB_CALL: An IB_CALL opens an indirect buffer of COUNT packets after depth, loop and alignment checks. (R378) -/
  | ibCall
  /-- WAIT_VALUE: A WAIT_VALUE packet is taken once the masked memory word meets its condition, tested each round.
  (R376) -/
  | waitValue
  /-- WRITE_VALUE: A WRITE_VALUE packet writes its value with release and optionally raises its MSI-X vector. (R376) -/
  | writeValue
  /-- FENCE_PACKET: A FENCE packet is taken once every earlier LAUNCH of its queue has signalled completion. (R376) -/
  | fencePacket
  /-- TIMESTAMP: A TIMESTAMP packet writes the heartbeat with release and optionally raises its vector. (R376) -/
  | timestamp
  /-- SNAPSHOT_RELEASE: Writing SNAPCTL REL clears HELD and SRC so the next trigger latches. (R354) -/
  | snapshotRelease
  /-- HOST_TRIGGER: Writing SNAPCTL TRIG raises the snapshot trigger as the host. (R354) -/
  | hostTrigger
  /-- READ_EVENT_LOG: Mailbox command 0x01 copies event-log records to a device buffer. (R385) -/
  | readEventLog
  /-- UPDATE_BEGIN: Mailbox command 0x10 begins a firmware update without erasing. (R387) -/
  | updateBegin
  /-- UPDATE_DATA: Mailbox command 0x11 stages image data in Granary memory. (R387) -/
  | updateData
  /-- UPDATE_COMMIT: Mailbox command 0x12 verifies the image signature and writes the flash. (R387) -/
  | updateCommit
  /-- GRANARY_HALT: Mailbox command 0x20 halts a target group or crew with CAUSE 8. (R385) -/
  | granaryHalt
  /-- GRANARY_HRD: Mailbox command 0x21 reads a halted group's register at level 2. (R385) -/
  | granaryHrd
  /-- GRANARY_HWR: Mailbox command 0x22 writes a halted group's register at level 2. (R385) -/
  | granaryHwr
  /-- GRANARY_HSTEP: Mailbox command 0x23 steps a halted group at level 2. (R385) -/
  | granaryHstep
  /-- GRANARY_HRES: Mailbox command 0x24 resumes a group, crew or sheaf at level 2. (R385) -/
  | granaryHres
  /-- KILL_ASID: Mailbox command 0x30 stops every crew of an ASID with KILLED. (R385) -/
  | killAsid
  /-- PREEMPT_ASID: Mailbox command 0x31 makes a pre-emption request naming every crew of an ASID. (R385) -/
  | preemptAsid
  /-- SNAPSHOT_COMMAND: Mailbox command 0x40 raises the snapshot trigger from the Granary. (R385) -/
  | snapshotCommand
  /-- MAILBOX_COMMAND_COMPLETION: A Granary mailbox command finishes, STAT.BUSY clears with its result, and MSI-X vector
  0 is raised. (R385) -/
  | mailboxCommandCompletion
  /-- POWER_LOSS: Loss of power interrupts the device, and a firmware commit interrupted after the erase leaves no image
  in flash. (R387) -/
  | powerLoss
  deriving DecidableEq, Repr, Inhabited

end Sys2Proof
end

