-- ==== Sys2Proof/Machine/Legal.lean ====
section
/-! DEFINITION. Which words are legal (R40 to R48): for each instruction the file each operand field
names and the values its other fields may take. R49 step 6 raises ILLOP from it, and step 8 takes the
registers named from it. -/

namespace Sys2Proof

/-- What an operand field names (R42, R95). -/
inductive Slot where
  /-- Unused: the field and its kind bit are zero. -/
  | z
  /-- `n` consecutive V registers, aligned to `n`; no kind bit. -/
  | v (n : Nat)
  /-- `n` consecutive V registers from any index. -/
  | vr (n : Nat)
  /-- V registers (`n` consecutive, aligned), or a G register by the kind bit. -/
  | vg (n : Nat)
  /-- A G register named through its kind bit. -/
  | gk
  /-- A G register, its index a multiple of `n`, without a kind bit. -/
  | g (n : Nat)
  /-- A G register through its kind bit, with an index that is a multiple of `n`. -/
  | gkn (n : Nat)
  | p
  | q
  | bar
  | m
  /-- A selector or index that the instruction's own rule checks. -/
  | sel
  deriving DecidableEq, Repr

/-- An instruction's operand fields, and whether every other field is legal. -/
structure Shape where
  d : Slot := .z
  a : Slot := .z
  b : Slot := .z
  c : Slot := .z
  ok : Bool := true
  /-- C is written, not read. -/
  cw : Bool := false
  /-- It is watched only through source 7 (R341). -/
  pcOnly : Bool := false
  /-- It follows every read of its group's LPEEKs: it ends or regroups threads, gives up granules, or arrives at a
  barrier. -/
  settles : Bool := false
  deriving DecidableEq, Repr, Inhabited

def Slot.legal (k : Bool) (x : BitVec 8) : Slot → Bool
  | .z => x == 0 && !k
  | .v n => x.toNat % n == 0 && !k
  | .vr _ => !k
  | .vg n => if k then decide (x.toNat < 64) else x.toNat % n == 0
  | .gk => k && decide (x.toNat < 64)
  | .g n => decide (x.toNat < 64) && x.toNat % n == 0 && !k
  | .gkn n => k && decide (x.toNat < 64) && x.toNat % n == 0
  | .p => decide (x.toNat < 128) && !k
  | .q => decide (x.toNat < 16) && !k
  | .bar => decide (x.toNat < 16) && !k
  | .m => decide (x.toNat < 16) && !k
  | .sel => !k

/-- One more than the highest V register the field names (R50), 0 for none. -/
def Slot.extent (k : Bool) (x : BitVec 8) : Slot → Nat
  | .v n => x.toNat + n
  | .vr n => x.toNat + n
  | .vg n => if k then 0 else x.toNat + n
  | _ => 0

/-- Whether the field names G register `n`. -/
def Slot.namesG (k : Bool) (x : BitVec 8) (n : Nat) : Slot → Bool
  | .vg _ => k && x.toNat == n
  | .gk => x.toNat == n
  | .g j => decide (x.toNat ≤ n) && decide (n < x.toNat + j)
  | .gkn j => decide (x.toNat ≤ n) && decide (n < x.toNat + j)
  | _ => false

/-- Whether the field names V register `n`. -/
def Slot.namesV (k : Bool) (x : BitVec 8) (n : Nat) : Slot → Bool
  | .v j => decide (x.toNat ≤ n) && decide (n < x.toNat + j)
  | .vr j => decide (x.toNat ≤ n) && decide (n < x.toNat + j)
  | .vg j => !k && decide (x.toNat ≤ n) && decide (n < x.toNat + j)
  | _ => false

def Guard.legal (u : Bool) : Guard → Bool
  | .always => true
  | .on _ idx => !u || decide (idx.toNat < 16)

/-- R40 to R45 over a shape. (Log 35: DEDUCED, unsafe.) -/
def Shape.legal (sh : Shape) (f : Fields) : Bool :=
  sh.ok && f.guard.legal f.u && sh.d.legal false f.d && sh.a.legal f.ka f.a && sh.b.legal f.kb f.b &&
    sh.c.legal f.kc f.c

/-- One more than the highest V register the instruction names (R50). -/
def Shape.extent (sh : Shape) (f : Fields) : Nat :=
  max (max (sh.d.extent false f.d) (sh.a.extent f.ka f.a))
    (max (sh.b.extent f.kb f.b) (sh.c.extent f.kc f.c))

/-- Whether the instruction names G register `n`; a copy's extended word names one as well (R236). -/
def Shape.namesG (sh : Shape) (f : Fields) (n : Nat) : Bool :=
  sh.d.namesG false f.d n || sh.a.namesG f.ka f.a n || sh.b.namesG f.kb f.b n || sh.c.namesG f.kc f.c n ||
    (f.len == .w128 && !f.u && f.imm.getLsbD 37 && f.imm.toNat / 2 ^ 40 % 64 == n)

/-- Whether the instruction names V register `n`. -/
def Shape.namesV (sh : Shape) (f : Fields) (n : Nat) : Bool :=
  sh.d.namesV false f.d n || sh.a.namesV f.ka f.a n || sh.b.namesV f.kb f.b n || sh.c.namesV f.kc f.c n

/-- The V registers the instruction writes. -/
def Slot.writes (x : BitVec 8) : Slot → List Nat
  | .v n => (List.range n).map (x.toNat + ·)
  | .vr n => (List.range n).map (x.toNat + ·)
  | _ => []
def Shape.writes (sh : Shape) (f : Fields) : List Nat := sh.d.writes f.d ++ if sh.cw then sh.c.writes f.c else []

/-- Bytes of an instruction (R35). -/
def Len.bytes : Len → Nat
  | .w64 => 8
  | .w96 => 12
  | .w128 => 16

namespace Fields
def w64 (f : Fields) : Bool := f.len == .w64
def w96 (f : Fields) : Bool := f.len == .w96
def w128 (f : Fields) : Bool := f.len == .w128
def unguarded (f : Fields) : Bool := f.guard == .always
/-- The 32-bit immediate. -/
def i32 (f : Fields) : W32 := f.imm.setWidth 32
/-- Bits hi:lo of F.fn. -/
def fnBits (f : Fields) (hi lo : Nat) : Nat := f.fn.toNat / 2 ^ lo % 2 ^ (hi + 1 - lo)
/-- Bits hi:lo of the immediate or extended word. -/
def immBits (f : Fields) (hi lo : Nat) : Nat := f.imm.toNat / 2 ^ lo % 2 ^ (hi + 1 - lo)
def fnIs (f : Fields) (n : Nat) : Bool := f.fn.toNat == n
def fnMax (f : Fields) (n : Nat) : Bool := decide (f.fn.toNat ≤ n)
/-- A code offset has bits 1:0 zero (R95). -/
def codeOff (f : Fields) : Bool := f.immBits 1 0 == 0
end Fields

/-- V in per-lane form, G in group-wide form, `n` registers wide per lane. -/
def Fields.own (f : Fields) (n : Nat) : Slot := if f.u then .g 1 else .vg n
def Fields.ownD (f : Fields) (n : Nat) : Slot := if f.u then .g 1 else .v n

/-! ### Control and group (R94, R95) -/

def shapeNop (f : Fields) : Shape := { ok := f.fnIs 0 && f.imm == 0 }
def shapeExit (f : Fields) : Shape := { ok := f.fnIs 0 && f.w64, settles := true }
def shapeBra (f : Fields) : Shape := { ok := f.u && f.w96 && f.fnMax 10 && f.codeOff }
def shapeBrx (f : Fields) : Shape := { a := .g 1, ok := f.u && f.w64 && f.fnMax 10 }
def shapeCall (f : Fields) : Shape := { d := .g 1, ok := f.u && f.w96 && f.fnIs 0 && f.codeOff }
def shapeCallI (f : Fields) : Shape := { d := .g 1, a := .g 1, ok := f.u && f.w64 && f.fnIs 0x10 }
def shapeRet (f : Fields) : Shape := { a := .g 1, ok := f.u && f.w64 && f.fnIs 0 }
def shapeLoop (f : Fields) : Shape := { d := .g 1, ok := f.u && f.w96 && f.fnIs 0 && f.codeOff }
def shapeDpush (f : Fields) : Shape :=
  { a := .p, ok := !f.u && f.w96 && f.fnMax 1 && f.unguarded && f.codeOff }
def shapeDelse (f : Fields) : Shape := { ok := f.u && f.w64 && f.fnIs 2 && f.unguarded }
def shapeDpop (f : Fields) : Shape := { ok := f.u && f.w64 && f.fnIs 3 && f.unguarded }
def shapeRepack (f : Fields) : Shape :=
  { a := .vg 1, b := .bar, ok := !f.u && f.w64 && f.fnIs 0 && f.unguarded, settles := true }
def shapeUnpack (f : Fields) : Shape := { a := .bar, ok := f.u && f.w64 && f.fnIs 0 && f.unguarded, settles := true }

/-- Element-format codes 0xA to 0xF and scale-format codes 2 and 3 are reserved (R108). -/
def fmtReserved (x : BitVec 16) : Bool :=
  decide (10 ≤ x.toNat % 16) || decide (10 ≤ x.toNat / 16 % 16) || decide (2 ≤ x.toNat / 4096 % 4)

def shapeSetfmt (f : Fields) : Shape :=
  if f.fnIs 0 then
    { ok := f.u && f.w96 && f.immBits 63 16 == 0 && !fmtReserved (f.imm.setWidth 16) }
  else { a := .g 1, ok := f.u && f.w64 && f.fnIs 1 }
def shapeYield (f : Fields) : Shape := { ok := f.u && f.w64 && f.fnIs 0 }
def shapeSleep (f : Fields) : Shape :=
  { ok := f.u && f.w96 && f.fnIs 0 && decide (1 ≤ f.imm.toNat) && decide (f.imm.toNat ≤ 65535) }
/-- Selectors 0x00 to 0x0A; %hb is 64 bits wide; the per-lane ones have no group-wide form (R55, R110). -/
def shapeMovs (f : Fields) : Shape :=
  { d := if f.u then .g 1 else if f.a == 8 then .v 2 else .v 1, a := .sel,
    ok := f.w64 && f.fnIs 0 && decide (f.a.toNat ≤ 10) &&
      !(f.u && (f.a == 0 || f.a == 1 || f.a == 10)) }
def shapeMovsw (f : Fields) : Shape :=
  { d := .sel, a := .vg 1, ok := !f.u && f.w64 && f.fnIs 1 && f.d == 10 }
def shapeLeader (f : Fields) : Shape := { d := .p, ok := !f.u && f.w64 && f.fnMax 1 }

/-! ### Tasks and claims (R94, R95, R120, R123) -/

def shapeSpawn (f : Fields) : Shape := { a := .g 1, ok := f.u && f.w96 && f.fnMax 7 && f.codeOff }
def shapeTsub (f : Fields) : Shape := { d := .q, a := .g 1, ok := f.u && f.w64 && f.fnIs 0 }
def shapeQpop (f : Fields) : Shape :=
  { d := .g 8, a := .g 1, c := if f.fnIs 1 then .q else .z, ok := f.u && f.w64 && f.fnMax 1 }
def shapeQpush (f : Fields) : Shape :=
  { d := .q, a := .g 1, b := .g 8, ok := f.u && f.w64 && f.fnIs 0 }
/-- The bits of a claim vector that name nothing are zero. -/
def claimImmOk (f : Fields) : Bool :=
  f.immBits 7 7 == 0 && f.immBits 15 14 == 0 && f.immBits 63 23 == 0
def shapeClaim (f : Fields) : Shape :=
  if f.fnIs 0 then { ok := f.u && f.w96 && claimImmOk f }
  else { a := .g 1, ok := f.u && f.w64 && f.fnIs 1 }
def shapeGran (f : Fields) : Shape :=
  { ok := f.u && f.w96 && f.fnIs 0 && decide (1 ≤ f.imm.toNat) && decide (f.imm.toNat ≤ 7), settles := true }
def shapeClqry (f : Fields) : Shape := { d := .g 1, ok := f.u && f.w64 && f.fnMax 4 }
def shapeHelperOn (f : Fields) : Shape := { ok := f.u && f.w64 && f.fnIs 0 }
def shapeHelperOff (f : Fields) : Shape := { ok := f.u && f.w64 && f.fnIs 1 }
def shapeHelperRd (f : Fields) : Shape := { d := .p, ok := !f.u && f.w64 && f.fnIs 2 }

/-! ### Integer and bit (R149 to R151, R155) -/

/-- The type field's width in bits. -/
def Fields.width (f : Fields) : Nat := if f.fnBits 2 0 < 2 then 32 else 64
def Fields.signed (f : Fields) : Bool := f.fnBits 0 0 == 0
def Fields.sat (f : Fields) : Bool := f.fnBits 3 3 == 1
def Fields.ccw (f : Fields) : Bool := f.fnBits 4 4 == 1
def Fields.sub (f : Fields) : Nat := f.fnBits 8 5
/-- V registers of an operand of the type. -/
def Fields.regs (f : Fields) : Nat := if f.width = 32 then 1 else 2
/-- F.fn of R150: the types, whether `.sat` and `.cc` are allowed, the greatest SUB. -/
def Fields.intFn (f : Fields) (types : List Nat) (sat cc : Bool) (sub : Nat) : Bool :=
  types.contains (f.fnBits 2 0) && (sat || !f.sat) && (!f.ccw || (cc && f.u)) && decide (f.sub ≤ sub)
/-- A 128-bit form needs a 64-bit type (R149). -/
def Fields.immLen (f : Fields) : Bool := !f.w128 || decide (2 ≤ f.fnBits 2 0)
/-- B, where an immediate replaces it. -/
def Fields.bOrImm (f : Fields) (n : Nat) : Slot := if f.w64 then f.own n else .z

def allTypes : List Nat := [0, 1, 2, 3]

/-- D, A and B of one type. -/
def shapeInt3 (f : Fields) (sat cc : Bool) : Shape :=
  { d := f.ownD f.regs, a := f.own f.regs, b := f.bOrImm f.regs, ok := f.intFn allTypes sat cc 0 && f.immLen }
/-- D and A of one type. -/
def shapeInt2 (f : Fields) (types : List Nat) (sat cc : Bool) : Shape :=
  { d := f.ownD f.regs, a := f.own f.regs, ok := f.intFn types sat cc 0 && f.w64 }
/-- A shift: B is a count, one 32-bit register whatever the type's width (log 84: DEDUCED, unsafe). -/
def shapeShift (f : Fields) (cc : Bool) : Shape :=
  { d := f.ownD f.regs, a := f.own f.regs, b := f.bOrImm 1, ok := f.intFn allTypes false cc 0 && f.immLen }

def shapeMov (f : Fields) : Shape := shapeInt2 f allTypes false true
def shapeMovi (f : Fields) : Shape :=
  { d := f.ownD f.regs, ok := f.intFn allTypes false true 0 && f.immLen && !f.w64 }
def shapeSel (f : Fields) : Shape :=
  { d := f.ownD f.regs, a := f.own f.regs, b := f.bOrImm f.regs, c := if f.u then .q else .p,
    ok := f.intFn allTypes false false 0 && f.immLen }
def shapeCarry (f : Fields) : Shape :=
  { shapeInt3 f false true with c := if f.u then .z else .p }
def shapeImad (f : Fields) : Shape :=
  { shapeInt3 f true false with c := .vg f.regs, ok := !f.u && f.intFn allTypes true false 0 && f.immLen }
def shapeImadw (f : Fields) : Shape :=
  { d := .v 2, a := .vg 1, b := f.bOrImm 1, c := .vg 2,
    ok := !f.u && f.intFn [0, 1] false false 0 && !f.w128 }
def shapeIabs (f : Fields) : Shape := shapeInt2 f [0, 2] true true
def shapeIcmp (f : Fields) : Shape :=
  { d := if f.u then .q else .p, a := f.own f.regs, b := f.bOrImm f.regs,
    ok := f.intFn allTypes false true 5 && f.immLen }
def shapeLea (f : Fields) : Shape :=
  { d := f.ownD 2, a := f.own 2, b := f.bOrImm f.regs, ok := f.intFn allTypes false false 15 && f.immLen }
def shapeBtab (f : Fields) : Shape :=
  let n := if f.fnBits 8 8 = 0 then 1 else 2
  { d := f.ownD n, a := f.own n, b := f.bOrImm n, c := f.own n, ok := !f.w128 || f.fnBits 8 8 == 1 }
/-- C is pos/len, one 32-bit register whatever the type's width (log 84: DEDUCED, unsafe). -/
def shapeBfi (f : Fields) : Shape :=
  { d := f.ownD f.regs, a := f.own f.regs, b := f.own f.regs, c := f.bOrImm 1,
    ok := f.intFn allTypes false false 0 && f.immLen }
/-- POPC and CLZ write a single register. -/
def shapeCount (f : Fields) : Shape :=
  { d := f.ownD 1, a := f.own f.regs, ok := f.intFn allTypes false false 0 && f.w64 }
def shapeBysel (f : Fields) : Shape :=
  { d := f.ownD 1, a := f.own 1, b := f.own 1, c := f.bOrImm 1,
    ok := f.intFn [0] false false 0 && !f.w128 && f.immBits 63 16 == 0 &&
      decide (f.immBits 3 0 < 14) && decide (f.immBits 7 4 < 14) && decide (f.immBits 11 8 < 14) &&
      decide (f.immBits 15 12 < 14) }
def shapeDot4 (f : Fields) : Shape :=
  { d := .v 1, a := .vg 1, b := f.bOrImm 1, c := .vg 1,
    ok := !f.u && f.intFn [0] true false 3 && !f.w128 }

/-! ### Floating point and conversions (R156, R157, R161, R163) -/

def shapeF3 (f : Fields) (fnMax : Nat) : Shape :=
  { d := .v 1, a := .vg 1, b := if f.w64 then .vg 1 else .z, ok := !f.u && !f.w128 && f.fnMax fnMax }
def shapeF4 (f : Fields) (fnMax : Nat) : Shape := { shapeF3 f fnMax with c := .vg 1 }
def shapeF2 (f : Fields) (fnMax : Nat) : Shape :=
  { d := .v 1, a := .vg 1, ok := !f.u && f.w64 && f.fnMax fnMax }
def shapeFcmp (f : Fields) : Shape := { shapeF3 f 7 with d := .p }
def shapeF2f (f : Fields) : Shape :=
  { d := .v 1, a := .vg 1, ok := !f.u && f.w64 && decide (f.fnBits 2 0 ≤ 5) && decide (f.fnBits 5 3 ≤ 5) }
/-- TY 2 and 3 are 64-bit. -/
def cvtRegs (ty : Nat) : Nat := if ty = 2 ∨ ty = 3 then 2 else 1
def shapeF2i (f : Fields) : Shape :=
  { d := .v (cvtRegs (f.fnBits 5 3)), a := .vg 1,
    ok := !f.u && f.w64 && decide (f.fnBits 2 0 ≤ 5) && f.fnBits 6 6 == 0 }
def shapeI2f (f : Fields) : Shape :=
  { d := .v 1, a := .vg (cvtRegs (f.fnBits 5 3)), ok := !f.u && f.w64 && decide (f.fnBits 2 0 ≤ 5) }
/-- D, A and C name vector registers: none of them takes a kind bit (R163, log 83: DEDUCED, unsafe). -/
def shapeQblk (f : Fields) : Shape :=
  { d := .v 1, a := .v 1, c := .v 1, ok := !f.u && f.w64 && f.fnIs 0, cw := true }
def shapeDqblk (f : Fields) : Shape := { shapeQblk f with cw := false }

/-! ### Quad and cross-lane, predicates (R167, R171) -/

def shapeLxch (f : Fields) : Shape :=
  { d := .v 1, a := .vg 1, b := if f.w64 then .vg 1 else .z,
    ok := !f.u && !f.w128 && decide (f.fnBits 4 2 ≤ 5) && f.fnBits 8 6 == 0 &&
      (f.fnBits 5 5 == 0 || f.fnBits 1 0 == 1 || f.fnBits 1 0 == 2) }
def shapeQswz (f : Fields) : Shape :=
  { d := .v 1, a := .vg 1, ok := !f.u && f.w96 && f.fnIs 0 && decide (f.imm.toNat < 256) }
def shapeQbcast (f : Fields) : Shape :=
  { d := .v 1, a := .vg 1, ok := !f.u && f.w96 && f.fnIs 0 && decide (f.imm.toNat < 4) }
def shapeQdiff (f : Fields) : Shape := shapeF2 f 3
def shapePcoll (f : Fields) : Shape :=
  { d := if f.fn.toNat < 3 then .q else .g 1, a := .p, ok := !f.u && f.w64 && f.fnMax 4 }
def shapeRedg (f : Fields) : Shape := { d := .g 1, a := .vg 1, ok := !f.u && f.w64 && f.fnMax 10 }
def shapeScang (f : Fields) : Shape :=
  { d := .v 1, a := .vg 1, ok := !f.u && f.w64 && decide (f.fnBits 3 0 ≤ 8) && f.fnBits 8 5 == 0 }
def shapeBcastg (f : Fields) : Shape :=
  { d := .g 1, a := .vg 1,
    ok := !f.u && ((f.fnIs 0 && f.w96 && decide (f.imm.toNat < 32)) || (f.fnIs 1 && f.w64)) }
def shapeMatchg (f : Fields) : Shape :=
  { d := .v 1, a := .vg (if f.fn.toNat < 2 then 1 else 2), ok := !f.u && f.w64 && f.fnMax 3 }
def shapePlop (f : Fields) : Shape :=
  { d := .p, a := .p, b := .p, c := .p, ok := !f.u && f.w64 && f.fnMax 255 }
def shapePmov (f : Fields) : Shape :=
  match f.fn.toNat with
  | 0 => { d := .p, a := .p, ok := !f.u && f.w64 }
  | 1 => { d := .p, a := .v 1, ok := !f.u && f.w64 }
  | 2 => { d := .v 1, a := .p, ok := !f.u && f.w64 }
  | 3 => { d := .g 1, a := .p, ok := !f.u && f.w64 }
  | 4 => { d := .p, a := .gk, ok := !f.u && f.w64 }
  | _ => { ok := false }
def shapeQlop (f : Fields) : Shape :=
  { d := .q, a := .q, b := .q, c := .q, ok := f.u && f.w64 && f.fnMax 255 }

/-! ### Memory (R224 to R233) -/

/-- Bytes of an element (R225): TY 0 to 6. -/
def tyBytes (ty : Nat) : Nat := if ty < 2 then 1 else if ty < 4 then 2 else if ty = 4 then 4 else if ty = 5 then 8 else 16
/-- V registers an element takes. -/
def tyRegs (ty : Nat) : Nat := if ty = 5 then 2 else if ty = 6 then 4 else 1
def Fields.ty (f : Fields) : Nat := f.fnBits 2 0
def Fields.idx (f : Fields) : Bool := f.fnBits 6 6 == 1
def Fields.scl (f : Fields) : Nat := f.fnBits 5 3
def Fields.idxSlot (f : Fields) : Slot := if f.idx then .vg 1 else .z
/-- TY and SCL in range (R225), 64 or 96 bits. -/
def Fields.memFn (f : Fields) : Bool :=
  decide (f.ty ≤ 6) && decide (f.scl ≤ 4) && (f.w64 || f.w96)
/-- The data of a store: V registers, or a G register for up to 64 bits. -/
def Fields.data (f : Fields) : Slot := if f.ty = 6 then .v 4 else .vg (tyRegs f.ty)

def shapeLd (f : Fields) : Shape :=
  { d := .v (tyRegs f.ty), a := .vg 2, b := f.idxSlot, ok := !f.u && f.memFn }
def shapeSt (f : Fields) : Shape :=
  { a := .vg 2, b := f.idxSlot, c := f.data, ok := !f.u && f.memFn }
def shapeLds (f : Fields) : Shape :=
  { d := .v (tyRegs f.ty), a := .vg 1, b := f.idxSlot, ok := !f.u && f.memFn }
def shapeSts (f : Fields) : Shape :=
  { a := .vg 1, b := f.idxSlot, c := f.data, ok := !f.u && f.memFn }
def shapeLdc (f : Fields) : Shape :=
  if f.u then { d := .g 1, a := .g 1, ok := f.memFn && f.fnBits 8 8 == 0 && !f.idx && decide (f.ty ≤ 5) }
  else { d := .v (tyRegs f.ty), a := .vg 2, b := f.idxSlot, ok := f.memFn && f.fnBits 8 8 == 0 }

/-- Elements of a scale group (R229). -/
def Fields.grpLen (f : Fields) : Nat := match f.fnBits 5 4 with | 0 => 32 | 1 => 16 | _ => 128
/-- Bits of an element of code 0 to 7 (R134). -/
def efBits (ef : Nat) : Nat := match ef with | 0 => 8 | 1 => 8 | 2 => 4 | 3 => 4 | 4 => 8 | 5 => 8 | 6 => 4 | _ => 16
/-- Bytes of a scale group. -/
def Fields.gb (f : Fields) : Nat := f.grpLen * efBits (f.fnBits 3 0) / 8
def Fields.blkFn (f : Fields) : Bool := f.fnBits 3 0 < 8 && f.fnBits 5 4 < 3
def shapeLdb (f : Fields) : Shape :=
  { d := .vr (f.gb / 4 + 1), a := .vg 2, b := .vg 2, ok := !f.u && f.w64 && f.blkFn && f.fnBits 8 7 == 0 }
def shapeStb (f : Fields) : Shape :=
  { a := .vg 2, b := .vg 2, c := .vr (f.gb / 4 + 1),
    ok := !f.u && f.w64 && f.blkFn && f.fnBits 8 7 == 0 }
def shapeSpill (f : Fields) : Shape :=
  { a := .g 1, c := .v 1, ok := f.u && f.w96 && f.fnMax 1 && decide (f.imm.toNat ≤ 30), pcOnly := true }
def shapeFill (f : Fields) : Shape :=
  { d := .v 1, a := .g 1, ok := f.u && f.w96 && f.fnMax 1 && decide (f.imm.toNat ≤ 30), pcOnly := true }
/-- TY 0, or `.l2` in bit 0; SCL's bit 5 is 0 (R227). -/
def shapePref (f : Fields) : Shape :=
  { a := .vg 2, b := f.idxSlot,
    ok := !f.u && (f.w64 || f.w96) && decide (f.ty ≤ 1) && f.fnBits 5 5 == 0 }
def shapeCctlIc (f : Fields) : Shape := { a := .g 1, b := .g 1, ok := f.u && f.w64 && f.fnIs 0 }
def shapeCctlView (f : Fields) : Shape := { ok := f.u && f.w64 && f.fnIs 1 }
def shapeCctlWb (f : Fields) : Shape := { a := .g 1, b := .g 1, ok := f.u && f.w64 && f.fnIs 2 }

/-- V registers of an atomic's operand: TY 2 and 3 are 64-bit. -/
def Fields.atomRegs (f : Fields) : Nat := if 2 ≤ f.fnBits 5 4 then 2 else 1
def Fields.atomFn (f : Fields) : Bool :=
  decide (f.fnBits 8 6 ≤ 6) && decide (f.fnBits 3 0 ≤ 8) &&
    !(f.fnBits 3 0 == 8 && f.fnBits 5 4 != 0) && (f.w64 || f.w96)
def Fields.casSlot (f : Fields) : Slot := if f.fnBits 3 0 == 7 then .vg f.atomRegs else .z
def shapeAtom (f : Fields) : Shape :=
  { d := .v f.atomRegs, a := .vg 2, b := .vg f.atomRegs, c := f.casSlot, ok := !f.u && f.atomFn }
def shapeAtoms (f : Fields) : Shape :=
  { d := .v f.atomRegs, a := .vg 1, b := .vg f.atomRegs, c := f.casSlot, ok := !f.u && f.atomFn }
def shapeFence (f : Fields) : Shape :=
  { ok := f.u && f.w64 && f.fnBits 1 0 != 0 && decide (f.fnBits 4 2 ≤ 4) && f.fnBits 8 5 == 0 }
def shapeFsc (f : Fields) : Shape := { ok := f.u && f.w64 && f.fnIs 0 }

/-! ### Copies, barriers, stages (R236, R242, R245) -/

/-- The extended word's zero bits, and a G register in FG (R236). -/
def Fields.cpyExt (f : Fields) : Bool :=
  f.immBits 63 46 == 0 && f.immBits 39 38 == 0
def shapeCpyo (f : Fields) : Shape :=
  { a := .vg 2, b := .vg 2, ok := !f.u && f.w128 && f.fnMax 3 && f.cpyExt }
def shapeCpyt (f : Fields) : Shape :=
  { a := .vg 2, b := .gk, c := .gkn 2,
    ok := !f.u && f.w128 && f.fnMax 1 && f.cpyExt && f.immBits 31 0 == 0 }
def shapeCpyb (f : Fields) : Shape :=
  { d := .g 1, a := .vg 2, b := .vg 2, c := .vg 2,
    ok := !f.u && f.w128 && f.blkFn && f.fnBits 8 8 == 0 && f.cpyExt }
def shapeBinit (f : Fields) : Shape :=
  { a := .bar, ok := f.u && f.w96 && f.fnMax 1 && decide (1 ≤ f.imm.toNat) && decide (f.imm.toNat ≤ 4095) }
def shapeBarv (f : Fields) : Shape :=
  { d := if f.fnBits 1 1 == 1 then .q else .z, a := .bar,
    b := if f.fnBits 0 0 == 1 then .g 1 else .z, ok := f.u && f.w64 && f.fnMax 3, settles := true }
def shapeBwait (f : Fields) : Shape := { a := .bar, b := .q, ok := f.u && f.w64 && f.fnIs 0 }
def shapeBarw (f : Fields) : Shape :=
  { a := .bar, b := if f.fnIs 1 then .g 1 else .z, ok := f.u && f.w64 && f.fnMax 1, settles := true }
def shapeBexp (f : Fields) : Shape :=
  if f.fnIs 0 then { a := .bar, ok := f.u && f.w96 }
  else { a := .bar, b := .g 1, ok := f.u && f.w64 && f.fnIs 1 }
def shapeBtest (f : Fields) : Shape := { d := .g 1, a := .bar, ok := f.u && f.w64 && f.fnMax 1 }
def shapeSqcfg (f : Fields) : Shape :=
  { a := .bar, ok := f.u && f.w96 && f.fnIs 0 && f.immBits 63 28 == 0 && decide (1 ≤ f.immBits 3 0) &&
      decide (f.immBits 3 0 ≤ 8) && decide (f.a.toNat + 2 * f.immBits 3 0 ≤ 16) &&
      f.immBits 15 4 != 0 && f.immBits 27 16 != 0 }
def shapeSqwait (f : Fields) : Shape := { a := .g 1, ok := f.u && f.w64 && f.fnMax 1 }

/-! ### Lattice (R266, R267) -/

/-- Bytes of a cell (R257); with TYPE 0 a 4-byte cell (R264). -/
def cellBytes (typ : Nat) : Nat := if typ = 7 || typ = 10 then 8 else if typ = 9 then 16 else 4
/-- TYPE. -/
def Fields.latTyp (f : Fields) : Nat := f.fnBits 3 0
/-- TYPE in range; REL and COND only where they belong. -/
def Fields.latFn (f : Fields) (zero rel cond : Bool) : Bool :=
  decide (f.latTyp ≤ 10) && f.latTyp != 6 && (zero || f.latTyp != 0) && f.fnBits 8 7 == 0 &&
    (rel || f.fnBits 6 6 == 0) && (cond || f.fnBits 5 4 == 0)
/-- V registers of a result or threshold. -/
def Fields.latRegs (f : Fields) : Nat := if 7 ≤ f.latTyp && f.latTyp != 8 then 2 else 1
def shapeJst (f : Fields) : Shape :=
  { a := .vg 2, b := .vg (if f.latTyp = 9 then 1 else f.latRegs),
    ok := !f.u && (f.w64 || f.w96) && f.latFn true true false }
def shapeTld (f : Fields) : Shape :=
  { d := .v f.latRegs, a := .vg 2, b := .vg f.latRegs, ok := !f.u && (f.w64 || f.w96) && f.latFn true false false }
def shapeTldt (f : Fields) : Shape :=
  { d := .v f.latRegs, a := .vg 2, b := .vg f.latRegs, c := .p,
    ok := !f.u && f.w96 && f.latFn true false false && f.imm != 0 }
def shapeLpeek (f : Fields) : Shape :=
  { d := .v f.latRegs, a := .vg 2, ok := !f.u && (f.w64 || f.w96) && f.latFn true false false }
/-- A value in registers: quads for GCNT, without a kind bit. -/
def Fields.latSlot (f : Fields) : Slot := if f.latTyp = 9 then .v 4 else .vg f.latRegs
def shapeLjoin (f : Fields) : Shape :=
  { d := .v (if f.latTyp = 9 then 4 else f.latRegs), a := f.latSlot, b := f.latSlot,
    ok := !f.u && f.w64 && f.latFn false false false }
def shapeLcmp (f : Fields) : Shape :=
  { d := .p, a := f.latSlot, b := f.latSlot, ok := !f.u && f.w64 && f.latFn false false true }
def shapeLsync (f : Fields) : Shape := { ok := f.u && f.w64 && f.fnIs 0 }

/-! ### Futures (R249) -/

/-- The join record's address is a G register, named through its kind bit (R42). -/
def shapeFreg (f : Fields) : Shape := { a := .vg 2, b := .gk, ok := !f.u && f.w64 && f.fnIs 0, pcOnly := true }
def shapeFregWait (f : Fields) : Shape :=
  { d := .v 1, a := .vg 2, c := .p, ok := !f.u && f.w64 && f.fnIs 1, pcOnly := true }
def shapeFres (f : Fields) : Shape :=
  { a := .vg 2, b := if f.w96 then .z else .vg 1, ok := !f.u && (f.w64 || f.w96) && f.fnIs 0, pcOnly := true }

/-! ### System (R320, R321, R327, R338, R344, R350, R298) -/

def shapeTrap (f : Fields) : Shape :=
  { ok := !f.u && f.w96 && f.fnIs 0 && decide (f.imm.toNat < 65536) }
def shapeTrapSet (n : Nat) (f : Fields) : Shape :=
  { a := .g 1, b := .g 1, ok := f.u && f.w64 && f.fnIs n }
def shapeTret (f : Fields) : Shape := { ok := !f.u && f.w64 && f.fnIs 0, settles := true }
def shapeTretWr (f : Fields) : Shape := { d := .sel, a := .vg 1, ok := !f.u && f.w64 && f.fnIs 1 }
def shapeBkpt (n : Nat) (f : Fields) : Shape :=
  { ok := f.u && f.w96 && f.fnIs n && decide (f.imm.toNat < 65536) }
def shapeDump (f : Fields) : Shape :=
  { d := .g 1, a := .g 1, b := .g 1, ok := f.u && f.w64 && f.fnIs 0 }
def shapeErrinj (f : Fields) : Shape :=
  { d := .q, a := .g 1, b := .g 1, ok := f.u && f.w64 && f.fnIs 0 }
def shapeWpset (f : Fields) : Shape :=
  { d := .q, a := .g 1, b := .g 1, c := .g 1, ok := f.u && f.w128 && f.fnIs 0 && decide (f.imm.toNat < 16) }
def shapeWpclr (f : Fields) : Shape := { d := .q, ok := f.u && f.w128 && f.fnIs 0 && decide (f.imm.toNat < 16) }
def shapeWprd (f : Fields) : Shape := { d := .g 1, ok := f.u && f.w128 && f.fnIs 0 && decide (f.imm.toNat < 64) }
/-- The selector of HRD and HWR: its class, its index's limit, its zero bits (R350). -/
def hselOk (f : Fields) : Bool :=
  let cls := f.immBits 31 28
  let idx := f.immBits 7 0
  let lim := match cls with
    | 0 => 256 | 1 => 64 | 2 => 128 | 7 => 16 | 8 => 16 | _ => 1
  decide (cls < 15) && decide (idx < lim) && f.immBits 63 32 == 0 && f.immBits 27 21 == 0 && f.immBits 15 8 == 0
def shapeHrd (f : Fields) : Shape :=
  { d := .g 1, a := .g 1, c := .q, ok := f.u && f.w96 && f.fnIs 0 && hselOk f }
def shapeHwr (f : Fields) : Shape :=
  { d := .q, a := .g 1, b := .g 1, ok := f.u && f.w96 && f.fnIs 0 && hselOk f }
def shapeHstep (f : Fields) : Shape :=
  { d := .g 1, a := .g 1, ok := f.u && f.w96 && f.fnIs 0 && f.imm == 0 }
def shapeHstepLane (f : Fields) : Shape :=
  { d := .g 1, a := .g 1, ok := f.u && f.w96 && f.fnIs 1 && f.immBits 7 5 == 0 && f.immBits 63 16 == 0 &&
      f.immBits 15 8 != 0 }
def shapeHres (n : Nat) (f : Fields) : Shape :=
  { d := .q, a := .g 1, ok := f.u && f.w64 && f.fnIs n }
def shapeSnap (f : Fields) : Shape := { ok := f.u && f.w64 && f.fnIs 0 }
def shapeProbe (f : Fields) : Shape :=
  { d := .g 1, ok := f.u && f.w96 && f.fnMax 2 && decide (f.imm.toNat ≤ 0x20) }
def shapeTrace (f : Fields) : Shape := { a := .g 1, ok := f.u && f.w96 && f.fnIs 0 }
/-! ### The matrix stream (R48, R176, R193, R194) -/

/-- U=1 and GEN=0. -/
def Fields.stream (f : Fields) : Bool := f.u && f.unguarded

def shapeSeqMovi (f : Fields) : Shape :=
  { d := .m, ok := f.stream && f.intFn allTypes false true 0 && f.immLen && !f.w64 }
def shapeSeqAdd (f : Fields) : Shape :=
  { d := .m, a := .m, b := if f.w64 then .m else .z, ok := f.stream && f.intFn allTypes true true 0 && f.immLen }
/-- ICMP carries `.cc`, with D and SUB zero. -/
def shapeSeqIcmp (f : Fields) : Shape :=
  { a := .m, b := if f.w64 then .m else .z, ok := f.stream && f.ccw && f.intFn allTypes false true 0 && f.immLen }
def shapeSeqBra (f : Fields) : Shape := { ok := f.stream && f.w96 && f.fnMax 8 && f.codeOff }
def shapeSeqLoop (f : Fields) : Shape := { d := .m, ok := f.stream && f.w96 && f.fnIs 0 && f.codeOff }
def shapeSeqExit (f : Fields) : Shape := { ok := f.stream && f.w64 && f.fnIs 0 }

/-- The pass word: VS is zero in MMA. -/
def Fields.passWord (f : Fields) (scaled : Bool) : Bool :=
  f.immBits 63 48 == 0 && f.immBits 41 40 != 3 && f.immBits 37 32 == 0 && (scaled || f.immBits 23 16 == 0) &&
    f.immBits 15 11 == 0 &&
    decide (f.immBits 10 0 + 128 * (f.immBits 39 38 + 1) ≤ 1536)
/-- The region word; RQ, OUTF and ACCT only in MDRAIN. -/
def Fields.regionWord (f : Fields) (drain : Bool) : Bool :=
  f.immBits 63 48 == 0 && f.immBits 32 32 == 0 &&
    f.immBits 31 27 == 0 && f.immBits 15 11 == 0 && decide (f.immBits 10 0 + f.immBits 26 16 + 1 ≤ 1536) &&
    decide (16 * f.immBits 39 37 + 16 * (f.immBits 36 34 + 1) ≤ 128) &&
    ((drain && f.immBits 42 42 == 1) || (f.immBits 42 40 == 0 && f.immBits 33 33 == 0))

def shapeMma (f : Fields) : Shape :=
  { d := .m, a := .m, b := .m, ok := f.stream && f.w128 && f.fnMax 1 && f.passWord false }
def shapeMmas (f : Fields) : Shape :=
  { d := .m, a := .m, b := .m, c := .m, ok := f.stream && f.w128 && f.fnMax 1 && f.passWord true }
def shapeMzero (f : Fields) : Shape := { ok := f.stream && f.w128 && f.fnIs 0 && f.regionWord false }
def shapeMfill (f : Fields) : Shape := { a := .m, ok := f.stream && f.w128 && f.fnIs 0 && f.regionWord false }
def shapeMdrain (f : Fields) : Shape :=
  { a := .m, b := .m, c := if f.immBits 42 42 = 1 then .m else .z,
    ok := f.stream && f.w128 && f.fnMax 1 && f.regionWord true }
def shapeMcpy (n : Nat) (f : Fields) : Shape :=
  { a := .m, b := .m, ok := f.stream && f.w128 && f.fnIs n && f.regionWord false }
def shapeMtld (f : Fields) : Shape :=
  { d := .m, a := .m,
    ok := f.stream && f.w128 && f.fnIs 0 && f.immBits 63 28 == 0 && decide (f.d.toNat + f.immBits 27 24 + 1 ≤ 16) }
/-- Reserved codes in the immediate are ILLOP (R108). -/
def shapeMcfgFmt (f : Fields) : Shape :=
  { ok := f.stream && f.w128 && f.fnIs 0 && f.immBits 63 16 == 0 && !fmtReserved (f.imm.setWidth 16) }
def shapeMcfgFmtm (f : Fields) : Shape := { a := .m, ok := f.stream && f.w128 && f.fnIs 1 && f.imm == 0 }
def shapeMcfgGrp (f : Fields) : Shape := { ok := f.stream && f.w128 && f.fnIs 2 && f.immBits 63 16 == 0 }
def shapeMsync (f : Fields) : Shape := { ok := f.stream && f.w128 && f.fnIs 0 && f.imm == 0 }
def shapeMbar (n : Nat) (f : Fields) : Shape :=
  { a := .bar, ok := f.stream && f.w128 && f.fnIs n && (f.imm == 0 || (n == 1 && f.imm == 1)) }
def shapeMstat (f : Fields) : Shape := { d := .m, ok := f.stream && f.w128 && f.fnMax 1 && f.imm == 0 }

def shapeHeatrd (f : Fields) : Shape := { d := .g 1, a := .g 1, ok := f.u && f.w64 && f.fnMax 1 }

/-! ### Forms -/

/-- What an instruction's word holds: its stream (R48), its OP (R46), its fields, and the shape they must
have. -/
structure Form where
  matrix : Bool
  op : Nat
  f : Fields
  shape : Shape
  deriving DecidableEq, Repr

/-- The form of an instruction; a device event has none. -/
def Instr.form : Instr → Option Form
  | .powerOnReset _ _ _ => none
  | .linkRetryFailure _ _ => none
  | .drain _ _ => none
  | .evict _ _ => none
  | .remoteReply _ => none
  | .taskRecordValidation _ => none
  | .dispatchDecision _ => none
  | .admissionCommit _ => none
  | .admissionRelease _ => none
  | .coreReservation _ => none
  | .preemptionRequest _ _ => none
  | .crewEviction _ _ => none
  | .crewRestore _ _ => none
  | .fullTestEnd _ => none
  | .spawnRecordStart _ _ => none
  | .overflowRingMove _ => none
  | .crewRetire _ _ => none
  | .queueEntryReceipt _ _ => none
  | .acknowledgement _ => none
  | .negativeAcknowledgement _ => none
  | .backoffExpiry _ => none
  | .sleepExpiry _ => none
  | .yieldEnd _ => none
  | .copyIssue _ => none
  | .beat _ _ => none
  | .copyCompletion _ => none
  | .arbiterGrant _ => none
  | .passSegment _ => none
  | .passCompletion _ => none
  | .siloOperationCompletion _ => none
  | .engineResume _ _ => none
  | .push _ => none
  | .exchange _ _ _ => none
  | .phaseEnd _ _ => none
  | .thresholdLoad _ => none
  | .tldtTimeout _ => none
  | .lsyncDone _ => none
  | .futureWaitReturn _ => none
  | .fwaitExpiry _ => none
  | .faultRecordWrite _ => none
  | .heatSample _ _ => none
  | .trapCompaction _ _ => none
  | .sheafHaltArrival _ _ => none
  | .fatalHandlerStart _ _ => none
  | .queuePoll _ => none
  | .deviceLaunchQueueTake _ => none
  | .queueRestart _ => none
  | .regionRegistration _ _ => none
  | .regionDeregistration _ _ => none
  | .partitionEnable _ _ => none
  | .asidDisable _ _ => none
  | .poolWindowEnable _ _ _ _ => none
  | .poolWindowDisable _ _ _ => none
  | .freplay _ _ => none
  | .pteUpdate _ => none
  | .pteInvalidate _ => none
  | .shootdownComplete _ => none
  | .bar2Read _ _ => none
  | .bar2Write _ _ _ => none
  | .registerWrite _ _ _ => none
  | .cctlCompletion _ => none
  | .msixUnmask _ => none
  | .peerLinkChange => none
  | .backInvalidate => none
  | .tick => none
  | .sensorSample => none
  | .coolPeriodExpiry => none
  | .engineWatchdogExpiry => none
  | .snapshotTrigger => none
  | .snapshotLatch => none
  | .thresherRound => none
  | .nopPacket => none
  | .launch => none
  | .ibCall => none
  | .waitValue => none
  | .writeValue => none
  | .fencePacket => none
  | .timestamp => none
  | .snapshotRelease => none
  | .hostTrigger => none
  | .readEventLog => none
  | .updateBegin => none
  | .updateData => none
  | .updateCommit => none
  | .granaryHalt => none
  | .granaryHrd => none
  | .granaryHwr => none
  | .granaryHstep => none
  | .granaryHres => none
  | .killAsid => none
  | .preemptAsid => none
  | .snapshotCommand => none
  | .mailboxCommandCompletion => none
  | .powerLoss => none
  | .nop f => some { matrix := false, op := 0x01, f := f, shape := shapeNop f }
  | .exit f => some { matrix := false, op := 0x02, f := f, shape := shapeExit f }
  | .bra f => some { matrix := false, op := 0x03, f := f, shape := shapeBra f }
  | .brx f => some { matrix := false, op := 0x04, f := f, shape := shapeBrx f }
  | .call f => some { matrix := false, op := 0x05, f := f, shape := shapeCall f }
  | .callI f => some { matrix := false, op := 0x05, f := f, shape := shapeCallI f }
  | .ret f => some { matrix := false, op := 0x06, f := f, shape := shapeRet f }
  | .loop f => some { matrix := false, op := 0x07, f := f, shape := shapeLoop f }
  | .dpush f => some { matrix := false, op := 0x08, f := f, shape := shapeDpush f }
  | .delse f => some { matrix := false, op := 0x08, f := f, shape := shapeDelse f }
  | .dpop f => some { matrix := false, op := 0x08, f := f, shape := shapeDpop f }
  | .repack f => some { matrix := false, op := 0x09, f := f, shape := shapeRepack f }
  | .unpack f => some { matrix := false, op := 0x0A, f := f, shape := shapeUnpack f }
  | .setfmt f => some { matrix := false, op := 0x0B, f := f, shape := shapeSetfmt f }
  | .yield f => some { matrix := false, op := 0x0C, f := f, shape := shapeYield f }
  | .sleep f => some { matrix := false, op := 0x0D, f := f, shape := shapeSleep f }
  | .movs f => some { matrix := false, op := 0x0E, f := f, shape := shapeMovs f }
  | .movsw f => some { matrix := false, op := 0x0E, f := f, shape := shapeMovsw f }
  | .leader f => some { matrix := false, op := 0x0F, f := f, shape := shapeLeader f }
  | .mov f => some { matrix := false, op := 0x10, f := f, shape := shapeMov f }
  | .movi f => some { matrix := false, op := 0x10, f := f, shape := shapeMovi f }
  | .sel f => some { matrix := false, op := 0x11, f := f, shape := shapeSel f }
  | .iadd f => some { matrix := false, op := 0x12, f := f, shape := shapeInt3 f true true }
  | .iaddc f => some { matrix := false, op := 0x13, f := f, shape := shapeCarry f }
  | .isub f => some { matrix := false, op := 0x14, f := f, shape := shapeInt3 f true true }
  | .isubb f => some { matrix := false, op := 0x15, f := f, shape := shapeCarry f }
  | .imul f => some { matrix := false, op := 0x16, f := f, shape := shapeInt3 f true false }
  | .imulh f => some { matrix := false, op := 0x17, f := f, shape := shapeInt3 f false false }
  | .imad f => some { matrix := false, op := 0x18, f := f, shape := shapeImad f }
  | .imadw f => some { matrix := false, op := 0x19, f := f, shape := shapeImadw f }
  | .iabs f => some { matrix := false, op := 0x1A, f := f, shape := shapeIabs f }
  | .ineg f => some { matrix := false, op := 0x1B, f := f, shape := shapeIabs f }
  | .imin f => some { matrix := false, op := 0x1C, f := f, shape := shapeInt3 f false false }
  | .imax f => some { matrix := false, op := 0x1D, f := f, shape := shapeInt3 f false false }
  | .icmp f => some { matrix := false, op := 0x1E, f := f, shape := shapeIcmp f }
  | .lea f => some { matrix := false, op := 0x1F, f := f, shape := shapeLea f }
  | .and f => some { matrix := false, op := 0x20, f := f, shape := shapeInt3 f false true }
  | .or f => some { matrix := false, op := 0x21, f := f, shape := shapeInt3 f false true }
  | .xor f => some { matrix := false, op := 0x22, f := f, shape := shapeInt3 f false true }
  | .not f => some { matrix := false, op := 0x23, f := f, shape := shapeInt2 f allTypes false true }
  | .btab f => some { matrix := false, op := 0x24, f := f, shape := shapeBtab f }
  | .shl f => some { matrix := false, op := 0x25, f := f, shape := shapeShift f true }
  | .shr f => some { matrix := false, op := 0x26, f := f, shape := shapeShift f true }
  | .sha f => some { matrix := false, op := 0x27, f := f, shape := shapeShift f true }
  | .rot f => some { matrix := false, op := 0x28, f := f, shape := shapeShift f false }
  | .bfx f => some { matrix := false, op := 0x29, f := f, shape := shapeShift f false }
  | .bfi f => some { matrix := false, op := 0x2A, f := f, shape := shapeBfi f }
  | .popc f => some { matrix := false, op := 0x2B, f := f, shape := shapeCount f }
  | .clz f => some { matrix := false, op := 0x2C, f := f, shape := shapeCount f }
  | .brev f => some { matrix := false, op := 0x2D, f := f, shape := shapeInt2 f allTypes false false }
  | .bysel f => some { matrix := false, op := 0x2E, f := f, shape := shapeBysel f }
  | .dot4 f => some { matrix := false, op := 0x2F, f := f, shape := shapeDot4 f }
  | .fadd f => some { matrix := false, op := 0x30, f := f, shape := shapeF3 f 3 }
  | .fsub f => some { matrix := false, op := 0x31, f := f, shape := shapeF3 f 3 }
  | .fmul f => some { matrix := false, op := 0x32, f := f, shape := shapeF3 f 3 }
  | .ffma f => some { matrix := false, op := 0x33, f := f, shape := shapeF4 f 3 }
  | .fmin f => some { matrix := false, op := 0x34, f := f, shape := shapeF3 f 0 }
  | .fmax f => some { matrix := false, op := 0x35, f := f, shape := shapeF3 f 0 }
  | .fcmp f => some { matrix := false, op := 0x36, f := f, shape := shapeFcmp f }
  | .fdiv f => some { matrix := false, op := 0x37, f := f, shape := shapeF3 f 3 }
  | .fsqrt f => some { matrix := false, op := 0x38, f := f, shape := shapeF2 f 3 }
  | .frcp f => some { matrix := false, op := 0x39, f := f, shape := shapeF2 f 3 }
  | .frsq f => some { matrix := false, op := 0x3A, f := f, shape := shapeF2 f 3 }
  | .fexp2 f => some { matrix := false, op := 0x3B, f := f, shape := shapeF2 f 3 }
  | .flog2 f => some { matrix := false, op := 0x3C, f := f, shape := shapeF2 f 3 }
  | .frnd f => some { matrix := false, op := 0x3D, f := f, shape := shapeF2 f 3 }
  | .fclass f => some { matrix := false, op := 0x3E, f := f, shape := shapeF2 f 0 }
  | .pfma f => some { matrix := false, op := 0x3F, f := f, shape := shapeF4 f 15 }
  | .f2f f => some { matrix := false, op := 0x40, f := f, shape := shapeF2f f }
  | .f2i f => some { matrix := false, op := 0x41, f := f, shape := shapeF2i f }
  | .i2f f => some { matrix := false, op := 0x42, f := f, shape := shapeI2f f }
  | .qblk f => some { matrix := false, op := 0x43, f := f, shape := shapeQblk f }
  | .dqblk f => some { matrix := false, op := 0x44, f := f, shape := shapeDqblk f }
  | .lxch f => some { matrix := false, op := 0x50, f := f, shape := shapeLxch f }
  | .qswz f => some { matrix := false, op := 0x51, f := f, shape := shapeQswz f }
  | .qbcast f => some { matrix := false, op := 0x52, f := f, shape := shapeQbcast f }
  | .qdiff f => some { matrix := false, op := 0x53, f := f, shape := shapeQdiff f }
  | .pcoll f => some { matrix := false, op := 0x54, f := f, shape := shapePcoll f }
  | .redg f => some { matrix := false, op := 0x55, f := f, shape := shapeRedg f }
  | .scang f => some { matrix := false, op := 0x56, f := f, shape := shapeScang f }
  | .bcastg f => some { matrix := false, op := 0x57, f := f, shape := shapeBcastg f }
  | .matchg f => some { matrix := false, op := 0x58, f := f, shape := shapeMatchg f }
  | .plop f => some { matrix := false, op := 0x60, f := f, shape := shapePlop f }
  | .pmov f => some { matrix := false, op := 0x61, f := f, shape := shapePmov f }
  | .qlop f => some { matrix := false, op := 0x62, f := f, shape := shapeQlop f }
  | .ld f => some { matrix := false, op := 0x70, f := f, shape := shapeLd f }
  | .st f => some { matrix := false, op := 0x71, f := f, shape := shapeSt f }
  | .lds f => some { matrix := false, op := 0x72, f := f, shape := shapeLds f }
  | .sts f => some { matrix := false, op := 0x73, f := f, shape := shapeSts f }
  | .ldc f => some { matrix := false, op := 0x74, f := f, shape := shapeLdc f }
  | .ldb f => some { matrix := false, op := 0x75, f := f, shape := shapeLdb f }
  | .stb f => some { matrix := false, op := 0x76, f := f, shape := shapeStb f }
  | .spill f => some { matrix := false, op := 0x77, f := f, shape := shapeSpill f }
  | .fill f => some { matrix := false, op := 0x78, f := f, shape := shapeFill f }
  | .pref f => some { matrix := false, op := 0x79, f := f, shape := shapePref f }
  | .cctlIc f => some { matrix := false, op := 0x7A, f := f, shape := shapeCctlIc f }
  | .cctlView f => some { matrix := false, op := 0x7A, f := f, shape := shapeCctlView f }
  | .cctlWb f => some { matrix := false, op := 0x7A, f := f, shape := shapeCctlWb f }
  | .atom f => some { matrix := false, op := 0x80, f := f, shape := shapeAtom f }
  | .atoms f => some { matrix := false, op := 0x81, f := f, shape := shapeAtoms f }
  | .fence f => some { matrix := false, op := 0x82, f := f, shape := shapeFence f }
  | .fsc f => some { matrix := false, op := 0x83, f := f, shape := shapeFsc f }
  | .cpyt f => some { matrix := false, op := 0x91, f := f, shape := shapeCpyt f }
  | .cpyo f => some { matrix := false, op := 0x90, f := f, shape := shapeCpyo f }
  | .cpyb f => some { matrix := false, op := 0x92, f := f, shape := shapeCpyb f }
  | .binit f => some { matrix := false, op := 0x93, f := f, shape := shapeBinit f }
  | .barv f => some { matrix := false, op := 0x94, f := f, shape := shapeBarv f }
  | .bwait f => some { matrix := false, op := 0x95, f := f, shape := shapeBwait f }
  | .barw f => some { matrix := false, op := 0x96, f := f, shape := shapeBarw f }
  | .bexp f => some { matrix := false, op := 0x97, f := f, shape := shapeBexp f }
  | .btest f => some { matrix := false, op := 0x98, f := f, shape := shapeBtest f }
  | .sqcfg f => some { matrix := false, op := 0x99, f := f, shape := shapeSqcfg f }
  | .sqwait f => some { matrix := false, op := 0x9A, f := f, shape := shapeSqwait f }
  | .sqrel f => some { matrix := false, op := 0x9B, f := f, shape := shapeSqwait f }
  | .jst f => some { matrix := false, op := 0xA0, f := f, shape := shapeJst f }
  | .mst f => some { matrix := false, op := 0xA1, f := f, shape := shapeJst f }
  | .tld f => some { matrix := false, op := 0xA2, f := f, shape := shapeTld f }
  | .tldt f => some { matrix := false, op := 0xA3, f := f, shape := shapeTldt f }
  | .lpeek f => some { matrix := false, op := 0xA4, f := f, shape := shapeLpeek f }
  | .ljoin f => some { matrix := false, op := 0xA5, f := f, shape := shapeLjoin f }
  | .lcmp f => some { matrix := false, op := 0xA6, f := f, shape := shapeLcmp f }
  | .lsync f => some { matrix := false, op := 0xA7, f := f, shape := shapeLsync f }
  | .freg f => some { matrix := false, op := 0xA8, f := f, shape := shapeFreg f }
  | .fregWait f => some { matrix := false, op := 0xA8, f := f, shape := shapeFregWait f }
  | .fres f => some { matrix := false, op := 0xA9, f := f, shape := shapeFres f }
  | .fpois f => some { matrix := false, op := 0xAA, f := f, shape := shapeFres f }
  | .spawn f => some { matrix := false, op := 0xB0, f := f, shape := shapeSpawn f }
  | .tsub f => some { matrix := false, op := 0xB1, f := f, shape := shapeTsub f }
  | .qpop f => some { matrix := false, op := 0xB2, f := f, shape := shapeQpop f }
  | .qpush f => some { matrix := false, op := 0xB3, f := f, shape := shapeQpush f }
  | .claim f => some { matrix := false, op := 0xB4, f := f, shape := shapeClaim f }
  | .release f => some { matrix := false, op := 0xB5, f := f, shape := shapeClaim f }
  | .rgsur f => some { matrix := false, op := 0xB6, f := f, shape := shapeGran f }
  | .rgclm f => some { matrix := false, op := 0xB7, f := f, shape := shapeGran f }
  | .clqry f => some { matrix := false, op := 0xB8, f := f, shape := shapeClqry f }
  | .helperOn f => some { matrix := false, op := 0xB9, f := f, shape := shapeHelperOn f }
  | .helperOff f => some { matrix := false, op := 0xB9, f := f, shape := shapeHelperOff f }
  | .helperRd f => some { matrix := false, op := 0xB9, f := f, shape := shapeHelperRd f }
  | .mma f => some { matrix := true, op := 0xC0, f := f, shape := shapeMma f }
  | .mmas f => some { matrix := true, op := 0xC1, f := f, shape := shapeMmas f }
  | .mzero f => some { matrix := true, op := 0xC2, f := f, shape := shapeMzero f }
  | .mfill f => some { matrix := true, op := 0xC3, f := f, shape := shapeMfill f }
  | .mdrain f => some { matrix := true, op := 0xC4, f := f, shape := shapeMdrain f }
  | .mcpyOut f => some { matrix := true, op := 0xC5, f := f, shape := shapeMcpy 0 f }
  | .mcpyIn f => some { matrix := true, op := 0xC5, f := f, shape := shapeMcpy 1 f }
  | .mtld f => some { matrix := true, op := 0xC6, f := f, shape := shapeMtld f }
  | .mcfgFmt f => some { matrix := true, op := 0xC7, f := f, shape := shapeMcfgFmt f }
  | .mcfgFmtm f => some { matrix := true, op := 0xC7, f := f, shape := shapeMcfgFmtm f }
  | .mcfgGrp f => some { matrix := true, op := 0xC7, f := f, shape := shapeMcfgGrp f }
  | .msync f => some { matrix := true, op := 0xC8, f := f, shape := shapeMsync f }
  | .mbarArv f => some { matrix := true, op := 0xC9, f := f, shape := shapeMbar 0 f }
  | .mbarWait f => some { matrix := true, op := 0xC9, f := f, shape := shapeMbar 1 f }
  | .mstat f => some { matrix := true, op := 0xCA, f := f, shape := shapeMstat f }
  | .seqMovi f => some { matrix := true, op := 0x10, f := f, shape := shapeSeqMovi f }
  | .seqIadd f => some { matrix := true, op := 0x12, f := f, shape := shapeSeqAdd f }
  | .seqIsub f => some { matrix := true, op := 0x14, f := f, shape := shapeSeqAdd f }
  | .seqIcmp f => some { matrix := true, op := 0x1E, f := f, shape := shapeSeqIcmp f }
  | .seqBra f => some { matrix := true, op := 0x03, f := f, shape := shapeSeqBra f }
  | .seqLoop f => some { matrix := true, op := 0x07, f := f, shape := shapeSeqLoop f }
  | .seqExit f => some { matrix := true, op := 0x02, f := f, shape := shapeSeqExit f }
  | .trap f => some { matrix := false, op := 0xD0, f := f, shape := shapeTrap f }
  | .trapHset f => some { matrix := false, op := 0xD0, f := f, shape := shapeTrapSet 1 f }
  | .trapFset f => some { matrix := false, op := 0xD0, f := f, shape := shapeTrapSet 2 f }
  | .tret f => some { matrix := false, op := 0xD1, f := f, shape := shapeTret f }
  | .tretWr f => some { matrix := false, op := 0xD1, f := f, shape := shapeTretWr f }
  | .bkpt f => some { matrix := false, op := 0xD2, f := f, shape := shapeBkpt 0 f }
  | .bkptCrew f => some { matrix := false, op := 0xD2, f := f, shape := shapeBkpt 1 f }
  | .dump f => some { matrix := false, op := 0xD3, f := f, shape := shapeDump f }
  | .errinj f => some { matrix := false, op := 0xD4, f := f, shape := shapeErrinj f }
  | .wpset f => some { matrix := false, op := 0xD5, f := f, shape := shapeWpset f }
  | .wpclr f => some { matrix := false, op := 0xD6, f := f, shape := shapeWpclr f }
  | .wprd f => some { matrix := false, op := 0xD7, f := f, shape := shapeWprd f }
  | .hrd f => some { matrix := false, op := 0xD8, f := f, shape := shapeHrd f }
  | .hwr f => some { matrix := false, op := 0xD9, f := f, shape := shapeHwr f }
  | .hstep f => some { matrix := false, op := 0xDA, f := f, shape := shapeHstep f }
  | .hstepLane f => some { matrix := false, op := 0xDA, f := f, shape := shapeHstepLane f }
  | .hres f => some { matrix := false, op := 0xDB, f := f, shape := shapeHres 0 f }
  | .hresCrew f => some { matrix := false, op := 0xDB, f := f, shape := shapeHres 1 f }
  | .hresSheaf f => some { matrix := false, op := 0xDB, f := f, shape := shapeHres 2 f }
  | .snap f => some { matrix := false, op := 0xDC, f := f, shape := shapeSnap f }
  | .probe f => some { matrix := false, op := 0xDD, f := f, shape := shapeProbe f }
  | .trace f => some { matrix := false, op := 0xDE, f := f, shape := shapeTrace f }
  | .heatrd f => some { matrix := false, op := 0xDF, f := f, shape := shapeHeatrd f }

end Sys2Proof
end

