-- ==== Sys2Proof/Config.lean ====
section
/-! DEFINITION. What the manual leaves open, as constants without a body, and the moves a state may
plan. Nothing can be proved about the value of an `opaque` constant, so a claim holds for every one. -/

namespace Sys2Proof

/-- One step the abstract machine may take next (R212): a group or a sequencer issues its next instruction, a group
under a halt broadcast stops before its next instruction (R324, R347), a device event happens, or a soft error arises
(R337): in the memory behind a physical address, or in a crew's own registers, scratch or silo, uncorrectable with
`bad`; or a group's pending LPEEK reads (R222). `refetch` says whether the step reads anew what a cache holds: the
fetch block although the instruction cache has it (R37), a translation although a TLB has it (R296, R307); an entry
may leave such a cache at any time. -/
inductive Move where
  | issue (g : Gid) (refetch : Bool)
  | seq (core slot : Nat) (refetch : Bool)
  | stop (g : Gid)
  | event (i : Instr) (refetch : Bool)
  | memError (pa : Nat) (bad : Bool)
  | crewError (core slot : Nat) (bad : Bool)
  | peek (g : Gid) (k : Nat)
  deriving DecidableEq, Repr

/-- The move that comes next when `State.agenda` is empty, by the number of steps made (R212: any step
whose condition holds may be next). DESIGN CHOICE, log 1; safe: unconstrained. -/
opaque Config.schedule : Nat → Option Move

/-- A fresh value the manual leaves open, by a counter. Log 4; safe: unconstrained. -/
opaque Config.freeValue : Nat → BitVec 64

/-- The number of 1 KiB sectors the image of a compressible page needs, from the page's bytes (R303,
R304: the layout is the device's own). Log 12; safe: unconstrained. -/
opaque Config.imageSectors : List Byte → Nat

/-- Bytes of a context frame that the manual names and gives no size (R332): 0 the owed members of a copy, 1 a
participant record, 2 the sequencer's state, 3 a kept entry. DESIGN CHOICE, log 15; safe: unconstrained. -/
opaque Config.frameBytes : Nat → Nat

/-- The bytes of a part of a context frame whose values the manual names and whose layout it does not give (R332): by the
part, the values it holds, and the byte. DESIGN CHOICE, log 15; safe: unconstrained. -/
opaque Config.frameLayout : Nat → List Nat → Nat → BitVec 8

/-- The value that a restore reads at an index of such a part, from its bytes, where they are not those that were
written (R333): by the part, its bytes, and the index. DESIGN CHOICE, log 15; safe: unconstrained. -/
opaque Config.frameRead : Nat → List (BitVec 8) → Nat → Nat

/-- Whether an image's signature is valid (R387). Log 4; safe: unconstrained. -/
opaque Config.signatureOk : List Byte → Bool

end Sys2Proof
end

