-- ==== Sys2Proof/Machine/Tab.lean ====
section
/-! DEFINITION. Tables: sparse data by natural key, in one canonical form (keys rise strictly, and no
entry equals what an unlisted key reads as). Registers, memory and the control block are tables. -/

namespace Sys2Proof.Machine

/-- The value at a key; `d` is what an unlisted key reads as. -/
def tget {α : Type} (d : α) : Tab α → Nat → α
  | [], _ => d
  | (k, v) :: t, x => if k = x then v else tget d t x

/-- Removes the record at a key. -/
def tdel {α : Type} (t : Tab α) (x : Nat) : Tab α := t.filter fun e => e.1 != x

/-- Adds or replaces the record at a key. -/
def tput {α : Type} : Tab α → Nat → α → Tab α
  | [], x, v => [(x, v)]
  | (k, w) :: t, x, v =>
    if k = x then (x, v) :: t
    else if x < k then (x, v) :: (k, w) :: t
    else (k, w) :: tput t x v

/-- Writes a key. Writing what an unlisted key reads as removes the entry. -/
def tset {α : Type} [DecidableEq α] (d : α) (t : Tab α) (x : Nat) (v : α) : Tab α :=
  if v = d then tdel t x else tput t x v

/-- The record at a key, if there is one. -/
def tfind {α : Type} : Tab α → Nat → Option α
  | [], _ => none
  | (k, v) :: t, x => if k = x then some v else tfind t x

/-- Changes the record at a key, if there is one. -/
def tmod {α : Type} (t : Tab α) (x : Nat) (f : α → α) : Tab α :=
  t.map fun e => if e.1 = x then (e.1, f e.2) else e

/-- Removes every entry with lo ≤ key < hi: those keys then read as unlisted. -/
def tclear {α : Type} (t : Tab α) (lo hi : Nat) : Tab α := t.filter fun e => e.1 < lo || hi ≤ e.1

/-- Writes consecutive keys from `x`. -/
def tsetMany {α : Type} [DecidableEq α] (d : α) (t : Tab α) (l : List (Nat × α)) : Tab α :=
  l.foldl (fun t e => tset d t e.1 e.2) t

/-- Keys rise strictly. -/
def tsorted {α : Type} : Tab α → Bool
  | [] => true
  | [_] => true
  | (k, _) :: (k', v') :: t => decide (k < k') && tsorted ((k', v') :: t)

/-- The canonical form. -/
def twf {α : Type} [DecidableEq α] (d : α) (t : Tab α) : Bool :=
  tsorted t && t.all fun e => decide (e.2 ≠ d)

end Sys2Proof.Machine
end

