-- ==== Sys2Proof/Machine/State.lean ====
section
/-! DEFINITION. The state of the device: everything the manual gives the machine, as plain data.
INVENTORY.md lists each piece with its rule and its value at reset. -/

namespace Sys2Proof.Machine

/-- Why the model cannot go on. -/
inductive Fault where
  /-- Raised by `exec` when it is called for a group or sequencer that does not exist. `step` never
  makes such a call. Safe: the machine stops where no instruction could issue. -/
  | noActor
  deriving DecidableEq, Repr

/-- What the model has no meaning for. -/
inductive Refusal where
  /-- Raised by an arm of `exec` without a meaning. Safe: the run stops. -/
  | notModelled (mnemonic : String)
  deriving DecidableEq, Repr

/-! ### Claims and records of work -/

/-- A vector over the claim classes RG, SG, CH, MS (R26, R120). -/
structure Claim where
  rg : Nat := 0
  sg : Nat := 0
  ch : Nat := 0
  ms : Nat := 0
  deriving DecidableEq, Repr, Inhabited

/-- A task record (R63). -/
structure TaskRec where
  kcode : W64 := 0
  entry : W32 := 0
  cv : Bool := false
  fv : Bool := false
  prio : Nat := 0
  nsheaf : Nat := 1
  sk : Nat := 1
  sh : Nat := 1
  sw : Nat := 1
  scrg : Nat := 0
  gpg : Nat := 1
  ngrp : Nat := 1
  max : Claim := {}
  argp : W64 := 0
  futa : W64 := 0
  cmpa : W64 := 0
  cmpv : W64 := 0
  deriving DecidableEq, Repr, Inhabited

/-- A spawn record (R115), with the crew it belongs to. -/
structure SpawnRec where
  entry : W32
  crewSlot : Nat
  gran : Nat
  arg : W64
  argp : W64
  crewUid : Nat
  deriving DecidableEq, Repr, Inhabited

/-! ### Groups -/

/-- An entry of the divergence stack (R101). -/
structure SEntry where
  fmt : BitVec 16 := 0
  isSealed : Bool := false
  elseDone : Bool := false
  rejoin : BitVec 46 := 0
  els : W32 := 0
  exec : W32 := 0
  deriving DecidableEq, Repr, Inhabited

/-- Where an outbox entry's bytes lie (R211): a crew's scratch, this device, or a peer device. -/
inductive Space where
  | scratch (crewUid : Nat)
  | global
  | peer
  deriving DecidableEq, Repr, Inhabited

/-- An outbox entry (R211): a marker (of this device, or of all), or the bytes of one store. `cells`
are at the place the store translated to; `vas` are the same bytes' addresses as the group names them
(R217). `space` is `peer` where every byte is a peer's. -/
structure Ent where
  marker : Option Bool := none
  space : Space := .global
  cells : List (Nat × Byte) := []
  vas : List Nat := []
  /-- The lane that stored each of the bytes. -/
  lanes : List Nat := []
  /-- The instruction's PC. -/
  pc : BitVec 48 := 0
  /-- A drain that met CAPF (R304) and waits for a replay. -/
  stall : Bool := false
  /-- A drain met CAPF: no other write to its page is made ahead of it. -/
  capf : Bool := false
  /-- A drain met CAPF, or waited for one: the bytes are translated anew when it leaves (R304, R307). -/
  anew : Bool := false
  deriving DecidableEq, Repr, Inhabited

/-- One lane's pending write of a remote load or atomic (R83): the lane, the values of Vd, Vd+1, …; lane
32 is a G register's two halves. -/
structure Pending where
  lane : Nat
  dst : List (Nat × W32)
  /-- The offset in the control block of the register it reads; it is read as the reply comes. -/
  reg : Option Nat := none
  deriving DecidableEq, Repr, Inhabited

/-- What a group waits for. -/
inductive Wait where
  | none
  /-- BARW, BWAIT, SQWAIT: until the phase of barrier `n` of crew `uid` differs from `par`. `stage`
  marks SQWAIT. -/
  | bar (uid n : Nat) (par stage : Bool)
  | repack (n vt : Nat)
  | unpack (n : Nat)
  /-- CLAIM, deferred or under the full test (R76). -/
  | grant
  /-- QPOP: on an empty queue, or on SEQ(i) of the entry it took (R118); `seen`: the pages that the instruction has
  translated (R296). -/
  | qpop (i : Option Nat) (seen : List Nat)
  /-- QPUSH or TSUB: on SEQ(i) of the entry it reserved (R117), with the units of TSUB's record that it has read. -/
  | qpush (i : Nat) (got : Tab (List Byte)) (seen : List Nat)
  /-- CPYT while it reads its layout record: the units that it has read (R209, R239). -/
  | units (got : Tab (List Byte))
  | spawn
  /-- A remote load (kind 0), block load (1), atomic (2) or FILL (3), with what its lanes will receive, and
  what the after-completion sources of R341 will be offered: the access's bits, and of each lane the value
  loaded and the flags raised. -/
  | remote (pend : List Pending) (kind : Nat) (acquire : Bool) (width : Nat) (offers : List (Nat × W64 × Nat))
  | thresh (timed : Bool)
  /-- FREG.wait, in the lanes listed. -/
  | future (lanes : List Nat)
  /-- FREG, FRES, FPOIS between two lanes' steps: the lanes still to step (R249), and the pages that the instruction
  has translated, each with its place (R296). -/
  | futs (todo : List Nat) (pages : List (Nat × Nat))
  /-- A replayable fault: the page's ASID and number (R299). -/
  | page (asid vpn : Nat)
  | sleep
  | yield
  /-- FSC, drained, waiting for the tick (R216). -/
  | fsc
  | rgclm (n : Nat)
  /-- LSYNC: for each region and line with an earlier join of its die, the dies whose replicas lack it. -/
  | lsync (lacks : List (Nat × Nat × BitVec 4))
  /-- A copy instruction: the lanes whose copies are not issued, with their operands. -/
  | copy (todo : List (Nat × List W64))
  | cctl (kind : Nat) (lo len : Nat)
  | release
  /-- An atomic between two lanes' steps (R213, R234): the lanes still to step, and the place each
  translated to (0 and a physical address, or a crew's uid and an offset); of the lanes done, the flags
  raised, the old value, whether its reply is awaited. -/
  | atom (todo : List (Nat × Nat × Nat)) (did : List (Nat × Nat × W64 × Bool))
  /-- JST, MST: issued, the lanes that join still to step (R222, R268); with `rel` once the outbox is empty. -/
  | join (lanes : List Nat) (rel : Bool)
  /-- DUMP after its header: until its sections are written, then until its header closes: the bytes written,
  the fault's code and address, whether the buffer ended first (R330). -/
  | dump (x : Option (Nat × Nat × Nat × Bool))
  /-- HSTEP: its target, lane, limit, counts so far. -/
  | hstep (tgt : Nat) (lane limit n skipped : Nat)
  deriving DecidableEq, Repr, Inhabited

/-- An LPEEK that has issued and whose read is still to be made (R222): its fields, its PC, and each lane's address:
those that read, and helper lanes, which read where their cell checks. -/
structure Peek where
  f : Fields
  pc : BitVec 48
  lanes : List (Nat × W64)
  helpers : List (Nat × W64) := []
  deriving DecidableEq, Repr, Inhabited

/-- A trapped lane's frame (R318). `inHandler` is set while a handler group holds the thread. -/
structure TrapLane where
  lane : Nat
  code : Nat
  pc : BitVec 48
  addr : W64 := 0
  detail : W32 := 0
  a : W32 := 0
  b : W32 := 0
  c : W32 := 0
  /-- The kind of the access that trapped it, for its record (R305). -/
  acc : Nat := 0
  inHandler : Bool := false
  /-- When it was left without a granule of the trap pool: a rising number, 0 before (R317, R339). -/
  since : Nat := 0
  deriving DecidableEq, Repr, Inhabited

/-- What kind of group this is. -/
inductive GKind where
  | own
  /-- A new group of REPACK: the barrier named, the depth of its key (R105, R107). -/
  | packed (bar depth : Nat)
  /-- A lane-level handler group; `dflt` is the firmware default handler (R319). -/
  | handler (dflt : Bool)
  /-- A fatal handler group (R326). -/
  | fatal (dflt : Bool)
  deriving DecidableEq, Repr, Inhabited

/-- The halt status (R348). `cause` 0 is running. -/
structure HaltInfo where
  cause : Nat := 0
  hlanes : W32 := 0
  focus : Nat := 0
  wpn : Nat := 0
  waiting : Bool := false
  deriving DecidableEq, Repr, Inhabited

/-- A group. Its registers stand in the tables of `State` under `uid` (R52). -/
structure Group where
  crew : Nat
  uid : Nat
  grp : Nat := 0
  gran : Nat := 1
  /-- It was started by SPAWN, at privilege level 0 (R292). -/
  spawned : Bool := false
  pc : BitVec 48 := 0
  pcBad : Bool := false
  exec : W32 := 0xFFFFFFFF
  live : W32 := 0xFFFFFFFF
  hlp : W32 := 0
  fmt : BitVec 16 := 0
  cc : BitVec 4 := 0
  q : BitVec 16 := 0
  stack : List SEntry := List.replicate 16 {}
  depth : Nat := 0
  /-- The home (uid, %grp) of each lane's thread in a regrouped group; empty: the group's own. -/
  homes : List (Nat × Nat) := []
  /-- A handler group's lanes: the slot of each thread's parked group, 32 for none. -/
  orig : List Nat := []
  /-- The default handler's records, raised and perhaps not yet written (R305, R319). -/
  recs : List Nat := []
  kind : GKind := .own
  outbox : List Ent := []
  wait : Wait := .none
  /-- The wait a replayable fault interrupted (R299). -/
  kept : Wait := .none
  /-- The page (ASID, number) of a write of its instruction that met CAPF and is not made yet (R304). -/
  capf : Option (Nat × Nat) := none
  /-- The next access it makes to pool memory meets a link error (R302). -/
  linkBad : Bool := false
  /-- The instruction it last issued, which it is still in while it waits. -/
  cur : Instr := .nop {}
  /-- The fields and shape of the instruction it waits in. -/
  ins : Fields := {}
  insSh : Shape := {}
  traps : List TrapLane := []
  halt : HaltInfo := {}
  wskip : Bool := false
  skid : Nat := 0
  /-- Instructions issued since a broadcast that has not stopped the group yet, and the cause it will
  take (3, 4 or 7). -/
  bcast : Option (Nat × Nat) := none
  /-- Those of them that it issued before a crew-fatal stop took the broadcast over (R324, R349). -/
  before : Nat := 0
  /-- PROBEs whose results are pending: event, reduction, destination (R356). -/
  probes : List (Nat × Nat × Nat) := []
  /-- LPEEKs whose reads are still to be made, oldest first (R222). -/
  peeks : List Peek := []
  /-- Who steps it while it is halted (R351): 0 the Granary, k + 1 the group with key k. -/
  stepper : Option Nat := none
  deriving DecidableEq, Repr, Inhabited

/-! ### Crews -/

/-- A barrier register (R241), with the count BINIT gave kept under REPACK (R105). -/
structure Bar where
  amask : BitVec 16 := 0
  pend : W32 := 0
  phase : Bool := false
  init : Bool := false
  shf : Bool := false
  arr : Nat := 0
  exp : Nat := 0
  keep : Nat := 0
  deriving DecidableEq, Repr, Inhabited

/-- The matrix sequencer (R174, R175, R204). -/
structure Seqr where
  exists_ : Bool := false
  running : Bool := false
  halted : Bool := false
  mpc : BitVec 48 := 0
  m : List W64 := List.replicate 16 0
  mcc : BitVec 4 := 0
  mfmt : BitVec 16 := 0
  mgrp : BitVec 16 := 0x3210
  /-- The sticky flags of MSTATUS. -/
  sticky : BitVec 9 := 0
  /-- The units of scratch that the MTLD at MPC has read, by address ÷ 16 (R209). -/
  got : Tab (List Byte) := []
  deriving DecidableEq, Repr, Inhabited

/-- A fault record's fields (R305, R316). -/
structure FRec where
  code : Nat
  tag : Nat := 0
  acc : Nat := 0
  lvl : Nat := 0
  asid : Nat := 0
  va : W64 := 0
  pte : W64 := 0
  pc : BitVec 48 := 0
  who : W32 := 0xFFFFFFFF
  lanes : W32 := 0
  need : Nat := 0
  creg : Nat := 0
  b2c : W32 := 0
  b30 : W64 := 0
  b38 : W64 := 0
  id : Nat := 0
  deriving DecidableEq, Repr, Inhabited

/-- A crew's stop (R324 to R326). `recId` names its record once it waits to be written; `handler`: its
fatal handler has started; `ended`: that handler has ended. `ranges`, `slots`: the range locks and the
group slots at the broadcast. -/
structure Stop where
  frec : FRec
  core : Nat
  slot : Nat
  others : List FRec := []
  recId : Option Nat := none
  handler : Bool := false
  ended : Bool := false
  /-- Its other records, the dump's among them, that the kill waits for. -/
  more : List Nat := []
  /-- The lane-level handler groups as they stopped, by issue slot, once the fatal handler has taken its. -/
  hnds : List (Nat × Group) := []
  ranges : List (Nat × Nat × Nat × Nat) := []
  slots : List Nat := []
  deriving DecidableEq, Repr, Inhabited

/-- A resident crew. -/
structure Crew where
  uid : Nat
  launch : Nat := 0
  sheaf : Nat := 0
  index : Nat := 0
  asid : Nat := 0
  priv : Nat := 0
  prio : Nat := 0
  kcode : W64 := 0
  argp : W64 := 0
  max : Claim := {}
  hold : Claim := {}
  /-- The tentative holding of a request under the full test (R76). -/
  pendHold : Claim := {}
  free : Nat := 0
  tentative : Bool := false
  bars : List Bar := List.replicate 16 {}
  sqsBase : Nat := 0
  sqsDepth : Nat := 0
  hent : W32 := 0
  harg : W64 := 0
  fent : W32 := 0
  farg : W64 := 0
  seqr : Seqr := {}
  rgq : List (Nat × Nat) := []
  parts : List (Nat × Group) := []
  stop : Option Stop := none
  preempt : Bool := false
  /-- A save is under way: groups stop at their next boundary (R299), or are at blocking points while work
  finishes (R85). -/
  saving : Bool := false
  deriving DecidableEq, Repr, Inhabited

/-! ### Cores -/

/-- A watch predicate (R340). -/
structure WPred where
  ctl : W64 := 0
  opa : W64 := 0
  opb : W64 := 0
  owned : Bool := false
  owner : Nat := 0
  matched : Bool := false
  count : Nat := 0
  deriving DecidableEq, Repr, Inhabited

/-- A request held by the grant unit (R76, R77). -/
structure GReq where
  slot : Nat
  crew : Nat
  req : Claim
  deriving DecidableEq, Repr, Inhabited

/-- What a core holds beside its crews and groups. `view` and `icache` map an address of a 64-byte
line, or a 32-byte block (keyed with its ASID), to its bytes. -/
structure Core where
  view : Tab (List Byte) := []
  icache : Tab (List Byte) := []
  watch : List WPred := List.replicate 16 {}
  sample : BitVec 6 := 0
  /-- Frames of sampled translations whose counters are still to rise (R297). -/
  samples : List Nat := []
  /-- Leaves by ASID, page and level: the entry, its level, its address (R296). -/
  tlb : Tab (W64 × Nat × Nat) := []
  leaf : List W64 := List.replicate 16 0
  pool : List SpawnRec := []
  ringW : W32 := 0
  ringR : W32 := 0
  /-- The records in the ring segment: index and crew; an index between that is not listed is void. -/
  ring : List (Nat × Nat) := []
  deferred : List GReq := []
  test : Option (GReq × Bool) := none
  /-- A holding has fallen while the full test ran (R77). -/
  fell : Bool := false
  /-- Sheaf halts on their way to crews of this core. -/
  sheafHalts : List Nat := []
  trapPool : Nat := 8
  deriving DecidableEq, Repr, Inhabited

/-! ### Copies, the matrix engine -/

/-- A range locked or scoreboarded (R217, R218): addresses, whether it is scratch, whether written. -/
structure Range where
  lo : Nat
  hi : Nat
  scratch : Bool
  dst : Bool
  deriving DecidableEq, Repr, Inhabited

/-- An issued copy: its kind (0 CPYO, 1 CPYT, 2 CPYB), the operands as they were at issue, its `n` beats
and those done. -/
structure Copy where
  core : Nat
  crew : Nat
  uid : Nat
  asid : Nat
  pc : BitVec 48
  fields : Fields
  kind : Nat
  ops : List W64
  chan : Nat
  ranges : List Range
  n : Nat
  did : List Nat := []
  bytes : Nat
  bar : Option Nat
  fut : Option Nat
  /-- Pages translated so far (R296). -/
  seen : List Nat := []
  /-- The page a stalled beat or resolution waits for. -/
  stall : Option (Nat × Nat) := none
  capf : Option (Nat × Nat) := none
  arrived : Bool := false
  deriving DecidableEq, Repr, Inhabited

/-- A posted pass or silo operation (R181, R182, R195 to R198), with what posting captured: kind 0 MMA,
1 MMAS, 2 MZERO, 3 MFILL, 4 MDRAIN, 5 MCPY.out, 6 MCPY.in; `ops` the M registers in D, A, B and C; `uids`
the matrix groups, `held` the registers held in each. -/
structure Op where
  core : Nat
  crew : Nat
  uid : Nat
  asid : Nat
  pc : BitVec 48
  kind : Nat
  fields : Fields
  ops : List W64
  mfmt : BitVec 16 := 0
  uids : List Nat := []
  held : List Nat := []
  /-- Scratch ranges it reads, and the one it writes. -/
  sread : List (Nat × Nat) := []
  sdst : Option (Nat × Nat) := none
  /-- A pass that holds its arrays; a silo operation that has begun. -/
  granted : Bool := false
  /-- A pass's next segment. -/
  pos : Nat := 0
  /-- The beats a silo operation has made, and the pages translated so far. -/
  did : List Nat := []
  seen : List Nat := []
  age : Nat := 0
  stall : Option (Nat × Nat) := none
  capf : Option (Nat × Nat) := none
  /-- Under strip-square, each column's elements and scale of the square under way (R139). -/
  bbuf : List (List Nat × Nat) := []
  /-- Units of A read and still needed, the scale and the bytes, by row × 4096 + unit: a unit is read whole, in a
  step of its own or with the first segment that needs it (R138, R219). Of a drain, the table records read ahead of
  their beats (R209), by the drain's number of beats + 16 × beat + word. -/
  got : Tab (Nat × List Byte) := []
  hang : Bool := false
  deriving DecidableEq, Repr, Inhabited

/-- A matrix engine (R183, R188, R189, R334, R336, R338). -/
structure Engine where
  failed : List Nat := []
  injected : List Nat := []
  dup : Bool := false
  unusable : Bool := false
  resetting : Bool := false
  resets : Nat := 0
  recov : Nat := 0
  inject : Nat := 0
  hang : Bool := false
  deriving DecidableEq, Repr, Inhabited

/-! ### Dispatch -/

/-- A launch (R63 to R67, R89): its record's eight words, and once validated its fields. Launches of
higher number reached the Thresher later. -/
structure Launch where
  words : List W64 := []
  task : TaskRec := {}
  /-- The record's address, as a TASKINV record gives it. -/
  addr : Nat := 0
  asid : Nat := 0
  priv : Nat := 0
  /-- The host queue it came from, 64 for a device queue. -/
  queue : Nat := 64
  valid : Bool := false
  placed : Nat := 0
  age : Nat := 0
  /-- When its age reached 128: a rising number, 0 before (R67). -/
  aged : Nat := 0
  crewsLeft : Nat := 0
  /-- The first code, once a crew of it has been killed (R326). -/
  code : Option Nat := none
  /-- Completion: 0 not due, 1 the write is due, 2 the future is due. -/
  phase : Nat := 0
  /-- A link error awaits the completion's next access over a link (R370). -/
  linkBad : Bool := false
  stall : Option (Nat × Nat) := none
  capf : Option (Nat × Nat) := none
  deriving DecidableEq, Repr, Inhabited

/-- The dispatcher of a die (R65, R67, R69): the launches that have arrived, the admission in flight
(launch, the rectangle's cores, whether every core passed), the rectangles tried in this decision (launch,
top-left core), the reservation (launch, cores), the crews that pre-emption requests name (core, uid);
and the die's page-table update (R307, R308). -/
structure Die where
  /-- The L2 TLB (R296). -/
  tlb : Tab (W64 × Nat × Nat) := []
  arrivals : List Nat := []
  admission : Option (Nat × List Nat × Bool) := none
  tried : List (Nat × Nat) := []
  reservation : Option (Nat × List Nat) := none
  preReqs : List (Nat × Nat) := []
  pteBusy : Bool := false
  pteAsid : Nat := 0
  pteVa : Nat := 0
  pteLvl : Nat := 0
  deriving DecidableEq, Repr, Inhabited

/-- A saved crew (R85, R86, R332): its groups by slot, its work, and the frames it lies in. `byPage`: the
save followed a page fault, and `pages` are the pages (ASID, number) whose replay it awaits. -/
structure Saved where
  crew : Crew
  /-- The core it left. -/
  core : Nat
  groups : List (Nat × Group)
  copies : List (Nat × Copy)
  ops : List (Nat × Op)
  spawns : List SpawnRec
  byPage : Bool := false
  pages : List (Nat × Nat) := []
  frames : List Nat := []
  /-- The first frames of the chains of its sheaf, as its header links them (R332). -/
  links : List Nat := []
  age : Nat := 0
  /-- As a launch's: when its age reached 128 (R67, R86). -/
  aged : Nat := 0
  deriving DecidableEq, Repr, Inhabited

/-- A sender and its receiver (R90): the sender's next number, its entries not yet sent, its
unacknowledged entries (number, launch), the number it backs off from with the count of negative
acknowledgements; the entries and replies on the wire; the number the receiver expects. -/
structure Link where
  next : Nat := 0
  waiting : List Nat := []
  sent : List (Nat × Nat) := []
  backoff : Option Nat := none
  nacks : Nat := 0
  transit : List (Nat × Nat) := []
  replies : List (Nat × Bool) := []
  expected : Nat := 0
  deriving DecidableEq, Repr, Inhabited

/-- A lane of the Thresher (R375 to R379): the packet in hand and its address, the open indirect buffers
(start, next packet, count; innermost first), whether its LAUNCH has gone to a dispatcher, the launches
that have not signalled completion, the index taken from a device queue. -/
structure Lane where
  pkt : Option (List Byte) := none
  addr : Nat := 0
  ib : List (Nat × Nat × Nat) := []
  passed : Bool := false
  outstanding : List Nat := []
  stall : Option (Nat × Nat) := none
  capf : Option (Nat × Nat) := none
  taken : Option Nat := none
  deriving DecidableEq, Repr, Inhabited

/-- A push of a join record's task (R221, R248). -/
structure Push where
  task : Nat
  asid : Nat
  taken : Option Nat := none
  stall : Option (Nat × Nat) := none
  /-- The page of a write that met CAPF and is not made yet (R304); so in the other parties. -/
  capf : Option (Nat × Nat) := none
  deriving DecidableEq, Repr, Inhabited

/-- A registered lattice region (R253 to R261): its descriptor's fields, the first page of each replica's
run in the lattice store, and by die × 2^40 + offset or line: its replicas' bytes, as differences from the
bottom value's bytes; the partners a line is owed to; the lines due in this phase; the replicas that lack
a join the die made on the line (R222's incorporated sets). -/
structure Region where
  asid : Nat := 0
  base : Nat := 0
  lines : Nat := 0
  typ : Nat := 0
  runs : List Nat := []
  cells : Tab Byte := []
  owed : Tab (BitVec 4) := []
  due : Tab Bool := []
  lacks : Tab (BitVec 4) := []
  /-- Lines of which a die's replica has incorporated a join marked released (R222). -/
  released : Tab Bool := []
  phase : Nat := 0
  deriving DecidableEq, Repr, Inhabited

/-! ### The device -/

/-- A held or pending snapshot (R32, R354). `blocks` are the latched registers by block offset. -/
structure Snap where
  held : Bool := false
  pending : BitVec 4 := 0
  src : BitVec 4 := 0
  missed : Nat := 0
  hb : W64 := 0
  who : W64 := 0
  pendWho : List W32 := []
  blocks : Tab W64 := []
  deriving DecidableEq, Repr, Inhabited

/-- The Granary and what it alone holds (R383 to R388). (Log 8: DESIGN CHOICE, unsafe.) (Log 10: DESIGN CHOICE,
unsafe.) -/
structure Granary where
  log : List (List Byte) := []
  logFirst : Nat := 0
  imageValid : Bool := true
  recovery : Bool := false
  staged : Option (List Byte × Nat) := none
  coolPeriod : Bool := false
  corrected : Nat := 0
  /-- Frames withdrawn from use (R337). -/
  withdrawn : List Nat := []
  unsupported : Nat := 0
  /-- By link: the 32 memory links, the 4 CXL ports, the 12 peer lanes' ports (R30). -/
  linkErrs : List Nat := List.replicate 48 0
  step : Nat := 0
  fwver : W64 := 0
  /-- The version of the image in flash. -/
  flashVer : W64 := 0
  memb : Nat := 2 ^ 43
  /-- The physical address at which a leaf names the control block (R292, R371; log 16: DESIGN CHOICE, unsafe). -/
  blockAt : Nat := 2 ^ 50
  cstep : Nat := 0
  /-- The result of the mailbox command in hand, while STAT.BUSY is 1 (R385); none where it is still under
  way. -/
  result : Nat := 0
  /-- The HSTEP in hand: target, lane, limit, counts so far (R351). -/
  hstep : Option (Nat × Nat × Nat × Nat × Nat) := none
  deriving DecidableEq, Repr, Inhabited

/-- MSI-X (R373). (Log 11: PRESUMED, unsafe.) -/
structure Msix where
  mask : W64 := 0xFFFFFFFFFFFFFFFF
  pending : W64 := 0
  sent : List Nat := []
  deriving DecidableEq, Repr, Inhabited

/-- The device's own state. `power` is off after a power loss; `hold` is the thermal stop (R384). -/
structure Dev where
  power : Bool := true
  hold : Bool := false
  up : Bool := false
  hb : W64 := 0
  snap : Snap := {}
  granary : Granary := {}
  msix : Msix := {}
  bar2Result : W64 := 0
  /-- The lanes still to be served in the Thresher's round (R377). -/
  round : List Nat := []
  /-- Who made each entry of a device launch queue (R291): the ASID, by partition × 2^64 + index. -/
  dlqAsid : Tab Nat := []
  deriving DecidableEq, Repr, Inhabited

/-- Who makes a write at home. -/
inductive Party where
  | group (uid : Nat)
  | copy (id : Nat)
  | op (id : Nat)
  | push (k : Nat)
  | launch (id : Nat)
  | lane (n : Nat)
  /-- A drain, or an agent whose write does not stall. -/
  | other
  deriving DecidableEq, Repr, Inhabited

/-- Whose instruction `exec` runs. -/
inductive Actor where
  | grp (g : Gid)
  | seq (core slot : Nat)
  | device
  deriving DecidableEq, Repr, Inhabited

/-- The state of the machine. -/
structure State where
  agenda : List Move
  actor : Actor
  refetch : Bool
  freeCtr : Nat
  nextId : Nat
  vreg : Tab W32
  preg : Tab W32
  fpx : Tab W32
  greg : Tab W64
  groups : Tab Group
  crews : Tab Crew
  cores : Tab Core
  scratch : Tab Byte
  silo : Tab W32
  poison : Tab Bool
  mem : Tab Byte
  hostMem : Tab Byte
  ctl : Tab W64
  heat : Tab Byte
  images : Tab Bool
  copies : Tab Copy
  ops : Tab Op
  engines : Tab Engine
  dies : Tab Die
  regions : Tab Region
  /-- Ranges of deregistered regions (R255): the ASID, the first address, the one after the last. -/
  goneRanges : List (Nat × Nat × Nat)
  launches : Tab Launch
  saved : Tab Saved
  links : Tab Link
  lanes : Tab Lane
  records : List (Nat × FRec)
  pushes : Tab Push
  softErr : Tab Bool
  dev : Dev
  deriving DecidableEq, Repr

/-- The machine after reset (R388 brings it up): every table empty, so every register and every byte
of memory reads as its unlisted value. -/
def State.reset : State where
  agenda := []
  actor := .grp { core := 0, slot := 0 }
  refetch := false
  freeCtr := 0
  nextId := 1
  vreg := []
  preg := []
  fpx := []
  greg := []
  groups := []
  crews := []
  cores := []
  scratch := []
  silo := []
  poison := []
  mem := []
  hostMem := []
  ctl := []
  heat := []
  images := []
  copies := []
  ops := []
  engines := []
  dies := []
  regions := []
  goneRanges := []
  launches := []
  saved := []
  links := []
  lanes := []
  records := []
  pushes := []
  softErr := []
  dev := {}

/-- Memory's canonical form: addresses rise strictly, and no listed byte is 0, which is what an
unlisted byte reads as (log 7: DESIGN CHOICE, unsafe). -/
abbrev State.memWf (s : State) : Prop := twf 0 s.mem = true ∧ twf 0 s.hostMem = true

end Sys2Proof.Machine
end

