-- ==== Sys2Proof/Machine/Ops.lean ====
section
/-! DEFINITION. The named operations of the machine: registers, the control block's registers, fault
records, crew-fatal stops, lane-level traps and their return, watch predicates and halts, and the one
way in which a group instruction is issued. -/

namespace Sys2Proof.Machine

/-! ### Places -/

/-- The key of a group's place. -/
def gidKey (g : Gid) : Nat := (g.core * 32 + g.slot) * 2 + (if g.hnd then 1 else 0)
/-- The place of a group's key. -/
def keyGid (k : Nat) : Gid := { core := k / 64, slot := k / 2 % 32, hnd := k % 2 == 1 }
def crewKey (core slot : Nat) : Nat := core * 16 + slot

/-- R7: core = die × 64 + row × 8 + column. -/
def dieOf (core : Nat) : Nat := core / 64
def rowOf (core : Nat) : Nat := core / 8 % 8
def colOf (core : Nat) : Nat := core % 8
/-- The cluster's top-left core (R7). -/
def clusterOf (core : Nat) : Nat := dieOf core * 64 + rowOf core / 2 * 16 + colOf core / 2 * 2
/-- The cluster's index, 0 to 63 (R7). -/
def clusterIx (core : Nat) : Nat := dieOf core * 16 + rowOf core / 2 * 4 + colOf core / 2

def State.group? (s : State) (g : Gid) : Option Group := tfind s.groups (gidKey g)
def State.putGroup (s : State) (g : Gid) (r : Group) : State :=
  { s with groups := tput s.groups (gidKey g) r }
def State.crew? (s : State) (core slot : Nat) : Option Crew := tfind s.crews (crewKey core slot)
def State.putCrew (s : State) (core slot : Nat) (c : Crew) : State :=
  { s with crews := tput s.crews (crewKey core slot) c }
def State.modCrew (s : State) (core slot : Nat) (f : Crew → Crew) : State :=
  { s with crews := tmod s.crews (crewKey core slot) f }
def State.modGroup (s : State) (g : Gid) (f : Group → Group) : State :=
  { s with groups := tmod s.groups (gidKey g) f }
/-- A core's own state; a core that nothing has touched is as at reset. -/
def State.core (s : State) (n : Nat) : Core := (tfind s.cores n).getD {}
def State.putCore (s : State) (n : Nat) (c : Core) : State := { s with cores := tput s.cores n c }
def State.modCore (s : State) (n : Nat) (f : Core → Core) : State := s.putCore n (f (s.core n))

/-- The crew of a group at `g`, by default an empty one. -/
def State.crewOf (s : State) (g : Gid) (r : Group) : Crew :=
  (s.crew? g.core r.crew).getD { uid := 0 }

/-- The groups of a crew, handler groups included, with their places, in key order. -/
def State.crewGroups (s : State) (core slot : Nat) : List (Gid × Group) :=
  s.groups.filterMap fun e =>
    let g := keyGid e.1
    if g.core = core && e.2.crew = slot then some (g, e.2) else none

/-- A fresh identifier. Log 4. -/
def State.fresh (s : State) : Nat × State := (s.nextId, { s with nextId := s.nextId + 1 })
/-- A fresh free value. Log 4. -/
def State.free (s : State) : BitVec 64 × State :=
  (Config.freeValue s.freeCtr, { s with freeCtr := s.freeCtr + 1 })
/-- One of a list's entries, as a free value has it: which of the units left of a wider access is read next (R209; log 4:
DESIGN CHOICE, safe). -/
def State.pick (s : State) (left : List Nat) : Nat × State :=
  (left.getD ((Config.freeValue s.freeCtr).toNat % left.length) 0, s.free.2)

/-! ### Registers (R52, R166) -/

/-- Whose row lane `l` of the group stands in (R104, R166); 0 where the group holds no thread. -/
def Group.home (r : Group) (l : Nat) : Nat :=
  match r.homes with
  | [] => r.uid
  | hs => (hs.getD l (0, 0)).1

def vkey (uid n l : Nat) : Nat := (uid * 256 + n) * 32 + l
def pkey (uid n : Nat) : Nat := uid * 128 + n
def gkey (uid n : Nat) : Nat := uid * 64 + n

/-- Vn of lane `l`. -/
def State.v (s : State) (r : Group) (n l : Nat) : W32 := tget 0 s.vreg (vkey (r.home l) n l)
/-- Writes Vn of lane `l`; a lane without a thread has no row to write. (Log 66: DEDUCED, unsafe.) -/
def State.setV (s : State) (r : Group) (n l : Nat) (x : W32) : State :=
  if r.home l = 0 then s else { s with vreg := tset 0 s.vreg (vkey (r.home l) n l) x }
/-- Pn of lane `l`. -/
def State.p (s : State) (r : Group) (n l : Nat) : Bool :=
  (tget 0 s.preg (pkey (r.home l) n)).getLsbD l
/-- Bit `l` of `m` set to `b`. -/
def setBit {w : Nat} (m : BitVec w) (l : Nat) (b : Bool) : BitVec w :=
  if b then m ||| BitVec.ofNat w (2 ^ l) else m &&& ~~~ BitVec.ofNat w (2 ^ l)
def State.setP (s : State) (r : Group) (n l : Nat) (b : Bool) : State :=
  if r.home l = 0 then s else
    { s with preg := tset 0 s.preg (pkey (r.home l) n) (setBit (tget 0 s.preg (pkey (r.home l) n)) l b) }
def State.fpxOf (s : State) (r : Group) (l : Nat) : W32 := tget 0 s.fpx (r.home l * 32 + l)
def State.setFpx (s : State) (r : Group) (l : Nat) (x : W32) : State :=
  if r.home l = 0 then s else { s with fpx := tset 0 s.fpx (r.home l * 32 + l) x }
/-- Gn. -/
def State.gr (s : State) (r : Group) (n : Nat) : W64 := tget 0 s.greg (gkey r.uid n)
def State.setG (s : State) (r : Group) (n : Nat) (x : W64) : State :=
  { s with greg := tset 0 s.greg (gkey r.uid n) x }

/-- The lanes, in order. -/
def allLanes : List Nat := List.range 32

/-- The guard of lane `l` (R41). With U=1 it is the group's. -/
def State.guard (s : State) (r : Group) (f : Fields) (l : Nat) : Bool :=
  match f.guard with
  | .always => true
  | .on neg idx =>
    (if f.u then r.q.getLsbD (idx.toNat % 16) else s.p r idx.toNat l) != neg
/-- Active (R40): EXEC and the guard. -/
def State.active (s : State) (r : Group) (f : Fields) (l : Nat) : Bool :=
  r.exec.getLsbD l && s.guard r f l
def State.activeLanes (s : State) (r : Group) (f : Fields) : List Nat :=
  allLanes.filter (s.active r f)
/-- Active lanes that are not helper lanes (R112). -/
def State.contrib (s : State) (r : Group) (f : Fields) : List Nat :=
  (s.activeLanes r f).filter fun l => !r.hlp.getLsbD l

/-- Writes V registers of the lanes given: (register, value) pairs for each. -/
def State.writeV (s : State) (r : Group) (ls : List Nat) (ws : Nat → List (Nat × W32)) : State :=
  ls.foldl (fun t l => (ws l).foldl (fun t w => t.setV r w.1 l w.2) t) s
def State.writeP (s : State) (r : Group) (ls : List Nat) (n : Nat) (b : Nat → Bool) : State :=
  ls.foldl (fun t l => t.setP r n l (b l)) s
/-- The registers that follow one another from `d`, in pieces of 32 bits. -/
def pieces (d : Nat) (xs : List W32) : List (Nat × W32) := (List.range xs.length).map fun i => (d + i, xs.getD i 0)

/-- A mask of the lanes listed. -/
def laneMask (ls : List Nat) : W32 := ls.foldl (fun m l => m ||| BitVec.ofNat 32 (2 ^ l)) 0
def maskLanes (m : W32) : List Nat := allLanes.filter m.getLsbD

/-! ### The program counter (R36) -/

/-- The next sequential PC. -/
def nextPc (pc : BitVec 48) (len : Len) : BitVec 48 :=
  let n := pc + BitVec.ofNat 48 len.bytes
  if n.toNat % 32 = 28 then n + 4 else n

def Group.next (r : Group) (f : Fields) : Group := { r with pc := nextPc r.pc f.len }
/-- A jump to an address given by 64 bits: bits 63:48 must be zero (R96), else the fetch there is ADDRV. (Log 9:
DESIGN CHOICE, safe.) -/
def Group.goto (r : Group) (t : W64) : Group :=
  { r with pc := t.setWidth 48, pcBad := t.toNat / 2 ^ 48 != 0 }
/-- A jump to bits 47:0 of a register (R97). -/
def Group.jump (r : Group) (t : W64) : Group := { r with pc := t.setWidth 48, pcBad := false }
/-- A jump by a signed offset. -/
def Group.rel (r : Group) (off : W32) : Group := { r with pc := r.pc + off.signExtend 48 }

/-! ### Control-block registers (R371) -/

/-- What a control-block word reads as when nothing has written it: QBACKOFF (R91) and FWAIT of PARTD
word 2 (R290) have reset values other than zero. -/
def ctlReset (off : Nat) : W64 :=
  if off = 0x4910 then 0x00040040
  else if (0x4900 ≤ off && off < 0x4910) || (0x4A00 ≤ off && off < 0x4E00) then 0x0004004000040040
  else if 0x2000 ≤ off && off < 0x2800 && off % 32 = 16 then 0x10000000
  else 0

def State.ctlw (s : State) (off : Nat) : W64 := (tfind s.ctl off).getD (ctlReset off)
def State.setCtl (s : State) (off : Nat) (w : W64) : State := { s with ctl := tput s.ctl off w }

def bitsOf {w : Nat} (x : BitVec w) (hi lo : Nat) : Nat := x.toNat / 2 ^ lo % 2 ^ (hi + 1 - lo)
def bitOf {w : Nat} (x : BitVec w) (i : Nat) : Bool := x.getLsbD i

/-- ASIDT (R290). -/
def State.asidt (s : State) (asid : Nat) : W64 := s.ctlw (0x10000 + 8 * asid)
def State.asidLive (s : State) (asid : Nat) : Bool := bitOf (s.asidt asid) 63
def State.partOf (s : State) (asid : Nat) : Nat := bitsOf (s.asidt asid) 61 56
/-- PARTD word `k` of partition `p` (R290). -/
def State.partd (s : State) (p k : Nat) : W64 := s.ctlw (0x2000 + 32 * p + 8 * k)
def State.partOn (s : State) (p : Nat) : Bool := bitOf (s.partd p 1) 63
/-- Whether the partition owns the core's cluster. -/
def State.owns (s : State) (p core : Nat) : Bool := s.partOn p && bitOf (s.partd p 0) (clusterIx core)
/-- Partition register at +`off` (R371). -/
def State.partReg (s : State) (p off : Nat) : W64 := s.ctlw (0x2800 + 64 * p + off)

/-! ### Codes (R315) -/

namespace Code
def illop := 0x1
def misplace := 0x2
def illreg := 0x3
def addrv := 0x4
def nonmono := 0x5
def claimx := 0x6
def divdepth := 0x7
def regconf := 0x8
def repackx := 0x9
def fmtx := 0xA
def spillfmt := 0xB
def barx := 0xC
def lattype := 0xD
def mparm := 0xE
def compbad := 0xF
def engreset := 0x10
def hfault := 0x11
def tretx := 0x12
def memerr := 0x13
def privop := 0x14
def killed := 0x15
def trapsw := 0x100
def watch := 0x101
def fptrap := 0x102
def rangelk := 0x103
def dblres := 0x104
def bkpt := 0x200
def whalt := 0x201
def pagef := 0x300
def capf := 0x301
def taskinv := 0x400
def latdesc := 0x401
def iberr := 0x402
end Code

/-! ### Fault records (R305, R316) -/

/-- The WHO word of a group's record (R305). -/
def whoOf (g : Gid) (crew lane : Nat) : W32 :=
  BitVec.ofNat 32 (g.core + crew * 2 ^ 8 + g.slot * 2 ^ 16 + lane * 2 ^ 24)

/-- Raises a record: it waits its turn in the partition's ring (R305). Its identifier is fresh; a
replayable record's tag is a free nonzero value. -/
def State.raise (s : State) (part : Nat) (r : FRec) : State :=
  let (id, s) := s.fresh
  let (t, s) := s.free
  let tag := if 0x300 ≤ r.code && r.code < 0x400 then t.toNat % 65535 + 1 else 0
  { s with records := s.records ++ [(part, { r with id := id, tag := tag })] }

/-! ### Crew-fatal stops (R324) -/

/-- Whether the group issues nothing more of its own accord. -/
def Group.stopped (r : Group) : Bool := r.halt.cause != 0

/-- Whether the predicates before an access have been evaluated for the instruction that waits: not those of a join,
which are evaluated with its own step (R222, R341), nor CPYT's, once its record is read (R239). -/
def Wait.evaluated : Wait → Bool
  | .none | .join _ _ | .units _ => false
  | _ => true

/-- Whether an instruction of the group that is under way goes on of itself, lane by lane. -/
def Wait.midway : Wait → Bool
  | .atom _ _ => true
  | .futs _ _ => true
  | .join _ rel => !rel
  | .units _ => true
  | _ => false

/-- A halt broadcast reaches a group (R324, R347): a waiting or parked group stops at once with skid 0,
another may issue at most four more instructions; one between two lanes' steps first completes its
instruction. A group already halted takes over a fatal cause, and is stepped no further; one under an
earlier broadcast counts its skid anew, within the four of both. -/
def Group.broadcast (r : Group) (cause : Nat) : Group :=
  if r.stopped then
    if cause ≠ 7 then r
    else if r.wait.midway then { r with halt := {}, stepper := none, bcast := some (4, 7), before := 4 }
    else { r with halt := { r.halt with cause := 7 }, skid := 0, stepper := none }
  else if !r.wait.midway && (r.wait != .none || !r.traps.isEmpty) then
    { r with halt := { cause := cause, waiting := r.wait != .none }, skid := 0, bcast := none }
  else match r.bcast with
    | some (n, c) => if cause = 7 && c != 7 then { r with bcast := some (n, 7), before := n } else r
    | none => { r with bcast := some (0, cause), before := 0 }

/-- The instructions that a group has issued under the broadcast that stops it (R324, R347). -/
def Group.skidNow (r : Group) : Nat :=
  match r.bcast with
  | some (n, _) => n - r.before
  | none => 0

/-- One more instruction issued under a broadcast. -/
def Group.issuedOne (r : Group) : Group := { r with bcast := r.bcast.map fun b => (b.1 + 1, b.2) }

/-- The group stops under the broadcast that reached it, its skid recorded (R347, R349). -/
def Group.joinHalt (r : Group) : Group :=
  match r.bcast with
  | some (_, c) => { r with halt := { cause := c, waiting := r.wait != .none }, skid := r.skidNow, bcast := none }
  | none => r

/-- Broadcasts a halt to a crew, except to the group at `but` (R324, R347); its sequencer stops. -/
def State.broadcast (s : State) (core slot : Nat) (but : Option Gid) (cause : Nat) : State :=
  -- a group that steps another and stops for good steps it no further (R351)
  let stops := fun (k : Nat) => cause = 7 && (keyGid k).core = core && (s.group? (keyGid k)).any fun x => x.crew = slot
  let hear : Nat × Group → Nat × Group := fun e =>
    let x := match e.2.stepper with
      | some (k + 1) => if stops k then { e.2 with stepper := none } else e.2
      | _ => e.2
    if (keyGid e.1).core = core && e.2.crew = slot && some (keyGid e.1) != but then
      (e.1, x.broadcast cause) else (e.1, x)
  let s := { s with groups := s.groups.map hear }
  s.modCrew core slot fun c => { c with
    seqr := { c.seqr with halted := true },
    parts := c.parts.map fun (e : Nat × Group) => (e.1, e.2.broadcast cause) }

/-- The range locks of a crew at this moment (R325, R329). -/
def State.crewRanges (s : State) (uid : Nat) : List (Nat × Nat × Nat × Nat) :=
  s.copies.flatMap fun e =>
    if e.2.uid = uid then (e.2.ranges.filter fun x => !x.scratch).map fun x => (x.lo, x.hi, e.2.pc.toNat, e.2.chan + (if x.dst then 256 else 0))
    else []

/-- A crew's spawn records and deferred requests leave its core; the segment's read index passes the places
that are void now (R82, R325). -/
def Core.strip (x : Core) (uid slot : Nat) : Core :=
  let ring := x.ring.filter fun r => r.2 != uid
  { x with
    pool := x.pool.filter fun r => r.crewUid != uid
    ring := ring
    ringR := match ring with | [] => x.ringW | e :: _ => BitVec.ofNat 32 e.1
    deferred := x.deferred.filter fun q => q.crew != slot }

/-- What the halt of a crew gives up at once (R325): copies and drains with a stalled beat, entries not granted, spawn
records, deferred requests. A copy whose beats have all landed has only its arrival and its resolution to make. -/
def State.cutWork (s : State) (core slot uid : Nat) : State :=
  ({ s with
    copies := s.copies.filter fun e => !(e.2.uid == uid && e.2.stall.isSome && e.2.did.length != e.2.n)
    ops := s.ops.filter fun e => !(e.2.uid == uid && (!e.2.granted || e.2.stall.isSome)) } : State).modCore core
      fun x => x.strip uid slot

/-- A crew stops with a first fault that no group of its own raised at this moment: an engine, copy or
sequencer fault, or a kill (R324, R326, R334). A crew already stopping keeps its first fault. -/
def State.stopCrew (s : State) (core slot : Nat) (but : Option Gid) (fr : FRec) : State :=
  match s.crew? core slot with
  | none => s
  | some c =>
    let fr := { fr with asid := c.asid }
    match c.stop with
    | some st =>
      s.modCrew core slot fun c => { c with stop := some { st with others := st.others ++ [fr] } }
    | none =>
      -- the group slots it holds: those of its groups, and of the participants of a REPACK (R105)
      let slots := ((s.crewGroups core slot).filter fun e => !e.1.hnd).map (fun e => e.1.slot) ++ c.parts.map (·.1)
      let s := s.broadcast core slot but 7
      (s.modCrew core slot fun c => { c with
        stop := some { frec := fr, core := core, slot := slot, ranges := s.crewRanges c.uid, slots := slots } }).cutWork
          core slot c.uid

/-- Taking a crew-fatal fault (R324): the group stops precisely, its PC at the instruction, which has no
effect; the halt is broadcast. An instruction that acts once for its group gives WHO's lane 31 and LANES 0 (log 131:
DESIGN CHOICE, unsafe). A fault or trap of a handler group is HFAULT, with the code inside (R322).
A fault in a fatal handler ends the crew (R326): the kill follows (FATAL_HANDLER_START). -/
def State.crewFatal (s : State) (g : Gid) (r : Group) (fr : FRec) : State :=
  let inH := match r.kind with | .handler _ => true | _ => false
  let fr := { fr with
    pc := r.pc, who := whoOf g r.crew (bitsOf fr.who 28 24),
    b2c := if inH then BitVec.ofNat 32 (fr.code * 65536) else fr.b2c,
    code := if inH then Code.hfault else fr.code }
  match r.kind with
  | .fatal _ =>
    let s := s.putGroup g { r with halt := { r.halt with cause := 7 }, exec := 0, live := 0, bcast := none }
    s.modCrew g.core r.crew fun c => { c with stop := c.stop.map fun st => { st with ended := true } }
  | _ =>
    let s := s.putGroup g { r with halt := { cause := 7 }, skid := r.skidNow, bcast := none, stepper := none }
    s.stopCrew g.core r.crew (some g) fr

/-! ### Watch predicates (R340 to R343) -/

/-- One predicate's matches on an instruction. -/
structure WMatch where
  n : Nat
  act : Nat
  lanes : List Nat
  /-- x, for an address source. -/
  addr : Nat → W64

/-- The comparators of R342; `w` is the width in which a signed reading takes x and OPA. -/
def wcmp (c : Nat) (w : Nat) (x a b : W64) : Bool :=
  let sx : W64 → Int := fun y => (y.setWidth w).toInt
  match c with
  | 0 => x == a
  | 1 => x != a
  | 2 => x.toNat < a.toNat
  | 3 => a.toNat ≤ x.toNat
  | 4 => sx x < a.toInt
  | 5 => a.toInt ≤ sx x
  | 6 => a.toNat ≤ x.toNat && x.toNat ≤ b.toNat
  | 7 => x.toNat < a.toNat || b.toNat < x.toNat
  | 8 => x &&& b == a
  | 9 => x &&& a != 0
  | _ => false

/-- What a source offers: the lanes considered, x of each, the width of x. -/
structure WSrc where
  src : Nat
  lanes : List Nat
  x : Nat → W64
  width : Nat := 64

/-- The home %grp of a lane's thread: filters use it (R340). (Log 38: DEDUCED, unsafe.) -/
def Group.homeGrp (r : Group) (l : Nat) : Nat :=
  match r.homes with
  | [] => r.grp
  | hs => (hs.getD l (0, r.grp)).2

/-- The predicates of the core that match an instruction of the group, given what each source of one
evaluation point offers (R340 to R343). -/
def State.watchMatches (s : State) (g : Gid) (r : Group) (srcs : List WSrc) : List WMatch :=
  let asid := (s.crewOf g r).asid
  let ws := (s.core g.core).watch
  let own : Nat → List Nat × (Nat → W64) := fun n =>
    let w := ws.getD n {}
    if bitOf w.ctl 63 && w.owned && w.owner = asid then
      match srcs.find? fun x => x.src = bitsOf w.ctl 58 56 with
      | none => ([], fun _ => 0)
      | some x =>
        let ls := x.lanes.filter fun l =>
          !r.hlp.getLsbD l && bitOf w.ctl l && bitOf w.ctl (32 + r.homeGrp l % 16) &&
            wcmp (bitsOf w.ctl 55 52) x.width (x.x l) w.opa w.opb
        (ls, if x.src = 0 || x.src = 1 || x.src = 6 then x.x else fun _ => 0)
    else ([], fun _ => 0)
  -- a chained predicate matches only where its predecessor does
  let rec go : Nat → List Bool → List Bool
    | 0, acc => acc
    | k + 1, acc =>
      let n := 15 - k
      let w := ws.getD n {}
      let m := !(own n).1.isEmpty && (!bitOf w.ctl 59 || acc.getLastD false)
      go k (acc ++ [m])
  let hit := go 16 []
  (List.range 16).filterMap fun n =>
    if hit.getD n false then
      some { n := n, act := bitsOf (ws.getD n {}).ctl 62 60, lanes := (own n).1, addr := (own n).2 }
    else none

/-- A predicate after an instruction (R343). -/
def WPred.counted (w : WPred) (hit : Bool) : WPred :=
  if hit then { w with matched := true, count := min (w.count + 1) 0xFFFFFFFF } else w

/-- Counts the matches (R343). -/
def State.countMatches (s : State) (core : Nat) (ms : List WMatch) : State :=
  if ms.isEmpty then s else
  let upd := fun (c : Core) => (List.range 16).map fun n =>
    (c.watch.getD n {}).counted (ms.any fun m => m.n = n)
  s.modCore core fun c => { c with watch := upd c }

/-- The deciding match of a halting action, strongest first: sheaf 5, crew 4, group 3, lane 2 (R343). -/
def haltMatch (ms : List WMatch) : Option WMatch :=
  match ms.find? fun m => m.act = 5 with
  | some m => some m
  | none => match ms.find? fun m => m.act = 4 with
    | some m => some m
    | none => match ms.find? fun m => m.act = 3 with
      | some m => some m
      | none => ms.find? fun m => m.act = 2

/-- The lanes a trap action takes, with the predicate that decides: the lowest-numbered one (R343). -/
def trapMatch (ms : List WMatch) : List (Nat × WMatch) :=
  allLanes.filterMap fun l =>
    ((List.range 16).findSome? fun n => ms.find? fun m => m.n = n && m.act = 1 && m.lanes.contains l).map fun m => (l, m)

/-! ### Snapshot trigger (R32) -/

/-- Raises the common trigger: missed while a snapshot is held, else pending until it latches. One raised
in a later clock than a pending one joins it (log 80: DESIGN CHOICE, unsafe). `src` is the source bit of
SNAPCTL; `who` the raising group's WHO word. -/
def State.trigger (s : State) (src : Nat) (who : List W32) : State :=
  let sn := s.dev.snap
  let sn := if sn.held then { sn with missed := min (sn.missed + 1) 65535 }
    else { sn with pending := setBit sn.pending src true, pendWho := sn.pendWho ++ who }
  { s with dev := { s.dev with snap := sn } }

/-! ### Halts (R346, R347) -/

/-- The crews of a sheaf, by their places; a crew under admission is of none yet. -/
def State.sheafCrews (s : State) (launch sheaf : Nat) : List (Nat × Nat) :=
  s.crews.filterMap fun e =>
    if e.2.launch = launch && e.2.sheaf = sheaf && !e.2.tentative then some (e.1 / 16, e.1 % 16) else none

/-- Broadcasts to the other crews of the sheaf: the halt is on its way to each (R347). -/
def State.sheafBroadcast (s : State) (core slot : Nat) : State :=
  match s.crew? core slot with
  | none => s
  | some c =>
    (s.sheafCrews c.launch c.sheaf).foldl (fun s k =>
      if k = (core, slot) then s
      else s.modCore k.1 fun x => { x with sheafHalts := x.sheafHalts ++ [k.2] }) s

/-- What a halting match of the group `r` makes beside that group's halt: the WHALT record, and the
broadcasts its action asks (R346, R347). -/
def State.haltAround (s : State) (g : Gid) (r : Group) (pc : BitVec 48) (m : WMatch) : State :=
  let foc := m.lanes.headD 0
  let c := s.crewOf g r
  let s := s.raise (s.partOf c.asid)
    { code := Code.whalt, asid := c.asid, va := m.addr foc, pc := pc, who := whoOf g r.crew foc,
      lanes := laneMask m.lanes }
  let s := if m.act ≥ 4 then s.broadcast g.core r.crew (some g) 3 else s
  if m.act = 5 then s.sheafBroadcast g.core r.crew else s

/-- Halts the group `r` (already at the PC where it stops) for a watch match (R346). Within the skid of a
broadcast the halt asked for is the one under way: the group stops under it, without a record of its own
(R347, R349, log 81: DEDUCED, unsafe). -/
def State.watchHalt (s : State) (g : Gid) (r : Group) (pc : BitVec 48) (m : WMatch) : State :=
  if r.bcast.isSome then s.putGroup g r.joinHalt
  else
    let h : HaltInfo :=
      { cause := if m.act = 2 then 1 else 2, hlanes := laneMask m.lanes,
        focus := if m.act = 2 then m.lanes.headD 0 else 0, wpn := m.n, waiting := r.wait != .none }
    (s.putGroup g { r with halt := h, skid := 0 }).haltAround g r pc m

/-! ### Lane-level traps (R317, R318) -/

/-- A lane-level handler group without a live thread leaves once its outbox has drained (R100), and its
granule returns to the trap pool. (Log 68: DEDUCED, safe.) -/
def State.endHandler (s : State) (g : Gid) : State :=
  match s.group? g with
  | none => s
  | some r =>
    if r.live = 0 && r.outbox.isEmpty then
      ({ s with groups := tdel s.groups (gidKey g) } : State).modCore g.core fun c => { c with trapPool := c.trapPool + 1 }
    else s

/-- The return of threads from a handler group (R321): each lane leaves the handler group, and its
thread's trap is struck from its parked group; the handler group may then end. -/
def State.unpark (s : State) (g : Gid) (r : Group) (ls : List Nat) : State :=
  let s := ls.foldl (fun s l =>
    s.modGroup { core := g.core, slot := r.orig.getD l 32 } fun o =>
      { o with traps := o.traps.filter fun t => t.lane != l }) s
  let m := laneMask ls
  (s.putGroup g { r with live := r.live &&& ~~~ m, exec := r.exec &&& ~~~ m }).endHandler g

/-! ### Matrix engines, and the registers a posted pass holds (R182, R205) -/

def State.engine (s : State) (n : Nat) : Engine := (tfind s.engines n).getD {}
def State.putEngine (s : State) (n : Nat) (e : Engine) : State := { s with engines := tput s.engines n e }

/-- Whether a posted pass holds register `n` or a higher one of a group. -/
def State.regsHeld (s : State) (uid n : Nat) : Bool :=
  s.ops.any fun e => e.2.uids.contains uid && e.2.held.any fun x => decide (n ≤ x)

/-- Whether a write of the V registers listed, by the threads of a group, meets one that a posted pass holds. -/
def State.writesHeld (s : State) (r : Group) (ns : List Nat) : Bool :=
  s.ops.any fun e => (ns.any e.2.held.contains) && (maskLanes r.live).any fun l => e.2.uids.contains (r.home l)

/-! ### Issuing a group instruction -/

/-- What the effect of a group instruction comes to, once the checks before it have passed. -/
inductive Res where
  /-- It completes: the new state, with the group's record (its PC moved on) apart. `pre`: the
  predicates matched before an access, where the effect evaluated them; `post`: what the
  after-completion sources offer; `traps`: lanes that trap after it. -/
  | ok (s : State) (r : Group) (pre : Option (List WMatch)) (post : List WSrc) (traps : List TrapLane)
  /-- It enters or stays in a wait: the group's record holds it. Nothing completes. `pre` and `traps`
  as above. -/
  | wait (s : State) (r : Group) (pre : Option (List WMatch)) (traps : List TrapLane)
  /-- It has no effect, and its crew stops (R324). -/
  | fatal (fr : FRec)
  /-- A replayable fault (R299): nothing is done; the group waits for the page. -/
  | page (fr : FRec)
  /-- A before-access halt. -/
  | halt (ms : List WMatch)
  /-- `fatal`, `page` and `halt` where the checks have translated pages: `s` holds what that leaves (R296, R297). -/
  | fatalAt (s : State) (fr : FRec)
  | pageAt (s : State) (fr : FRec)
  | haltAt (s : State) (ms : List WMatch)
  /-- The step has set every record itself. -/
  | gone (s : State)
  /-- It completes, and the group's record is gone or the group has ended; `s` holds all of it. -/
  | ended (s : State)
  /-- WPSET or WPCLR completes: `w` becomes predicate `n`, which has none of this instruction's matches
  in its count (R345). -/
  | predicate (s : State) (r : Group) (n : Nat) (w : WPred)
  /-- Its step's condition does not hold yet: the instruction has not issued (R212, R213). -/
  | retry

/-- What ends an instruction before its access, in the state that its checks leave. -/
def Res.at_ (s : State) : Res → Res
  | .fatal fr => .fatalAt s fr
  | .page fr => .pageAt s fr
  | .halt ms => .haltAt s ms
  | x => x
def Res.done (s : State) (r : Group) : Res := .ok s r none [] []
def Res.hold (s : State) (r : Group) : Res := .wait s r none []

/-- A lane's trap frame from the instruction's operands as it read them (R318, V8 to V10). -/
def State.trapFrame (s : State) (r : Group) (f : Fields) (sh : Shape) (l code : Nat) (addr : W64)
    (detail : W32) : TrapLane :=
  let val : Slot → Bool → BitVec 8 → W32 := fun sl k x =>
    match sl with
    | .v _ | .vr _ => s.v r x.toNat l
    | .vg _ => if k then (s.gr r x.toNat).setWidth 32 else s.v r x.toNat l
    | .gk | .gkn _ | .g _ => (s.gr r x.toNat).setWidth 32
    | .p => if s.p r x.toNat l then 1 else 0
    | .q => if r.q.getLsbD x.toNat then 1 else 0
    | _ => 0
  { lane := l, code := code, pc := r.pc, addr := addr, detail := detail,
    a := val sh.a f.ka f.a, b := val sh.b f.kb f.b, c := val sh.c f.kc f.c }

/-- An issue slot is counted (R355). -/
def State.countIssue (s : State) (g : Gid) (useful : Bool) : State :=
  s.modCore g.core fun c => { c with leaf := c.leaf.modify (if useful then 0 else 1) (· + 1) }

/-- What source 7 offers: the PC in every lane of EXEC AND NOT HLP (R341). -/
def pcSrc (r : Group) : WSrc :=
  { src := 7, lanes := (allLanes.filter r.exec.getLsbD), x := fun _ => r.pc.setWidth 64 }

/-- Sources 4 and 5 of any instruction but those that only source 7 watches: the flags it raises, none unless its
effect offers some. The lanes are the Active ones, or those of EXEC in a group-wide form (R341, log 18: DEDUCED,
unsafe). -/
def State.flagSrcs (s : State) (r : Group) (f : Fields) (sh : Shape) (post : List WSrc) : List WSrc :=
  if sh.pcOnly || post.any fun x => x.src = 4 then post else
    let ls := if f.u then maskLanes r.exec else s.activeLanes r f
    post ++ [{ src := 4, lanes := ls, x := fun _ => 0 }, { src := 5, lanes := ls, x := fun _ => 0 }]

/-- Counts matches, and raises the trigger for a snapshot action among them (R343). -/
def State.matched (s : State) (g : Gid) (r : Group) (ms : List WMatch) : State :=
  let s := s.countMatches g.core ms
  if ms.any (fun m => m.act = 6) then s.trigger 0 [whoOf g r.crew 0] else s

/-- The trap frames of the lanes that take WATCH for these matches. -/
def State.watchTraps (s : State) (r : Group) (f : Fields) (sh : Shape) (ms : List WMatch) : List TrapLane :=
  (trapMatch ms).map fun t => s.trapFrame r f sh t.1 Code.watch (t.2.addr t.1) (BitVec.ofNat 32 t.2.n)

/-- WATCH is taken in place of another trap in a lane that would take both (R343). -/
def joinTraps (wts ts : List TrapLane) : List TrapLane :=
  wts ++ ts.filter fun t => !(wts.any fun w => w.lane = t.lane)

/-- Whether a fault or trap here is HFAULT, or ends the fatal handler (R322, R326). -/
def Group.inHandler (r : Group) : Bool :=
  match r.kind with
  | .handler _ | .fatal _ => true
  | _ => false

/-- Lanes that trap in a handler group: its crew stops, the instruction without effect. -/
def State.handlerTrap (s : State) (g : Gid) (r : Group) (ts : List TrapLane) : State :=
  let t := ts.headD { lane := 0, code := 0, pc := 0 }
  s.crewFatal g r { code := t.code, va := t.addr, lanes := laneMask (ts.map (·.lane)), who := whoOf g r.crew t.lane }

/-- The record a group's instruction leaves, where the instruction itself brought a halt broadcast to
its group: the broadcast stands. `r` is as the instruction issued. -/
def State.keepHalt (s' : State) (g : Gid) (r r' : Group) : Group :=
  match s'.group? g with
  | none => r'
  | some x =>
    if x.halt = r.halt && x.bcast = r.bcast then r'
    else { r' with halt := x.halt, bcast := x.bcast, skid := x.skid }

/-- Whether a halt that a handler group asks for is a fault of it: a halt is of a class of its own, and a
fault or trap of any class is HFAULT there (R314, R322). Under a broadcast it is the halt under way. -/
def Group.haltFaults (r : Group) : Bool := r.inHandler && r.bcast.isNone

/-- A halting match of a handler group: its crew stops, the instruction without effect (R322). -/
def State.haltFault (s : State) (g : Gid) (r : Group) (m : WMatch) : State :=
  s.crewFatal g r { code := Code.whalt, va := m.addr (m.lanes.headD 0), lanes := laneMask m.lanes,
                    who := whoOf g r.crew (m.lanes.headD 0) }

/-- An instruction completes: `s`, `r` as it issued, `s'`, `r'` with its results; then the
after-completion predicates, and the lanes that trap (R317, R343). A halt is stronger than another match
of the same point; a lane that made no access for a match before it, and a lane that traps for another
reason, traps all the same (log 82: DEDUCED, unsafe). -/
def State.complete (s : State) (g : Gid) (r : Group) (f : Fields) (sh : Shape) (noMatch : Bool) (s' : State)
    (r' : Group) (pre : List WMatch) (post : List WSrc) (traps : List TrapLane) : State :=
  let post := if noMatch then [] else s.watchMatches g r (s.flagSrcs r f sh post)
  let r' := { s'.keepHalt g r r' with wskip := false }
  let halt := if r.stopped then none else haltMatch post
  let ts := joinTraps (s.watchTraps r f sh (if halt.isSome then pre else pre ++ post)) traps
  let held := s.matched g r (pre ++ post)
  match halt with
  | some m =>
    if r.haltFaults then held.haltFault g r m
    else if !ts.isEmpty && r.inHandler then held.handlerTrap g r ts
    else
      -- under a broadcast this instruction is one of the skid (R347)
      let r' := if r.wait = .none then r'.issuedOne else r'
      (s'.matched g r (pre ++ post)).watchHalt g { r' with traps := r'.traps ++ ts } r.pc m
  | none =>
    if !ts.isEmpty && r.inHandler then held.handlerTrap g r ts
    else (s'.matched g r (pre ++ post)).putGroup g { r' with traps := r'.traps ++ ts }

/-- An instruction completes with which the group's record is gone or the group has ended: the
after-completion predicates. A halt has no group left to stop; no lane is left to trap. -/
def State.completeEnded (s : State) (g : Gid) (r : Group) (f : Fields) (noMatch : Bool) (s' : State)
    (pre : List WMatch) : State :=
  let post := if noMatch then [] else s.watchMatches g r (s.flagSrcs r f {} [])
  match haltMatch post with
  | some m =>
    if r.haltFaults then (s.matched g r (pre ++ post)).haltFault g r m
    else if r.bcast.isSome || r.stopped then s'.matched g r (pre ++ post)
    else (s'.matched g r (pre ++ post)).haltAround g r r.pc m
  | none =>
    if !(trapMatch post).isEmpty && r.inHandler then
      (s.matched g r (pre ++ post)).handlerTrap g r (s.watchTraps r f {} post)
    else s'.matched g r (pre ++ post)

/-- A before-access halt: the instruction has no effect (R346). -/
def State.preHalt (s : State) (g : Gid) (r : Group) (ms : List WMatch) : State :=
  match haltMatch ms with
  | some m =>
    if r.haltFaults then (s.matched g r ms).haltFault g r m
    else (s.matched g r ms).watchHalt g { r with wskip := true, wait := if r.wait.evaluated then r.wait else .none } r.pc m
  | none => s

/-- A replayable fault of an instruction: the group waits for the page, its record raised; in a handler group it is
HFAULT (R299, R322). One of an instruction that acts once for its group has WHO's lane 31 and LANES 0 (log 131: DESIGN
CHOICE, unsafe). -/
def State.pageFault (s : State) (g : Gid) (r : Group) (f : Fields) (sh : Shape) (fr : FRec) : State :=
  if r.inHandler then s.crewFatal g r fr else
  let part := s.partOf (s.crewOf g r).asid
  -- a spawn record's slot lies in the address space of FASID
  let asid := if fr.acc = 9 then bitsOf (s.partd part 1) 11 0 else (s.crewOf g r).asid
  let page := fr.va.toNat / 4096 % 2 ^ 36
  let s := s.putGroup g { r with
    wait := .page asid page, kept := r.wait, capf := if fr.code = Code.capf then some (asid, page) else r.capf,
    ins := f, insSh := sh }
  s.raise part { fr with asid := asid, pc := r.pc, who := whoOf g r.crew (bitsOf fr.who 28 24) }

/-- The instruction's outcome in the machine, with everything R343 adds to it: `s`, `r` are as it
issued; `noMatch` marks an instruction without an Active lane, or with a false group guard, which
matches no predicate (R41, log 18: DEDUCED, unsafe). An instruction that goes on from a wait was evaluated when it
issued. -/
def State.settle (s : State) (g : Gid) (r : Group) (f : Fields) (sh : Shape) (noMatch : Bool) (x : Res) : State :=
  let before := fun (p : Option (List WMatch)) =>
    if r.wait.evaluated then [] else
    match p with
    | some ms => ms
    | none => if noMatch || r.wskip then [] else s.watchMatches g r [pcSrc r]
  -- a group that is halted already takes no other halt (R349)
  let stops := fun (ms : List WMatch) => !r.stopped && (haltMatch ms).isSome
  match x with
  | .fatal fr => s.crewFatal g r fr
  | .gone s' => s'
  | .ended s' =>
    let ms := before none
    if stops ms then s.preHalt g r ms
    else if !(trapMatch ms).isEmpty && r.inHandler then (s.matched g r ms).handlerTrap g r (s.watchTraps r f sh ms)
    else s.completeEnded g r f noMatch s' ms
  | .predicate s' r' n w =>
    let ms := before none
    if stops ms then s.preHalt g r ms
    else
      let put := fun (t : State) => t.modCore g.core fun c => { c with watch := c.watch.set n w }
      let t := s.complete g r f sh noMatch s' r' ms [] []
      -- a trap or halt of a handler group leaves the instruction without effect
      if (t.group? g).any fun x => x.pc = r.pc && x.halt.cause = 7 then t else put t
  | .retry => s
  | .page fr => s.pageFault g r f sh fr
  | .halt ms => s.preHalt g r ms
  | .fatalAt s' fr => s'.crewFatal g r fr
  | .pageAt s' fr => s'.pageFault g r f sh fr
  | .haltAt s' ms => s'.preHalt g r ms
  | .wait s' r' pre traps =>
    let ms := before pre
    if stops ms then s.preHalt g r ms
    else
      let ts := joinTraps (s.watchTraps r f sh ms) traps
      if !ts.isEmpty && r.inHandler then (s.matched g r ms).handlerTrap g r ts
      else (s'.matched g r ms).putGroup g
        { s'.keepHalt g r r' with traps := r'.traps ++ ts, ins := f, insSh := sh, wskip := false }
  | .ok s' r' pre post traps =>
    let ms := before pre
    if stops ms then s.preHalt g r ms
    else s.complete g r f sh noMatch s' r' ms post traps

/-- Whether a wait of the group may end: a crew-fatal stop abandons it (R325). -/
def Group.waits (r : Group) : Bool := r.halt.cause != 7

/-- A wait ends: the instruction it was in completes (R83, R343). `s'`, `r'` hold its results. -/
def State.waitDone (s : State) (g : Gid) (r : Group) (s' : State) (r' : Group) (post : List WSrc)
    (traps : List TrapLane) : State :=
  s.complete g r r.ins r.insSh (!r.ins.u && (s.activeLanes r r.ins).isEmpty) s'
    { r' with wait := .none, pc := nextPc r.pc r.ins.len } [] post traps

/-- The privilege level of a group: its crew's, or 0 for a spawned one (R292). -/
def State.levelOf (s : State) (g : Gid) (r : Group) : Nat := if r.spawned then 0 else (s.crewOf g r).priv
/-- Whether the instruction may be run at the group's privilege (R292): the level an opcode needs. -/
def State.permits (s : State) (g : Gid) (r : Group) (level : Nat) : Bool := level ≤ s.levelOf g r

/-- Whether an instruction of the group waits for a pending result: it names a G register that a PROBE has still to
write (R356), or a V register that an LPEEK has, or follows every read of an LPEEK (R222; log 97: DEDUCED, unsafe). -/
def Group.owes (r : Group) (f : Fields) (sh : Shape) : Bool :=
  r.probes.any (fun p => sh.namesG f p.2.2) ||
    r.peeks.any fun p => sh.settles || (List.range p.f.latRegs).any fun i => sh.namesV f (p.f.d.toNat + i)

/-- Issues a group instruction of the group that acts: steps 7 and 8 of R49, the guard of a group-wide
instruction (R41), a register held for a pass (R182) or still to be written by a PROBE (R356) or an LPEEK (R222), the
instruction's effect, and what follows it. -/
def issue (level : Nat) (f : Fields) (sh : Shape) (s : State) (k : State → Gid → Group → Res) :
    Host.Outcome State Fault Refusal :=
  match s.actor with
  | .grp g =>
    match s.group? g with
    | none => .fault .noActor
    | some r =>
      if !s.permits g r level then .next (s.crewFatal g r { code := Code.privop })
      else if 32 * r.gran < sh.extent f then .next (s.crewFatal g r { code := Code.illreg })
      else if f.u && !s.guard r f 0 then
        .next ((s.countIssue g false).putGroup g { r.next f with wskip := false })
      else if s.writesHeld r (sh.writes f) || r.owes f sh then .next s
      else
        let useful := f.u || !(s.contrib r f).isEmpty
        let noMatch := !f.u && (s.activeLanes r f).isEmpty
        let s1 := if r.wait = .none then s.countIssue g useful else s
        match k s1 g r with
        | .retry => .next s
        | x => .next (s1.settle g r f sh noMatch x)
  | _ => .fault .noActor

end Sys2Proof.Machine
end

