-- ==== Sys2Proof/Machine/Operands.lean ====
section
/-! DEFINITION. Operand forms: what an operand field gives each lane (R42, R61, R149), and how a result
is written (R150). -/

namespace Sys2Proof.Machine

/-- The 64 bits of a register pair. -/
def pair (lo hi : W32) : W64 := hi ++ lo
/-- The halves of 64 bits, low first. -/
def halves (x : W64) : List W32 := [x.setWidth 32, (x.ushiftRight 32).setWidth 32]

/-- A 32-bit source of lane `l`: a V register, or the low half of a G register. In a group-wide
instruction the field names a G register. -/
def State.src32 (s : State) (r : Group) (u k : Bool) (x : BitVec 8) (l : Nat) : W32 :=
  if u || k then (s.gr r x.toNat).setWidth 32 else s.v r x.toNat l
/-- A 64-bit source: a V pair, or a whole G register. -/
def State.src64 (s : State) (r : Group) (u k : Bool) (x : BitVec 8) (l : Nat) : W64 :=
  if u || k then s.gr r x.toNat else pair (s.v r x.toNat l) (s.v r (x.toNat + 1) l)
/-- A source of `w` bits, zero-extended to 64. -/
def State.srcW (s : State) (r : Group) (w : Nat) (u k : Bool) (x : BitVec 8) (l : Nat) : W64 :=
  if w = 32 then (s.src32 r u k x l).setWidth 64 else s.src64 r u k x l

/-- The immediate as an operand of `w` bits (R149): sign-extended for a signed 64-bit type. -/
def Fields.immW (f : Fields) (w : Nat) (signed : Bool) : W64 :=
  if w = 64 && f.w96 && signed then f.i32.signExtend 64
  else if w = 32 then f.i32.setWidth 64 else f.imm

/-- A, B, C of lane `l` for the type of R150; an immediate replaces B. -/
def State.opA (s : State) (r : Group) (f : Fields) (l : Nat) : W64 := s.srcW r f.width f.u f.ka f.a l
def State.opB (s : State) (r : Group) (f : Fields) (l : Nat) : W64 :=
  if f.w64 then s.srcW r f.width f.u f.kb f.b l else Fields.immW f f.width f.signed
def State.opC (s : State) (r : Group) (f : Fields) (l : Nat) : W64 := s.srcW r f.width f.u f.kc f.c l
/-- A 32-bit A, B, C; an immediate replaces B. -/
def State.a32 (s : State) (r : Group) (f : Fields) (l : Nat) : W32 := s.src32 r f.u f.ka f.a l
def State.b32 (s : State) (r : Group) (f : Fields) (l : Nat) : W32 :=
  if f.w64 then s.src32 r f.u f.kb f.b l else f.i32
def State.c32 (s : State) (r : Group) (f : Fields) (l : Nat) : W32 := s.src32 r f.u f.kc f.c l
/-- C, where an immediate replaces C. -/
def State.c32Imm (s : State) (r : Group) (f : Fields) (l : Nat) : W32 :=
  if f.w64 then s.src32 r f.u f.kc f.c l else f.i32

/-- `Val` (R150): a `w`-bit operand as an integer. -/
def valOf (w : Nat) (signed : Bool) (x : W64) : Int :=
  if signed then (x.setWidth w).toInt else (x.setWidth w).toNat

/-- `Sat` (R61). -/
def satInt (x lo hi : Int) : Int := if x < lo then lo else if hi < x then hi else x
/-- The least and greatest value of a type (R126). -/
def leastOf (w : Nat) (signed : Bool) : Int := if signed then -(2 ^ (w - 1)) else 0
def greatestOf (w : Nat) (signed : Bool) : Int := if signed then 2 ^ (w - 1) - 1 else 2 ^ w - 1
/-- An exact result narrowed to `w` bits: saturated, or mod 2^w (R150). -/
def narrow (w : Nat) (signed sat : Bool) (x : Int) : W64 :=
  let y := if sat then satInt x (leastOf w signed) (greatestOf w signed) else x
  (BitVec.ofInt w y).setWidth 64

/-- The 64 bits a group-wide result of `w` bits leaves in G[D] (R150): bits 63:32 are copies of bit 31
for `.i32` and zero for `.n32`. -/
def fillG (w : Nat) (signed : Bool) (x : W64) : W64 :=
  if w = 32 then (if signed then (x.setWidth 32).signExtend 64 else (x.setWidth 32).setWidth 64) else x

/-- Writes a result of `w` bits to D: a register or pair of each Active lane, or G[D]. -/
def State.writeD (s : State) (r : Group) (f : Fields) (w : Nat) (signed : Bool) (res : Nat → W64) : State :=
  if f.u then s.setG r f.d.toNat (fillG w signed (res 0))
  else s.writeV r (s.activeLanes r f) fun l =>
    if w = 32 then [(f.d.toNat, (res l).setWidth 32)] else pieces f.d.toNat (halves (res l))

end Sys2Proof.Machine
end

