-- ==== Sys2Proof/Machine/Flags.lean ====
section
/-! DEFINITION. The condition code (R54, R153): Z in bit 0, N in bit 1, C in bit 2, V in bit 3. -/

namespace Sys2Proof.Machine

def mkCC (z n c v : Bool) : BitVec 4 :=
  BitVec.ofNat 4 (z.toNat + n.toNat * 2 + c.toNat * 4 + v.toNat * 8)

/-- MZ (R54): always EXEC = 0. -/
def Group.mz (r : Group) : Bool := r.exec == 0
def Group.flagZ (r : Group) : Bool := r.cc.getLsbD 0
def Group.flagN (r : Group) : Bool := r.cc.getLsbD 1
def Group.flagC (r : Group) : Bool := r.cc.getLsbD 2
def Group.flagV (r : Group) : Bool := r.cc.getLsbD 3

/-- CC read as a register (R54). -/
def Group.ccByte (r : Group) : BitVec 8 :=
  BitVec.ofNat 8 (r.cc.toNat + (if r.mz then 16 else 0))

/-- Whether an exact result lies outside the signed range of `w` bits. -/
def outSigned (w : Nat) (x : Int) : Bool := decide (x < leastOf w true) || decide (greatestOf w true < x)

/-- CC after an addition of `w`-bit operands and a carry (R153): C is the carry out of the natural sum,
V is judged on the operands read as signed. -/
def ccAdd (w : Nat) (a b : W64) (cin : Nat) (res : W64) : BitVec 4 :=
  mkCC (res.setWidth w == 0) (res.getLsbD (w - 1))
    (decide (2 ^ w ≤ (a.setWidth w).toNat + (b.setWidth w).toNat + cin))
    (outSigned w (valOf w true a + valOf w true b + cin))
/-- CC after a subtraction (R153): C is 1 when there is no borrow. -/
def ccSub (w : Nat) (a b : W64) (bin : Nat) (res : W64) : BitVec 4 :=
  mkCC (res.setWidth w == 0) (res.getLsbD (w - 1))
    (decide ((b.setWidth w).toNat + bin ≤ (a.setWidth w).toNat))
    (outSigned w (valOf w true a - valOf w true b - bin))
/-- CC after IABS: V when A is the least signed value. -/
def ccAbs (w : Nat) (a res : W64) : BitVec 4 :=
  mkCC (res.setWidth w == 0) (res.getLsbD (w - 1)) false (decide (valOf w true a = leastOf w true))
/-- CC after a move, a bitwise operation or a shift: C and V are 0. -/
def ccLogic (w : Nat) (res : W64) : BitVec 4 :=
  mkCC (res.setWidth w == 0) (res.getLsbD (w - 1)) false false

/-- The conditions of BRA and BRX (R96). -/
def Group.cond (r : Group) (c : Nat) : Bool :=
  match c with
  | 0 => true
  | 1 => r.flagZ
  | 2 => !r.flagZ
  | 3 => r.flagN
  | 4 => !r.flagN
  | 5 => r.flagC
  | 6 => !r.flagC
  | 7 => r.flagV
  | 8 => !r.flagV
  | 9 => r.mz
  | 10 => !r.mz
  | _ => false

end Sys2Proof.Machine
end

