-- ==== Sys2Proof/Machine/Integer.lean ====
section
/-! DEFINITION. Integer and bit instructions, OP 0x10 to 0x2F (R150 to R155). -/

namespace Sys2Proof.Machine

/-- An integer instruction that writes D: its result for each lane (lane 0 for a group-wide form), and
the CC it writes under `.cc`. -/
def intOp (f : Fields) (sh : Shape) (s : State) (w : Nat) (signed : Bool)
    (res : State → Group → Nat → W64) (cc : State → Group → W64 → BitVec 4) :
    Host.Outcome State Fault Refusal :=
  issue 0 f sh s fun s _ r =>
    let r' := r.next f
    .done (s.writeD r f w signed (res s r))
      (if f.u && f.ccw then { r' with cc := cc s r (res s r 0) } else r')

/-- CC is not written by this instruction. -/
def noCC : State → Group → W64 → BitVec 4 := fun _ r _ => r.cc

def execMov (f : Fields) (s : State) : Host.Outcome State Fault Refusal :=
  intOp f (shapeMov f) s f.width f.signed (fun s r l => s.opA r f l) fun _ _ x => ccLogic f.width x

def execMovi (f : Fields) (s : State) : Host.Outcome State Fault Refusal :=
  intOp f (shapeMovi f) s f.width f.signed (fun _ _ _ => Fields.immW f f.width f.signed)
    fun _ _ x => ccLogic f.width x

/-- The predicate in field C: Pc(L), or Qc of a group-wide form. -/
def State.predC (s : State) (r : Group) (f : Fields) (l : Nat) : Bool :=
  if f.u then r.q.getLsbD f.c.toNat else s.p r f.c.toNat l

def execSel (f : Fields) (s : State) : Host.Outcome State Fault Refusal :=
  intOp f (shapeSel f) s f.width f.signed
    (fun s r l => if s.predC r f l then s.opA r f l else s.opB r f l) noCC

/-- `Val` of an operand of the instruction's type. -/
def Fields.val (f : Fields) (x : W64) : Int := valOf f.width f.signed x
/-- The result D takes from an exact value (R152). -/
def Fields.fit (f : Fields) (x : Int) : W64 := narrow f.width f.signed f.sat x

def execIadd (f : Fields) (s : State) : Host.Outcome State Fault Refusal :=
  intOp f (shapeInt3 f true true) s f.width f.signed
    (fun s r l => Fields.fit f (Fields.val f (s.opA r f l) + Fields.val f (s.opB r f l)))
    fun s r x => ccAdd f.width (s.opA r f 0) (s.opB r f 0) 0 x

def execIsub (f : Fields) (s : State) : Host.Outcome State Fault Refusal :=
  intOp f (shapeInt3 f true true) s f.width f.signed
    (fun s r l => Fields.fit f (Fields.val f (s.opA r f l) - Fields.val f (s.opB r f l)))
    fun s r x => ccSub f.width (s.opA r f 0) (s.opB r f 0) 0 x

def execImul (f : Fields) (s : State) : Host.Outcome State Fault Refusal :=
  intOp f (shapeInt3 f true false) s f.width f.signed
    (fun s r l => Fields.fit f (Fields.val f (s.opA r f l) * Fields.val f (s.opB r f l))) noCC

def execImulh (f : Fields) (s : State) : Host.Outcome State Fault Refusal :=
  intOp f (shapeInt3 f false false) s f.width f.signed
    (fun s r l => narrow f.width f.signed false
      ((Fields.val f (s.opA r f l) * Fields.val f (s.opB r f l)).fdiv (2 ^ f.width))) noCC

def execImad (f : Fields) (s : State) : Host.Outcome State Fault Refusal :=
  intOp f (shapeImad f) s f.width f.signed
    (fun s r l => Fields.fit f (Fields.val f (s.opA r f l) * Fields.val f (s.opB r f l)
      + Fields.val f (s.opC r f l))) noCC

/-- The 64-bit C of IMADW. -/
def State.c64 (s : State) (r : Group) (f : Fields) (l : Nat) : W64 := s.src64 r f.u f.kc f.c l

def execImadw (f : Fields) (s : State) : Host.Outcome State Fault Refusal :=
  intOp f (shapeImadw f) s 64 f.signed
    (fun s r l => narrow 64 f.signed false
      (valOf 32 f.signed ((s.a32 r f l).setWidth 64) * valOf 32 f.signed ((s.b32 r f l).setWidth 64)
        + valOf 64 f.signed (s.c64 r f l))) noCC

def execIabs (f : Fields) (s : State) : Host.Outcome State Fault Refusal :=
  intOp f (shapeIabs f) s f.width f.signed
    (fun s r l => Fields.fit f |Fields.val f (s.opA r f l)|) fun s r x => ccAbs f.width (s.opA r f 0) x

def execIneg (f : Fields) (s : State) : Host.Outcome State Fault Refusal :=
  intOp f (shapeIabs f) s f.width f.signed
    (fun s r l => Fields.fit f (-Fields.val f (s.opA r f l)))
    fun s r x => ccSub f.width 0 (s.opA r f 0) 0 x

def execImin (f : Fields) (s : State) : Host.Outcome State Fault Refusal :=
  intOp f (shapeInt3 f false false) s f.width f.signed
    (fun s r l => narrow f.width f.signed false
      (min (Fields.val f (s.opA r f l)) (Fields.val f (s.opB r f l)))) noCC

def execImax (f : Fields) (s : State) : Host.Outcome State Fault Refusal :=
  intOp f (shapeInt3 f false false) s f.width f.signed
    (fun s r l => narrow f.width f.signed false
      (max (Fields.val f (s.opA r f l)) (Fields.val f (s.opB r f l)))) noCC

/-- A sum or difference with a carry in and out (R152): through Pc(L) with U=0, CC.C with U=1. -/
def carryOp (f : Fields) (s : State) (sum : Nat → Nat → Nat → Int) (cin : Bool → Nat) (out : Int → Bool)
    (cc : W64 → W64 → Nat → W64 → BitVec 4) : Host.Outcome State Fault Refusal :=
  issue 0 f (shapeCarry f) s fun s _ r =>
    let c := fun l => if f.u then cin r.flagC else if s.p r f.c.toNat l then 1 else 0
    let x := fun l => sum (s.opA r f l).toNat (s.opB r f l).toNat (c l)
    let res := fun l => narrow f.width false false (x l)
    let s' := s.writeD r f f.width f.signed res
    let r' := r.next f
    if f.u then
      .done s' (if f.ccw then { r' with cc := cc (s.opA r f 0) (s.opB r f 0) (c 0) (res 0) } else r')
    else .done (s'.writeP r (s.activeLanes r f) f.c.toNat fun l => out (x l)) r'

def execIaddc (f : Fields) (s : State) : Host.Outcome State Fault Refusal :=
  carryOp f s (fun a b c => a + b + c) (fun c => c.toNat) (fun x => decide (2 ^ f.width ≤ x))
    (fun a b c x => ccAdd f.width a b c x)

def execIsubb (f : Fields) (s : State) : Host.Outcome State Fault Refusal :=
  carryOp f s (fun a b c => (a : Int) - b - c) (fun c => (!c).toNat) (fun x => decide (x < 0))
    (fun a b c x => ccSub f.width a b c x)

/-- The conditions of ICMP (R154). -/
def icond (c : Nat) (a b : Int) : Bool :=
  match c with
  | 0 => decide (a = b)
  | 1 => decide (a ≠ b)
  | 2 => decide (a < b)
  | 3 => decide (a ≤ b)
  | 4 => decide (b < a)
  | _ => decide (b ≤ a)

/-- Log 70: DEDUCED, unsafe. -/
def execIcmp (f : Fields) (s : State) : Host.Outcome State Fault Refusal :=
  issue 0 f (shapeIcmp f) s fun s _ r =>
    let t := fun l => icond f.sub (Fields.val f (s.opA r f l)) (Fields.val f (s.opB r f l))
    let r' := r.next f
    if f.u then
      let a := s.opA r f 0
      let b := s.opB r f 0
      let r' := { r' with q := setBit r'.q f.d.toNat (t 0) }
      .done s (if f.ccw then
        { r' with cc := ccSub f.width a b 0 (narrow f.width false false (valOf f.width false a - valOf f.width false b)) }
        else r')
    else .done (s.writeP r (s.activeLanes r f) f.d.toNat t) r'

def execLea (f : Fields) (s : State) : Host.Outcome State Fault Refusal :=
  intOp f (shapeLea f) s 64 f.signed
    (fun s r l =>
      let a := s.src64 r f.u f.ka f.a l
      narrow 64 false false (a.toNat + Fields.val f (s.opB r f l) * 2 ^ f.sub)) noCC

/-! ### Bitwise -/

def logicOp (f : Fields) (s : State) (op : W64 → W64 → W64) : Host.Outcome State Fault Refusal :=
  intOp f (shapeInt3 f false true) s f.width f.signed (fun s r l => op (s.opA r f l) (s.opB r f l))
    fun _ _ x => ccLogic f.width x

def execAnd (f : Fields) (s : State) : Host.Outcome State Fault Refusal := logicOp f s (· &&& ·)
def execOr (f : Fields) (s : State) : Host.Outcome State Fault Refusal := logicOp f s (· ||| ·)
def execXor (f : Fields) (s : State) : Host.Outcome State Fault Refusal := logicOp f s (· ^^^ ·)

def execNot (f : Fields) (s : State) : Host.Outcome State Fault Refusal :=
  intOp f (shapeInt2 f allTypes false true) s f.width f.signed (fun s r l => ~~~ s.opA r f l)
    fun _ _ x => ccLogic f.width x

/-- The table of R155 applied bit by bit: index A[j] + 2 B[j] + 4 C[j]. -/
def btab {w : Nat} (t : Nat) (a b c : BitVec w) : BitVec w :=
  let sel := fun (i : Nat) (x y z : BitVec w) => if t.testBit i then x &&& y &&& z else 0
  sel 0 (~~~a) (~~~b) (~~~c) ||| sel 1 a (~~~b) (~~~c) ||| sel 2 (~~~a) b (~~~c) ||| sel 3 a b (~~~c) |||
  sel 4 (~~~a) (~~~b) c ||| sel 5 a (~~~b) c ||| sel 6 (~~~a) b c ||| sel 7 a b c

/-- BTAB's width comes from F.fn bit 8. Its 32-bit group-wide result has bits 63:32 zero. A 32-bit
immediate of the 64-bit form is zero-extended (log 19: DEDUCED, unsafe). -/
def execBtab (f : Fields) (s : State) : Host.Outcome State Fault Refusal :=
  let w := if f.fnBits 8 8 = 0 then 32 else 64
  intOp f (shapeBtab f) s w false
    (fun s r l =>
      let b := if f.w64 then s.srcW r w f.u f.kb f.b l else Fields.immW f w false
      btab (f.fnBits 7 0) (s.srcW r w f.u f.ka f.a l) b (s.srcW r w f.u f.kc f.c l))
    fun _ r _ => r.cc

/-! ### Shifts, bit fields, counts (R154) -/

/-- B[7:0] of a shift. -/
def State.shiftN (s : State) (r : Group) (f : Fields) (l : Nat) : Nat := (s.b32 r f l).toNat % 256

def execShl (f : Fields) (s : State) : Host.Outcome State Fault Refusal :=
  intOp f (shapeShift f true) s f.width f.signed
    (fun s r l =>
      let n := s.shiftN r f l
      if f.width ≤ n then 0 else narrow f.width false false ((s.opA r f l).toNat * 2 ^ n))
    fun _ _ x => ccLogic f.width x

def execShr (f : Fields) (s : State) : Host.Outcome State Fault Refusal :=
  intOp f (shapeShift f true) s f.width f.signed
    (fun s r l =>
      let n := s.shiftN r f l
      if f.width ≤ n then 0 else BitVec.ofNat 64 ((s.opA r f l).toNat / 2 ^ n))
    fun _ _ x => ccLogic f.width x

def execSha (f : Fields) (s : State) : Host.Outcome State Fault Refusal :=
  intOp f (shapeShift f true) s f.width f.signed
    (fun s r l =>
      narrow f.width false false ((valOf f.width true (s.opA r f l)).fdiv (2 ^ min (s.shiftN r f l) f.width)))
    fun _ _ x => ccLogic f.width x

def execRot (f : Fields) (s : State) : Host.Outcome State Fault Refusal :=
  intOp f (shapeShift f false) s f.width f.signed
    (fun s r l =>
      let k := s.shiftN r f l % f.width
      let a := (s.opA r f l).toNat
      BitVec.ofNat 64 (a * 2 ^ k % 2 ^ f.width) ||| BitVec.ofNat 64 (a / 2 ^ (f.width - k))) noCC

def execBfx (f : Fields) (s : State) : Host.Outcome State Fault Refusal :=
  intOp f (shapeShift f false) s f.width f.signed
    (fun s r l =>
      let b := (s.b32 r f l).toNat
      let pos := b % 256
      let len := min (b / 256 % 256) f.width
      let x : Int := ((Fields.val f (s.opA r f l)).fdiv (2 ^ pos)) % 2 ^ len
      if len = 0 then 0
      else if f.signed && decide (2 ^ (len - 1) ≤ x) then narrow f.width false false (x - 2 ^ len)
      else narrow f.width false false x) noCC

def execBfi (f : Fields) (s : State) : Host.Outcome State Fault Refusal :=
  intOp f (shapeBfi f) s f.width f.signed
    (fun s r l =>
      let c := (s.c32Imm r f l).toNat
      let pos := c % 256
      let len := min (c / 256 % 256) f.width
      let a := s.opA r f l
      let b := s.srcW r f.width f.u f.kb f.b l
      if f.width ≤ pos || len = 0 then a
      else
        let m := BitVec.ofNat 64 ((2 ^ len - 1) * 2 ^ pos % 2 ^ f.width)
        (a &&& ~~~ m) ||| (BitVec.ofNat 64 (b.toNat * 2 ^ pos) &&& m)) noCC

/-- The number of 1 bits of the low `n` bits. -/
def popcount (x : Nat) : Nat → Nat
  | 0 => 0
  | n + 1 => (if x.testBit n then 1 else 0) + popcount x n

/-- The number of leading 0 bits of an `n`-bit number. -/
def leadZeros (x : Nat) : Nat → Nat
  | 0 => 0
  | n + 1 => if x.testBit n then 0 else 1 + leadZeros x n

/-- The low `n` bits in reverse: bit 0 becomes bit `n`-1. -/
def bitRev (x : Nat) : Nat → Nat
  | 0 => 0
  | n + 1 => bitRev (x / 2) n + (if x.testBit 0 then 2 ^ n else 0)

def execPopc (f : Fields) (s : State) : Host.Outcome State Fault Refusal :=
  intOp f (shapeCount f) s 32 f.signed
    (fun s r l => BitVec.ofNat 64 (popcount (s.opA r f l).toNat f.width)) noCC

def execClz (f : Fields) (s : State) : Host.Outcome State Fault Refusal :=
  intOp f (shapeCount f) s 32 f.signed
    (fun s r l => BitVec.ofNat 64 (leadZeros (s.opA r f l).toNat f.width)) noCC

def execBrev (f : Fields) (s : State) : Host.Outcome State Fault Refusal :=
  intOp f (shapeInt2 f allTypes false false) s f.width f.signed
    (fun s r l => BitVec.ofNat 64 (bitRev (s.opA r f l).toNat f.width)) noCC

/-- Byte `i` of a word. -/
def byteOf (x : W32) (i : Nat) : Nat := x.toNat / 2 ^ (8 * i) % 256

/-- One byte of BYSEL (R155). -/
def byselByte (a b : W32) (c : Nat) : Nat :=
  if c < 4 then byteOf a c
  else if c < 8 then byteOf b (c - 4)
  else if c = 8 then 0
  else if c = 9 then 255
  else if c < 14 then (if (byteOf a (c - 10)).testBit 7 then 255 else 0)
  else 0

def execBysel (f : Fields) (s : State) : Host.Outcome State Fault Refusal :=
  intOp f (shapeBysel f) s 32 f.signed
    (fun s r l =>
      let a := s.a32 r f l
      let b := s.src32 r f.u f.kb f.b l
      let c := (s.c32Imm r f l).toNat
      BitVec.ofNat 64 (byselByte a b (c % 16) + byselByte a b (c / 16 % 16) * 2 ^ 8
        + byselByte a b (c / 256 % 16) * 2 ^ 16 + byselByte a b (c / 4096 % 16) * 2 ^ 24)) noCC

/-- `Ext` of DOT4 (R152). -/
def ext8 (x : Nat) (signed : Bool) : Int := if signed && 128 ≤ x then (x : Int) - 256 else x

def execDot4 (f : Fields) (s : State) : Host.Outcome State Fault Refusal :=
  intOp f (shapeDot4 f) s 32 f.signed
    (fun s r l =>
      let a := s.a32 r f l
      let b := s.b32 r f l
      let t := fun i => ext8 (byteOf a i) (f.sub % 2 == 1) * ext8 (byteOf b i) (f.sub / 2 % 2 == 1)
      narrow 32 true f.sat ((s.c32 r f l).toInt + (t 0 + t 1 + t 2 + t 3))) noCC

end Sys2Proof.Machine
end

