-- ==== Sys2Proof/Machine/CrossLane.lean ====
section
/-! DEFINITION. Quad, cross-lane and predicate instructions, OP 0x50 to 0x62 (R166 to R171), but those
that round (QDIFF, and REDG and SCANG's floating codes), which stand in Float.lean. -/

namespace Sys2Proof.Machine

/-- A group's value of a 32-bit A in lane `S`, whatever S's masks are (R166). -/
def State.laneA (s : State) (r : Group) (f : Fields) (l : Nat) : W32 := s.src32 r false f.ka f.a l

/-- A per-lane instruction that writes one register of each Active lane. -/
def laneOp (f : Fields) (sh : Shape) (s : State) (res : State → Group → Nat → W32) :
    Host.Outcome State Fault Refusal :=
  issue 0 f sh s fun s _ r =>
    .done (s.writeV r (s.activeLanes r f) fun l => [(f.d.toNat, res s r l)]) (r.next f)

/-- The source lane of LXCH, none where the rotation passes the segment's end under `.edge` (R168). -/
def lxchSrc (mode n : Nat) (edge : Bool) (l k : Nat) : Option Nat :=
  let base := l - l % n
  let i := l % n
  match mode with
  | 0 => some (base + k % n)
  | 1 => if edge && n ≤ i + k then none else some (base + (i + k) % n)
  | 2 => if edge && i < k then none else some (base + (i + n * 256 - k) % n)
  | _ => some (base + (i ^^^ k) % n)

def execLxch (f : Fields) (s : State) : Host.Outcome State Fault Refusal :=
  laneOp f (shapeLxch f) s fun s r l =>
    let k := (s.b32 r f l).toNat % 256
    match lxchSrc (f.fnBits 1 0) (2 ^ f.fnBits 4 2) (f.fnBits 5 5 == 1) l k with
    | some x => s.laneA r f x
    | none => s.laneA r f l

def execQswz (f : Fields) (s : State) : Host.Outcome State Fault Refusal :=
  laneOp f (shapeQswz f) s fun s r l =>
    s.laneA r f (l - l % 4 + f.imm.toNat / 2 ^ (2 * (l % 4)) % 4)

def execQbcast (f : Fields) (s : State) : Host.Outcome State Fault Refusal :=
  laneOp f (shapeQbcast f) s fun s r l => s.laneA r f (l - l % 4 + f.imm.toNat % 4)

def execPcoll (f : Fields) (s : State) : Host.Outcome State Fault Refusal :=
  issue 0 f (shapePcoll f) s fun s _ r =>
    let c := s.contrib r f
    let set := c.filter fun l => s.p r f.a.toNat l
    let q := fun b => Res.done s { r.next f with q := setBit r.q f.d.toNat b }
    match f.fn.toNat with
    | 0 => q (!set.isEmpty)
    | 1 => q (set.length == c.length)
    | 2 => q (set.isEmpty || set.length == c.length)
    | 3 => .done (s.setG r f.d.toNat ((laneMask set).setWidth 64)) (r.next f)
    | _ => .done (s.setG r f.d.toNat (BitVec.ofNat 64 set.length)) (r.next f)

def execBcastg (f : Fields) (s : State) : Host.Outcome State Fault Refusal :=
  issue 0 f (shapeBcastg f) s fun s _ r =>
    let x := if f.fnIs 0 then s.laneA r f f.imm.toNat
      else match s.contrib r f with
        | [] => 0
        | l :: _ => s.laneA r f l
    .done (s.setG r f.d.toNat (x.setWidth 64)) (r.next f)

def execMatchg (f : Fields) (s : State) : Host.Outcome State Fault Refusal :=
  laneOp f (shapeMatchg f) s fun s r l =>
    let val := fun x => s.srcW r (if f.fn.toNat < 2 then 32 else 64) false f.ka f.a x
    let lead := f.fn.toNat % 2 == 1
    if (s.contrib r f).contains l then
      let eqs := (s.contrib r f).filter fun x => val x == val l
      if lead then BitVec.ofNat 32 (eqs.headD 0) else laneMask eqs
    else if lead then 0xFFFFFFFF else 0

/-- The codes 0 to 7 of REDG and SCANG (R169): combination and identity. -/
def redOp (code : Nat) (x y : W32) : W32 :=
  match code with
  | 0 => x + y
  | 1 => if x.toInt ≤ y.toInt then x else y
  | 2 => if x.toInt ≤ y.toInt then y else x
  | 3 => if x.toNat ≤ y.toNat then x else y
  | 4 => if x.toNat ≤ y.toNat then y else x
  | 5 => x &&& y
  | 6 => x ||| y
  | _ => x ^^^ y

def redId (code : Nat) : W32 :=
  match code with
  | 1 => 0x7FFFFFFF
  | 2 => 0x80000000
  | 3 => 0xFFFFFFFF
  | 5 => 0xFFFFFFFF
  | 8 => 0x80000000
  | 9 => 0x7FC00000
  | 10 => 0x7FC00000
  | _ => 0

/-! ### Predicates (R171) -/

/-- Entry `T[a + 2b + 4c]` of a table. -/
def tabBit (t : Nat) (a b c : Bool) : Bool := t.testBit (a.toNat + 2 * b.toNat + 4 * c.toNat)

def execPlop (f : Fields) (s : State) : Host.Outcome State Fault Refusal :=
  issue 0 f (shapePlop f) s fun s _ r =>
    .done (s.writeP r (s.activeLanes r f) f.d.toNat fun l =>
      tabBit f.fn.toNat (s.p r f.a.toNat l) (s.p r f.b.toNat l) (s.p r f.c.toNat l)) (r.next f)

def execQlop (f : Fields) (s : State) : Host.Outcome State Fault Refusal :=
  issue 0 f (shapeQlop f) s fun s _ r =>
    let b := tabBit f.fn.toNat (r.q.getLsbD f.a.toNat) (r.q.getLsbD f.b.toNat) (r.q.getLsbD f.c.toNat)
    .done s { r.next f with q := setBit r.q f.d.toNat b }

def execPmov (f : Fields) (s : State) : Host.Outcome State Fault Refusal :=
  issue 0 f (shapePmov f) s fun s _ r =>
    let ls := s.activeLanes r f
    let a := f.a.toNat
    match f.fn.toNat with
    | 0 => .done (s.writeP r ls f.d.toNat fun l => s.p r a l) (r.next f)
    | 1 => .done (s.writeP r ls f.d.toNat fun l => s.v r a l != 0) (r.next f)
    | 2 => .done (s.writeV r ls fun l => [(f.d.toNat, if s.p r a l then 1 else 0)]) (r.next f)
    | 3 => .done (s.setG r f.d.toNat ((laneMask (ls.filter fun l => s.p r a l)).setWidth 64)) (r.next f)
    | _ => .done (s.writeP r ls f.d.toNat fun l => (s.gr r a).getLsbD l) (r.next f)

end Sys2Proof.Machine
end

