-- ==== Sys2Proof/Machine/Number.lean ====
section
/-! DEFINITION. Number formats and rounding (R126 to R131): values as exact rationals, `RoundNE` by
integer arithmetic, and the exact functions the floating instructions round. -/

namespace Sys2Proof.Machine

/-- A value read from a floating format: a NaN (signalling or not), an infinity, or a finite value
`num / den` with its sign (zero keeps its sign). -/
inductive Num where
  | nan (sig : Bool)
  | inf (neg : Bool)
  | fin (neg : Bool) (num den : Nat)
  deriving DecidableEq, Repr, Inhabited

/-- A floating format (R127): exponent and fraction bits, bias, and what the top exponent means:
0 IEEE (infinities and NaNs), 1 E4M3 (one NaN), 2 E2M1 (neither). -/
structure FFmt where
  eb : Nat
  fb : Nat
  bias : Nat
  kind : Nat := 0
  deriving DecidableEq, Repr

def fmtF32 : FFmt := { eb := 8, fb := 23, bias := 127 }
def fmtBF16 : FFmt := { eb := 8, fb := 7, bias := 127 }
def fmtH16 : FFmt := { eb := 5, fb := 10, bias := 15 }
def fmtE4M3 : FFmt := { eb := 4, fb := 3, bias := 7, kind := 1 }
def fmtE5M2 : FFmt := { eb := 5, fb := 2, bias := 15 }
def fmtE2M1 : FFmt := { eb := 2, fb := 1, bias := 1, kind := 2 }

/-- Bits of a value of the format. -/
def FFmt.bits (t : FFmt) : Nat := t.eb + t.fb + 1
/-- The greatest finite magnitude's encoding. -/
def FFmt.maxMag (t : FFmt) : Nat :=
  match t.kind with
  | 0 => (2 ^ t.eb - 1) * 2 ^ t.fb - 1
  | 1 => 2 ^ (t.eb + t.fb) - 2
  | _ => 2 ^ (t.eb + t.fb) - 1
/-- The infinity's encoding, without its sign. -/
def FFmt.infMag (t : FFmt) : Nat := (2 ^ t.eb - 1) * 2 ^ t.fb
/-- The canonical NaN (R128); E2M1 has none and gives +0. -/
def FFmt.nanBits (t : FFmt) : Nat :=
  match t.kind with
  | 0 => (2 ^ t.eb - 1) * 2 ^ t.fb + 2 ^ (t.fb - 1)
  | 1 => 2 ^ (t.eb + t.fb) - 1
  | _ => 0
def FFmt.signed (t : FFmt) (neg : Bool) (mag : Nat) : Nat := if neg then mag + 2 ^ (t.eb + t.fb) else mag

/-- Exponent and fraction fields of an encoding. -/
def FFmt.expo (t : FFmt) (x : Nat) : Nat := x / 2 ^ t.fb % 2 ^ t.eb
def FFmt.frac (t : FFmt) (x : Nat) : Nat := x % 2 ^ t.fb
def FFmt.neg (t : FFmt) (x : Nat) : Bool := x.testBit (t.eb + t.fb)

def FFmt.isNan (t : FFmt) (x : Nat) : Bool :=
  match t.kind with
  | 0 => t.expo x == 2 ^ t.eb - 1 && t.frac x != 0
  | 1 => t.expo x == 2 ^ t.eb - 1 && t.frac x == 2 ^ t.fb - 1
  | _ => false
def FFmt.isInf (t : FFmt) (x : Nat) : Bool := t.kind == 0 && t.expo x == 2 ^ t.eb - 1 && t.frac x == 0

/-- `m × 2^e` as a fraction. -/
def scaled (neg : Bool) (m : Nat) (e : Int) : Num :=
  if 0 ≤ e then .fin neg (m * 2 ^ e.toNat) 1 else .fin neg m (2 ^ (-e).toNat)

/-- The value of an encoding (R127, R128). NaNs of the 8-bit formats are all quiet. -/
def FFmt.read (t : FFmt) (x : Nat) : Num :=
  if t.isNan x then .nan (8 < t.bits && !(t.frac x).testBit (t.fb - 1))
  else if t.isInf x then .inf (t.neg x)
  else if t.expo x = 0 then scaled (t.neg x) (t.frac x) (1 - (t.bias : Int) - t.fb)
  else scaled (t.neg x) (2 ^ t.fb + t.frac x) ((t.expo x : Int) - t.bias - t.fb)

namespace Flag
def iv := 1
def dz := 2
def of := 4
def uf := 8
def nx := 16
def cs := 32
def cn := 64
def ss := 128
end Flag

/-- OR of two flag sets. -/
def orFlags (a b : Nat) : Nat := a ||| b

/-- The greatest e with 2^e ≤ n / d, for n, d > 0. -/
def floorLog2 (n d : Nat) : Int :=
  let e : Int := (n.log2 : Int) - d.log2
  let le := if 0 ≤ e then decide (d * 2 ^ e.toNat ≤ n) else decide (d ≤ n * 2 ^ (-e).toNat)
  if le then e else e - 1

/-- Whether a rounding goes up in magnitude (R129): `m` the truncated magnitude, `rem / den` what is cut. -/
def roundUp (mode : Nat) (neg : Bool) (m rem den : Nat) : Bool :=
  match mode with
  | 0 => decide (den < 2 * rem) || (decide (2 * rem = den) && m % 2 == 1)
  | 1 => false
  | 2 => decide (rem ≠ 0) && !neg
  | _ => decide (rem ≠ 0) && neg

/-- `n / d` in units of 2^q, rounded: the magnitude and whether it is inexact. -/
def roundAt (mode : Nat) (neg : Bool) (n d : Nat) (q : Int) : Nat × Bool :=
  let num := if 0 ≤ q then n else n * 2 ^ (-q).toNat
  let den := if 0 ≤ q then d * 2 ^ q.toNat else d
  let m := num / den
  let rem := num % den
  (if roundUp mode neg m rem den then m + 1 else m, decide (rem ≠ 0))

/-- A finite `n / d` whose magnitude exceeds the greatest finite value of the format. -/
def FFmt.exceeds (t : FFmt) (n d : Nat) : Bool :=
  match t.read t.maxMag with
  | .fin _ gn gd => decide (gn * d < n * gd)
  | _ => false

/-- Whether `n / d`, which rounds to the magnitude `mag`, lies beyond the greatest finite value (R130): a
format with infinities under saturation judges the exact value (R160), every other row the rounded one.
(Log 102: DEDUCED, unsafe.) -/
def FFmt.beyond (t : FFmt) (sat : Bool) (n d mag : Nat) : Bool :=
  if sat && t.kind == 0 then t.exceeds n d else decide (t.maxMag < mag)

/-- `RoundNE` (R129, R130): the encoding and the flags. `sat` is an entry's saturation. -/
def FFmt.round (t : FFmt) (mode : Nat) (sat : Bool) : Num → Nat × Nat
  | .nan _ => (t.nanBits, if t.kind = 2 then Flag.cn else 0)
  | .inf neg =>
    if sat || t.kind != 0 then (t.signed neg t.maxMag, Flag.cs) else (t.signed neg t.infMag, 0)
  | .fin neg n d =>
    if n = 0 then (t.signed neg 0, 0)
    else
      let emin : Int := 1 - t.bias
      let e := floorLog2 n d
      let ee := max e emin
      let (m, inex) := roundAt mode neg n d (ee - t.fb)
      let mag := ((ee - emin).toNat) * 2 ^ t.fb + m
      if t.beyond sat n d mag then
        if sat || t.kind != 0 then (t.signed neg t.maxMag, Flag.cs + Flag.nx)
        else
          let toInf := match mode with | 0 => true | 1 => false | 2 => !neg | _ => neg
          (t.signed neg (if toInf then t.infMag else t.maxMag), Flag.of + Flag.nx)
      else
        -- tininess after rounding: at the format's precision with an unbounded exponent
        let tiny := decide (e < emin) &&
          !(decide (e = emin - 1) && (roundAt mode neg n d (e - t.fb)).1 == 2 ^ (t.fb + 1))
        (t.signed neg mag, (if inex then Flag.nx else 0) + (if inex && tiny then Flag.uf else 0))

/-- An exact value rounded to an integer (R129, R130): the integer, inside the range, and the flags. -/
def roundInt (mode : Nat) (lo hi : Int) : Num → Int × Nat
  | .nan _ => (0, Flag.cn)
  | .inf neg => (if neg then lo else hi, Flag.cs)
  | .fin neg n d =>
    let (m, inex) := roundAt mode neg n d 0
    let x : Int := if neg then -(m : Int) else m
    if x < lo then (lo, Flag.cs) else if hi < x then (hi, Flag.cs)
    else (x, if inex then Flag.nx else 0)

/-! ### Exact arithmetic -/

def Num.isNan : Num → Bool
  | .nan _ => true
  | _ => false
def Num.isSig : Num → Bool
  | .nan s => s
  | _ => false
def Num.neg : Num → Num
  | .nan s => .nan s
  | .inf n => .inf !n
  | .fin n a b => .fin (!n) a b
def Num.isZero : Num → Bool
  | .fin _ n _ => n == 0
  | _ => false
def Num.sign : Num → Bool
  | .nan _ => false
  | .inf n => n
  | .fin n _ _ => n
/-- IV for a signalling NaN among the operands (R156). -/
def sigFlag (xs : List Num) : Nat := if xs.any Num.isSig then Flag.iv else 0

/-- A + B, with the flags of the special cases (R158). A zero sum of opposite signs is −0 under `.rm`. -/
def Num.add (mode : Nat) (a b : Num) : Num × Nat :=
  match a, b with
  | .nan s, y => (.nan false, sigFlag [.nan s, y])
  | x, .nan s => (.nan false, sigFlag [x, .nan s])
  | .inf m, .inf n => if m = n then (.inf m, 0) else (.nan false, Flag.iv)
  | .inf m, _ => (.inf m, 0)
  | _, .inf n => (.inf n, 0)
  | .fin m p q, .fin n x y =>
    let u : Int := (if m then -(p : Int) else p) * y + (if n then -(x : Int) else x) * q
    if u = 0 then (.fin (if m = n then m else mode = 3) 0 1, 0)
    else (.fin (decide (u < 0)) u.natAbs (q * y), 0)

/-- A × B (R158). -/
def Num.mul (a b : Num) : Num × Nat :=
  match a, b with
  | .nan s, y => (.nan false, sigFlag [.nan s, y])
  | x, .nan s => (.nan false, sigFlag [x, .nan s])
  | .inf m, y => if y.isZero then (.nan false, Flag.iv) else (.inf (m != y.sign), 0)
  | x, .inf n => if x.isZero then (.nan false, Flag.iv) else (.inf (x.sign != n), 0)
  | .fin m p q, .fin n x y => (.fin (m != n) (p * x) (q * y), 0)

/-- A × B + C before its one rounding (R158). -/
def Num.fma (mode : Nat) (a b c : Num) : Num × Nat :=
  let zinf := (a.isZero && (match b with | .inf _ => true | _ => false)) ||
    (b.isZero && (match a with | .inf _ => true | _ => false))
  if zinf then (.nan false, Flag.iv)
  else if a.isNan || b.isNan || c.isNan then (.nan false, sigFlag [a, b, c])
  else Num.add mode (Num.mul a b).1 c

/-- A ÷ B (R158). -/
def Num.div (a b : Num) : Num × Nat :=
  match a, b with
  | .nan s, y => (.nan false, sigFlag [.nan s, y])
  | x, .nan s => (.nan false, sigFlag [x, .nan s])
  | .inf _, .inf _ => (.nan false, Flag.iv)
  | .inf m, y => (.inf (m != y.sign), 0)
  | .fin m _ _, .inf n => (.fin (m != n) 0 1, 0)
  | .fin m p q, .fin n x y =>
    if x = 0 then (if p = 0 then (.nan false, Flag.iv) else (.inf (m != n), Flag.dz))
    else (.fin (m != n) (p * y) (q * x), 0)

/-- The integer square root, bit by bit from 2^k. -/
def isqrtFrom (n : Nat) : Nat → Nat → Nat
  | 0, r => r
  | k + 1, r => if (r + 2 ^ k) * (r + 2 ^ k) ≤ n then isqrtFrom n k (r + 2 ^ k) else isqrtFrom n k r
def isqrt (n : Nat) : Nat := isqrtFrom n (n.log2 / 2 + 1) 0

/-- The root of n / d, cut below 2^-110 with a half added where something was cut: it rounds to F32 as
the exact root does. -/
def rootOf (n d : Nat) : Num :=
  let r := isqrt (n * 4 ^ 110 / d)
  .fin false (2 * r + (if r * r * d = n * 4 ^ 110 then 0 else 1)) (2 ^ 111)

/-- √A (R158). -/
def Num.sqrt : Num → Num × Nat
  | .nan s => (.nan false, sigFlag [.nan s])
  | .inf neg => if neg then (.nan false, Flag.iv) else (.inf false, 0)
  | .fin neg n d =>
    if n = 0 then (.fin neg 0 1, 0) else if neg then (.nan false, Flag.iv) else (rootOf n d, 0)

/-- 1 ÷ √A (R158). -/
def Num.rsqrt : Num → Num × Nat
  | .nan s => (.nan false, sigFlag [.nan s])
  | .inf neg => if neg then (.nan false, Flag.iv) else (.fin false 0 1, 0)
  | .fin neg n d =>
    if n = 0 then (.inf neg, Flag.dz) else if neg then (.nan false, Flag.iv) else (rootOf d n, 0)

/-! ### Powers and logarithms of 2: fixed point with 256 fraction bits. Log 20. -/

/-- Σ for k < n of z^(2k+1) / (2k+1), z in units of 2^-256. -/
def atanhSum (z : Nat) : Nat → Nat → Nat → Nat
  | 0, _, _ => 0
  | n + 1, k, p => p / (2 * k + 1) + atanhSum z n (k + 1) (p * z / 2 ^ 256 * z / 2 ^ 256)

/-- ln 2 = 2 atanh(1/3), in units of 2^-256. -/
def ln2Fix : Nat := 2 * atanhSum (2 ^ 256 / 3) 90 0 (2 ^ 256 / 3)

/-- e^x for x in units of 2^-256, by its series. -/
def expSum (x : Nat) : Nat → Nat → Nat → Nat
  | 0, _, _ => 0
  | n + 1, k, t => t + expSum x n (k + 1) (t * x / (2 ^ 256 * (k + 1)))

/-- 2^A (R158). An integer A is exact; A beyond ±200 rounds as ±200 does. (Log 20: DEDUCED, unsafe.) -/
def Num.exp2 : Num → Num × Nat
  | .nan s => (.nan false, sigFlag [.nan s])
  | .inf neg => if neg then (.fin false 0 1, 0) else (.inf false, 0)
  | .fin neg n d =>
    let n' := min n (200 * d)
    let x : Int := if neg then -(n' : Int) else n'
    let k := x.fdiv d
    let rem := (x - k * d).toNat
    if rem = 0 then (scaled false 1 k, 0)
    else
      let m := expSum (rem * ln2Fix / d) 80 0 (2 ^ 256)
      (scaled false (2 * m + 1) (k - 257), 0)

/-- log2 A (R158). A power of 2 is exact. -/
def Num.log2 : Num → Num × Nat
  | .nan s => (.nan false, sigFlag [.nan s])
  | .inf neg => if neg then (.nan false, Flag.iv) else (.inf false, 0)
  | .fin neg n d =>
    if n = 0 then (.inf true, Flag.dz) else if neg then (.nan false, Flag.iv)
    else
      let e := floorLog2 n d
      -- m = n / d / 2^e = p / q in [1, 2)
      let p := if 0 ≤ e then n else n * 2 ^ (-e).toNat
      let q := if 0 ≤ e then d * 2 ^ e.toNat else d
      if p = q then (.fin (decide (e < 0)) e.natAbs 1, 0)
      else
        let z := (p - q) * 2 ^ 256 / (p + q)
        let l : Nat := 2 * atanhSum z 90 0 z * 2 ^ 256 / ln2Fix
        let t : Int := e * 2 ^ 256 + (l : Int)
        (.fin (decide (t < 0)) (2 * t.natAbs + 1) (2 ^ 257), 0)

/-- The order of values: −1, 0 or 1 (NaNs compare as 0). −0 and +0 are equal. -/
def Num.cmp (a b : Num) : Int :=
  match a, b with
  | .nan _, _ => 0
  | _, .nan _ => 0
  | .inf m, .inf n => if m = n then 0 else if m then -1 else 1
  | .inf m, _ => if m then -1 else 1
  | _, .inf n => if n then 1 else -1
  | .fin m p q, .fin n x y =>
    let u : Int := (if m then -(p : Int) else p) * y - (if n then -(x : Int) else x) * q
    if u < 0 then -1 else if u = 0 then 0 else 1

end Sys2Proof.Machine
end

