-- ==== Sys2Proof/Machine/Float.lean ====
section
/-! DEFINITION. Floating-point instructions, conversions and block quantisation, OP 0x30 to 0x44 (R156 to
R165), and the cross-lane instructions that round (R168, R169). -/

namespace Sys2Proof.Machine

/-- Completes an instruction that raises flags (R131, R132): they are set in each Active lane that is
not a helper; a lane with an enabled one traps afterwards; watch sources 4 and 5 see them. `s0` is the
state the instruction read. -/
def State.raiseFlags (s s0 : State) (r : Group) (f : Fields) (sh : Shape) (r' : Group) (fl : Nat → Nat) : Res :=
  let ls := s0.contrib r f
  let s := ls.foldl (fun s l => s.setFpx r l (s0.fpxOf r l ||| BitVec.ofNat 32 (fl l % 256))) s
  let traps := (ls.filter fun l => fl l &&& bitsOf (s0.fpxOf r l) 23 16 != 0).map fun l =>
    s0.trapFrame r f sh l Code.fptrap 0 (BitVec.ofNat 32 (fl l))
  .ok s r' none
    [{ src := 4, lanes := ls, x := fun l => BitVec.ofNat 64 (fl l % 32) },
     { src := 5, lanes := ls, x := fun l => BitVec.ofNat 64 (fl l / 32 * 32) }] traps

/-- A per-lane instruction that writes one register and raises flags. -/
def floatOp (f : Fields) (sh : Shape) (s : State) (res : State → Group → Nat → W32 × Nat) :
    Host.Outcome State Fault Refusal :=
  issue 0 f sh s fun s _ r =>
    State.raiseFlags (s.writeV r (s.activeLanes r f) fun l => [(f.d.toNat, (res s r l).1)]) s r f sh (r.next f)
      fun l => (res s r l).2

def f32of (x : W32) : Num := fmtF32.read x.toNat
/-- Rounds an exact result to F32 under RM; its flags are added. -/
def toF32 (mode : Nat) (x : Num × Nat) : W32 × Nat :=
  let y := fmtF32.round mode false x.1
  (BitVec.ofNat 32 y.1, orFlags x.2 y.2)
/-- F.fn bits 1:0, the rounding field (R156). -/
def Fields.rm (f : Fields) : Nat := f.fnBits 1 0

def execFadd (f : Fields) (s : State) : Host.Outcome State Fault Refusal :=
  floatOp f (shapeF3 f 3) s fun s r l =>
    toF32 (Fields.rm f) (Num.add (Fields.rm f) (f32of (s.a32 r f l)) (f32of (s.b32 r f l)))

def execFsub (f : Fields) (s : State) : Host.Outcome State Fault Refusal :=
  floatOp f (shapeF3 f 3) s fun s r l =>
    toF32 (Fields.rm f) (Num.add (Fields.rm f) (f32of (s.a32 r f l)) (f32of (s.b32 r f l)).neg)

def execFmul (f : Fields) (s : State) : Host.Outcome State Fault Refusal :=
  floatOp f (shapeF3 f 3) s fun s r l =>
    toF32 (Fields.rm f) (Num.mul (f32of (s.a32 r f l)) (f32of (s.b32 r f l)))

def execFfma (f : Fields) (s : State) : Host.Outcome State Fault Refusal :=
  floatOp f (shapeF4 f 3) s fun s r l =>
    toF32 (Fields.rm f) (Num.fma (Fields.rm f) (f32of (s.a32 r f l)) (f32of (s.b32 r f l)) (f32of (s.c32 r f l)))

def execFdiv (f : Fields) (s : State) : Host.Outcome State Fault Refusal :=
  floatOp f (shapeF3 f 3) s fun s r l =>
    toF32 (Fields.rm f) (Num.div (f32of (s.a32 r f l)) (f32of (s.b32 r f l)))

def execFsqrt (f : Fields) (s : State) : Host.Outcome State Fault Refusal :=
  floatOp f (shapeF2 f 3) s fun s r l => toF32 (Fields.rm f) (f32of (s.a32 r f l)).sqrt

def execFrcp (f : Fields) (s : State) : Host.Outcome State Fault Refusal :=
  floatOp f (shapeF2 f 3) s fun s r l =>
    toF32 (Fields.rm f) (Num.div (.fin false 1 1) (f32of (s.a32 r f l)))

def execFrsq (f : Fields) (s : State) : Host.Outcome State Fault Refusal :=
  floatOp f (shapeF2 f 3) s fun s r l => toF32 (Fields.rm f) (f32of (s.a32 r f l)).rsqrt

def execFexp2 (f : Fields) (s : State) : Host.Outcome State Fault Refusal :=
  floatOp f (shapeF2 f 3) s fun s r l => toF32 (Fields.rm f) (f32of (s.a32 r f l)).exp2

def execFlog2 (f : Fields) (s : State) : Host.Outcome State Fault Refusal :=
  floatOp f (shapeF2 f 3) s fun s r l => toF32 (Fields.rm f) (f32of (s.a32 r f l)).log2

/-- minimumNumber and maximumNumber on bits (R159): −0 ranks below +0. -/
def fminBits (x y : W32) (greater : Bool) : W32 :=
  let a := f32of x
  let b := f32of y
  if a.isNan && b.isNan then 0x7FC00000
  else if a.isNan then y else if b.isNan then x
  else
    let less := decide (Num.cmp a b < 0) || (decide (Num.cmp a b = 0) && a.sign && !b.sign)
    if less != greater then x else y

def execFmin (f : Fields) (s : State) : Host.Outcome State Fault Refusal :=
  floatOp f (shapeF3 f 0) s fun s r l => (fminBits (s.a32 r f l) (s.b32 r f l) false, 0)

def execFmax (f : Fields) (s : State) : Host.Outcome State Fault Refusal :=
  floatOp f (shapeF3 f 0) s fun s r l => (fminBits (s.a32 r f l) (s.b32 r f l) true, 0)

/-- FCMP's conditions and flags (R159). -/
def fcond (c : Nat) (a b : Num) : Bool × Nat :=
  let un := a.isNan || b.isNan
  let k := Num.cmp a b
  let v := match c with
    | 0 => !un && decide (k = 0)
    | 1 => un || decide (k ≠ 0)
    | 2 => !un && decide (k < 0)
    | 3 => !un && decide (k ≤ 0)
    | 4 => !un && decide (0 < k)
    | 5 => !un && decide (0 ≤ k)
    | 6 => un
    | _ => !un
  (v, if 2 ≤ c && c ≤ 5 then (if un then Flag.iv else 0) else sigFlag [a, b])

def execFcmp (f : Fields) (s : State) : Host.Outcome State Fault Refusal :=
  issue 0 f (shapeFcmp f) s fun s _ r =>
    let t := fun l => fcond (f.fnBits 2 0) (f32of (s.a32 r f l)) (f32of (s.b32 r f l))
    State.raiseFlags (s.writeP r (s.activeLanes r f) f.d.toNat fun l => (t l).1) s r f (shapeFcmp f) (r.next f)
      fun l => (t l).2

/-- FRND (R159): no NX; the sign of a zero result is kept. -/
def frnd (mode : Nat) (x : W32) : W32 × Nat :=
  match f32of x with
  | .nan sg => (0x7FC00000, if sg then Flag.iv else 0)
  | .inf _ => (x, 0)
  | .fin neg n d => (BitVec.ofNat 32 (fmtF32.round 0 false (.fin neg (roundAt mode neg n d 0).1 1)).1, 0)

def execFrnd (f : Fields) (s : State) : Host.Outcome State Fault Refusal :=
  floatOp f (shapeF2 f 3) s fun s r l => frnd (Fields.rm f) (s.a32 r f l)

/-- FCLASS's bit (R159). -/
def fclass (x : W32) : W32 :=
  let n := x.toNat
  let neg := fmtF32.neg n
  let e := fmtF32.expo n
  let t := fmtF32.frac n
  let bit :=
    if e = 255 then
      (if t = 0 then (if neg then 0 else 7) else if t.testBit 22 then 9 else 8)
    else if e = 0 then
      (if t = 0 then (if neg then 3 else 4) else if neg then 2 else 5)
    else if neg then 1 else 6
  BitVec.ofNat 32 (2 ^ bit)

def execFclass (f : Fields) (s : State) : Host.Outcome State Fault Refusal :=
  floatOp f (shapeF2 f 0) s fun s r l => (fclass (s.a32 r f l), 0)

/-- One half of PFMA (R160). Under `.sat` an infinite exact result raises CS alone. -/
def pfmaHalf (t : FFmt) (mode : Nat) (sat : Bool) (a b c : Nat) : Nat × Nat :=
  let x := Num.fma mode (t.read a) (t.read b) (t.read c)
  let y := t.round mode sat x.1
  (y.1, orFlags x.2 y.2)

def execPfma (f : Fields) (s : State) : Host.Outcome State Fault Refusal :=
  floatOp f (shapeF4 f 15) s fun s r l =>
    let t := if f.fnBits 2 2 = 0 then fmtBF16 else fmtH16
    let a := (s.a32 r f l).toNat
    let b := (s.b32 r f l).toNat
    let c := (s.c32 r f l).toNat
    let go := pfmaHalf t (Fields.rm f) (f.fnBits 3 3 == 1)
    let lo := go (a % 65536) (b % 65536) (c % 65536)
    let hi := go (a / 65536) (b / 65536) (c / 65536)
    (BitVec.ofNat 32 (lo.1 + hi.1 * 65536), orFlags lo.2 hi.2)

/-! ### Conversions (R161, R162) -/

/-- A float select (R161). -/
def fsel (n : Nat) : FFmt :=
  match n with
  | 0 => fmtF32
  | 1 => fmtBF16
  | 2 => fmtH16
  | 3 => fmtE4M3
  | 4 => fmtE5M2
  | _ => fmtE2M1

/-- The rounding mode of a conversion: RND, where 0 means FMT.RND. -/
def Fields.cvtMode (f : Fields) (fmt : BitVec 16) : Nat :=
  if f.fnBits 8 7 = 0 then bitsOf fmt 15 14 else f.fnBits 8 7

/-- F2F (R162). Equal formats copy the bits, a NaN's too, and raise nothing. (Log 100: DEDUCED, unsafe.) -/
def f2f (dst src : FFmt) (mode : Nat) (sat : Bool) (x : Nat) : Nat × Nat :=
  let x := x % 2 ^ src.bits
  if dst = src then (x, 0)
  else
    let v := src.read x
    let y := dst.round mode sat v
    (y.1, orFlags (sigFlag [v]) y.2)

def execF2f (f : Fields) (s : State) : Host.Outcome State Fault Refusal :=
  floatOp f (shapeF2f f) s fun s r l =>
    let y := f2f (fsel (f.fnBits 5 3)) (fsel (f.fnBits 2 0)) (Fields.cvtMode f r.fmt) (f.fnBits 6 6 == 1)
      (s.a32 r f l).toNat
    (BitVec.ofNat 32 y.1, y.2)

/-- Width and signedness of a TY of R161. -/
def cvtTy (ty : Nat) : Nat × Bool :=
  match ty with
  | 0 => (32, true)
  | 1 => (32, false)
  | 2 => (64, true)
  | 3 => (64, false)
  | 4 => (16, true)
  | 5 => (16, false)
  | 6 => (8, true)
  | _ => (8, false)

def execF2i (f : Fields) (s : State) : Host.Outcome State Fault Refusal :=
  issue 0 f (shapeF2i f) s fun s _ r =>
    let ty := cvtTy (f.fnBits 5 3)
    let t := fsel (f.fnBits 2 0)
    let res := fun l =>
      let v := t.read ((s.a32 r f l).toNat % 2 ^ t.bits)
      let y := roundInt (Fields.cvtMode f r.fmt) (leastOf ty.1 ty.2) (greatestOf ty.1 ty.2) v
      (BitVec.ofInt 64 y.1, orFlags (sigFlag [v]) y.2)
    State.raiseFlags (s.writeV r (s.activeLanes r f) fun l =>
        if ty.1 = 64 then pieces f.d.toNat (halves (res l).1) else [(f.d.toNat, (res l).1.setWidth 32)])
      s r f (shapeF2i f) (r.next f) fun l => (res l).2

def execI2f (f : Fields) (s : State) : Host.Outcome State Fault Refusal :=
  floatOp f (shapeI2f f) s fun s r l =>
    let ty := cvtTy (f.fnBits 5 3)
    let x := valOf ty.1 ty.2 (s.srcW r (if ty.1 = 64 then 64 else 32) false f.ka f.a l)
    let y := (fsel (f.fnBits 2 0)).round (Fields.cvtMode f r.fmt) (f.fnBits 6 6 == 1)
      (.fin (decide (x < 0)) x.natAbs 1)
    (BitVec.ofNat 32 y.1, y.2)

/-! ### Block quantisation (R163 to R165) -/

/-- The integer element formats: width and signedness (R134). -/
def intElem (af : Nat) : Option (Nat × Bool) :=
  match af with
  | 0 => some (8, true)
  | 1 => some (8, false)
  | 2 => some (4, true)
  | 3 => some (4, false)
  | _ => none
/-- The floating element formats (R134). -/
def fltElem (af : Nat) : FFmt :=
  match af with
  | 4 => fmtE4M3
  | 5 => fmtE5M2
  | 6 => fmtE2M1
  | 7 => fmtBF16
  | 8 => fmtH16
  | _ => fmtF32

/-- QBLK and DQBLK accept AFMT 0 to 6 with an agreeing ASG, and GEOM 1 or 2 (R163, R135). -/
def blkFmtOk (fmt : BitVec 16) : Bool :=
  let af := bitsOf fmt 3 0
  let geom := bitsOf fmt 9 8
  decide (af ≤ 6) && (geom == 1 || geom == 2) &&
    (match intElem af with | some (_, sg) => bitOf fmt 10 == sg | none => true)

/-- The lanes of lane `l`'s scale group (R163). -/
def blkLanes (geom l : Nat) : List Nat :=
  if geom = 1 then (List.range 16).map (· + l / 16 * 16) else allLanes

/-- The greatest finite value of AFMT (R164). -/
def qmax (af : Nat) : Nat :=
  match af with
  | 0 => 127
  | 1 => 255
  | 2 => 7
  | 3 => 15
  | 4 => 448
  | 5 => 57344
  | _ => 6

/-- The scale for a greatest magnitude p / q (R164): its byte and its value. -/
def blkScale (sfmt af p q : Nat) : Nat × Nat × Nat :=
  if p = 0 then (0, 0, 1)
  else
    let d := q * qmax af
    if sfmt = 1 then
      let e := floorLog2 p d
      let le := if 0 ≤ e then d * 2 ^ e.toNat = p else d = p * 2 ^ (-e).toNat
      let k := satInt (if le then e else e + 1) (-127) 127
      ((k + 127).toNat, if 0 ≤ k then (2 ^ k.toNat, 1) else (1, 2 ^ (-k).toNat))
    else
      -- the least UE4M3 value not below the quotient: rounded up, at least 2^-9, at most 448
      let b := min (max (fmtE4M3.round 2 false (.fin false p d)).1 1) 0x7E
      match fmtE4M3.read b with
      | .fin _ n m => (b, n, m)
      | _ => (b, 0, 1)

/-- An integer element as it stands in a register (R126): floating ones zero-extended. -/
def elemReg (x : Int × Nat) : W32 × Nat := (BitVec.ofInt 32 x.1, x.2)

/-- One lane's quantised element (R164, R126). The rounded value is the one judged: a negative value that rounds to 0
under a NAT format gives 0 and NX, not CS (log 113: DEDUCED, unsafe). -/
def quantElem (af mode : Nat) (x : Num) (sn sd : Nat) : W32 × Nat :=
  if sn = 0 then (0, 0)
  else
    let y : Num := match x with
      | .fin neg n d => .fin neg (n * sd) (d * sn)
      | z => z
    match intElem af with
    | some (w, sg) => elemReg (roundInt mode (leastOf w sg) (greatestOf w sg) y)
    | none => let z := (fltElem af).round mode true y; (BitVec.ofNat 32 z.1, z.2)

/-- The magnitude of the greatest contributing value, as a fraction. -/
def amaxOf (xs : List Num) : Nat × Nat :=
  xs.foldl (fun m x => match x with
    | .fin _ n d => if m.1 * d < n * m.2 then (n, d) else m
    | _ => m) (0, 1)

def Num.isFinite : Num → Bool
  | .fin _ _ _ => true
  | _ => false

/-- Log 69: DEDUCED, unsafe. -/
def execQblk (f : Fields) (s : State) : Host.Outcome State Fault Refusal :=
  issue 0 f (shapeQblk f) s fun s _ r =>
    if !blkFmtOk r.fmt then .fatal { code := Code.fmtx }
    else
      let af := bitsOf r.fmt 3 0
      let sf := bitsOf r.fmt 13 12
      let con := s.contrib r f
      let val := fun l => f32of (s.a32 r f l)
      -- a lane's element, its scale byte, its flags; none in a group without a contributing lane
      let res : Nat → Option (W32 × W32 × Nat) := fun l =>
        let ls := (blkLanes (bitsOf r.fmt 9 8) l).filter con.contains
        if ls.isEmpty then none
        else if (ls.map val).all Num.isFinite then
          let m := amaxOf (ls.map val)
          let sc := blkScale sf af m.1 m.2
          let y := quantElem af (bitsOf r.fmt 15 14) (val l) sc.2.1 sc.2.2
          some (y.1, BitVec.ofNat 32 sc.1, y.2)
        else some (0, if sf = 1 then 0xFF else 0x7F, Flag.iv)
      let s' := s.writeV r (s.activeLanes r f) fun l =>
        match res l with
        | some (d, c, _) => [(f.d.toNat, d), (f.c.toNat, c)]
        | none => []
      State.raiseFlags s' s r f (shapeQblk f) (r.next f) fun l =>
        match res l with | some (_, _, fl) => fl | none => 0

/-- A scale byte (R136): its value, or a NaN with the flag SS for a sign-set UE4M3 byte. -/
def scaleOf (sfmt x : Nat) : Num × Nat :=
  if sfmt = 1 then (if x = 255 then (.nan false, 0) else (scaled false 1 ((x : Int) - 127), 0))
  else if 128 ≤ x then (.nan false, Flag.ss)
  else (fmtE4M3.read x, 0)

/-- The value of an element in a register. -/
def elemVal (af : Nat) (x : W32) : Num :=
  match intElem af with
  | some (w, sg) => let v := valOf w sg (x.setWidth 64); .fin (decide (v < 0)) v.natAbs 1
  | none => let t := fltElem af; t.read (x.toNat % 2 ^ t.bits)

/-- One element times its scale (R165). -/
def dequant (af sfmt : Nat) (x : W32) (sb : Nat) : W32 × Nat :=
  let sc := scaleOf sfmt sb
  if sc.1.isNan then (0x7FC00000, orFlags Flag.iv sc.2)
  else if (elemVal af x).isNan then (0x7FC00000, 0)
  else toF32 0 (Num.mul (elemVal af x) sc.1)

def execDqblk (f : Fields) (s : State) : Host.Outcome State Fault Refusal :=
  issue 0 f (shapeDqblk f) s fun s _ r =>
    if !blkFmtOk r.fmt then .fatal { code := Code.fmtx }
    else
      let act := s.activeLanes r f
      let res := fun l =>
        let lead := ((blkLanes (bitsOf r.fmt 9 8) l).filter act.contains).headD l
        dequant (bitsOf r.fmt 3 0) (bitsOf r.fmt 13 12) (s.a32 r f l)
          ((s.src32 r f.u f.kc f.c lead).toNat % 256)
      State.raiseFlags (s.writeV r act fun l => [(f.d.toNat, (res l).1)]) s r f (shapeDqblk f) (r.next f)
        fun l => (res l).2

/-! ### Cross-lane instructions that round (R168, R169) -/

def addF32 (x y : W32) : W32 × Nat := toF32 0 (Num.add 0 (f32of x) (f32of y))

def execQdiff (f : Fields) (s : State) : Host.Outcome State Fault Refusal :=
  floatOp f (shapeQdiff f) s fun s r l =>
    let step := if f.fn.toNat % 2 = 0 then 1 else 2
    let b := if f.fn.toNat < 2 then l else l - l % 4
    let lo := if b / step % 2 = 1 then b - step else b
    toF32 0 (Num.add 0 (f32of (s.laneA r f (lo + step))) (f32of (s.laneA r f lo)).neg)

/-- Two nodes of REDG's tree. -/
def nodeAdd : Option W32 → Option W32 → Option W32 × Nat
  | some x, some y => let z := addF32 x y; (some z.1, z.2)
  | some x, none => (some x, 0)
  | none, y => (y, 0)

/-- One level of the tree: neighbours combined. -/
def nodeLevel : List (Option W32) → List (Option W32) × Nat
  | x :: y :: t =>
    let z := nodeAdd x y
    let u := nodeLevel t
    (z.1 :: u.1, orFlags z.2 u.2)
  | l => (l, 0)

/-- The tree of R169 for `.add.f32`: the sum and the flags of every rounding. -/
def treeSum : Nat → List (Option W32) → Option W32 × Nat
  | 0, l => (l.headD none, 0)
  | k + 1, l =>
    let u := nodeLevel l
    let v := treeSum k u.1
    (v.1, orFlags u.2 v.2)

/-- REDG (R169). Codes 9 and 10 combine with their identity, so a NaN result is the canonical NaN.
(Log 101: DEDUCED, unsafe.) -/
def execRedg (f : Fields) (s : State) : Host.Outcome State Fault Refusal :=
  issue 0 f (shapeRedg f) s fun s _ r =>
    let con := s.contrib r f
    let xs := con.map fun l => s.laneA r f l
    let code := f.fn.toNat
    let res : W32 × Nat :=
      if code = 8 then
        let t := treeSum 5 (allLanes.map fun l => if con.contains l then some (s.laneA r f l) else none)
        let sig := if xs.any (fun x => (f32of x).isSig) then Flag.iv else 0
        match t.1 with
        | none => (redId 8, 0)
        | some x => (if (f32of x).isNan then 0x7FC00000 else x, orFlags sig t.2)
      else if code < 8 then (xs.foldl (redOp code) (redId code), 0)
      else (xs.foldl (fun a b => fminBits a b (code = 10)) (redId code), 0)
    State.raiseFlags (s.setG r f.d.toNat (res.1.setWidth 64)) s r f (shapeRedg f) (r.next f) fun _ => res.2

/-- A scan over the contributing lanes: each lane's running value before and after it, and the flags of
the addition that its value takes part in (R169). Under `.excl` the last lane's addition is made too, and raises its
flags there (log 129: DESIGN CHOICE, unsafe). -/
def scanOf (code : Nat) (val : Nat → W32) : List Nat → W32 → List (Nat × W32 × W32 × Nat)
  | [], _ => []
  | l :: t, acc =>
    let z := if code = 8 then addF32 acc (val l) else (redOp code acc (val l), 0)
    (l, acc, z.1, z.2) :: scanOf code val t z.1

def execScang (f : Fields) (s : State) : Host.Outcome State Fault Refusal :=
  floatOp f (shapeScang f) s fun s r l =>
    let code := f.fnBits 3 0
    match (scanOf code (fun x => s.laneA r f x) (s.contrib r f) (redId code)).find? fun e => e.1 = l with
    | some e => (if f.fnBits 4 4 = 1 then e.2.1 else e.2.2.1, e.2.2.2)
    | none => (redId code, 0)

end Sys2Proof.Machine
end

