-- ==== Sys2Proof/Machine/Device.lean ====
section
/-! DEFINITION. Interrupts and the Granary's event log (R373, R386). -/

namespace Sys2Proof.Machine

/-- Raises an MSI-X vector: sent, or pending while masked (R373). -/
def State.vector (s : State) (v : Nat) : State :=
  let m := s.dev.msix
  let m := if bitOf m.mask v then { m with pending := setBit m.pending v true } else { m with sent := m.sent ++ [v] }
  { s with dev := { s.dev with msix := m } }

/-! The codes of the event log (R386). -/
namespace LogCode
def duplicate := 1
def planeFailed := 2
def engineReset := 3
def clockStep := 4
def corrected := 5
def uncorrectable := 6
def linkRetry := 7
def firmware := 8
def thermal := 9
end LogCode

def bytesLe : Nat → Nat → List Byte
  | 0, _ => []
  | n + 1, x => BitVec.ofNat 8 x :: bytesLe n (x / 256)

/-- Appends a record to the event log, a ring of 131,072 records. Its data bytes, and a count or source
the manual gives no value, are free values (log 4: DESIGN CHOICE, safe). Codes 6, 7 and 9 raise vector 0. -/
def State.logEvent (s : State) (code : Nat) (source count : Option Nat) : State :=
  let (x, s) := s.free
  let (y, s) := s.free
  let (z, s) := s.free
  let rec_ := bytesLe 8 s.dev.hb.toNat ++ bytesLe 2 code ++ bytesLe 2 (source.getD (bitsOf z 15 0)) ++
    bytesLe 4 (count.getD (bitsOf z 63 32)) ++ bytesLe 8 x.toNat ++ bytesLe 8 y.toNat
  let g := s.dev.granary
  let log := g.log ++ [rec_]
  let g := if 131072 < log.length then { g with log := log.drop 1, logFirst := g.logFirst + 1 } else { g with log := log }
  let s := { s with dev := { s.dev with granary := g } }
  if code = 6 || code = 7 || code = 9 then s.vector 0 else s

end Sys2Proof.Machine
end

