-- ==== Sys2Proof/Machine/Access.lean ====
section
/-! DEFINITION. Memory: bytes at their home, translation and its checks (R293 to R297), the view, and
the checks every lane of a memory instruction passes (R226). -/

namespace Sys2Proof.Machine

/-! ### Bytes at home (R211) -/

/-- The byte at a physical address. Keys from 2^52 hold the pages of compressible leaves (R303): 2^52 +
4 × (first sector's address) + the byte's offset in the page; keys from 2^58 hold pool memory (R372); keys
from 2^62 are pages without a sector. -/
def State.byte (s : State) (pa : Nat) : Byte := tget 0 s.mem pa
def State.bytes (s : State) (pa n : Nat) : List Byte := (List.range n).map fun i => s.byte (pa + i)
/-- Little-endian (R2). -/
def leNat : List Byte → Nat
  | [] => 0
  | b :: t => b.toNat + 256 * leNat t
def leBytes : Nat → Nat → List Byte
  | 0, _ => []
  | n + 1, x => BitVec.ofNat 8 x :: leBytes n (x / 256)
def State.word (s : State) (pa n : Nat) : Nat := leNat (s.bytes pa n)
/-- Writes bytes at home. -/
def State.store (s : State) (pa : Nat) (bs : List Byte) : State :=
  { s with mem := tsetMany 0 s.mem ((List.range bs.length).map fun i => (pa + i, bs.getD i 0)) }
def State.storeCells (s : State) (cs : List (Nat × Byte)) : State := { s with mem := tsetMany 0 s.mem cs }
def State.storeWord (s : State) (pa n x : Nat) : State := s.store pa (leBytes n x)
/-- Host memory (R374), reached through port 0. -/
def State.hword (s : State) (a n : Nat) : Nat := leNat ((List.range n).map fun i => tget 0 s.hostMem (a + i))
def State.hstore (s : State) (a : Nat) (bs : List Byte) : State :=
  { s with hostMem := tsetMany 0 s.hostMem ((List.range bs.length).map fun i => (a + i, bs.getD i 0)) }

/-! ### Regions of the physical space -/

/-- LSTORE (R256, R383). -/
def State.lstore (s : State) : Nat := s.dev.granary.memb / 32
/-- Whether [pa, pa + n) meets the lattice store. -/
def State.inLattice (s : State) (pa n : Nat) : Bool :=
  decide (pa < s.dev.granary.memb) && decide (s.dev.granary.memb - s.lstore < pa + n)
/-- The enabled pool windows (R372): port, first byte, size, and the address the port sends for the first
byte. -/
def State.poolWins (s : State) : List (Nat × Nat × Nat × Nat) :=
  (List.range 16).filterMap fun i =>
    let o := 0x4E00 + 32 * i
    if bitOf (s.ctlw o) 63 then
      some (i / 4, bitsOf (s.ctlw o) 51 28 * 2 ^ 28, bitsOf (s.ctlw (o + 16)) 15 0 * 2 ^ 28,
        bitsOf (s.ctlw (o + 8)) 51 28 * 2 ^ 28)
    else none
/-- Whether one enabled window holds all of [pa, pa + n). -/
def State.poolHolds (s : State) (pa n : Nat) : Bool :=
  s.poolWins.any fun w => w.2.1 ≤ pa && pa + n ≤ w.2.1 + w.2.2.1
/-- Whether an enabled window meets [pa, pa + n). -/
def State.poolMeets (s : State) (pa n : Nat) : Bool :=
  s.poolWins.any fun w => w.2.1 < pa + n && pa < w.2.1 + w.2.2.1
def State.inPool (s : State) (pa : Nat) : Bool := s.poolHolds pa 1
/-- The key of the control block's first byte (R371). -/
def blockKey : Nat := 2 ^ 61
/-- Whether a key is a byte of the control block. -/
def isBlockKey (k : Nat) : Bool := decide (blockKey ≤ k) && decide (k < blockKey + 2 ^ 26)
/-- Where the byte of a device physical address is kept: a byte in a pool window under the port, at
HBASE + (A − DBASE), in keys from 2^58 (R372); one of the control block at its offset, in keys from 2^61 (log 16: DESIGN
CHOICE, unsafe); another under its own address. -/
def State.home (s : State) (pa : Nat) : Nat :=
  match s.poolWins.find? fun w => w.2.1 ≤ pa && pa < w.2.1 + w.2.2.1 with
  | some w => 2 ^ 58 + w.1 * 2 ^ 52 + (w.2.2.2 + (pa - w.2.1)) % 2 ^ 52
  | none =>
    let b := s.dev.granary.blockAt
    if b ≤ pa && pa < b + 2 ^ 26 then blockKey + (pa - b) else pa
/-- Whether a key is pool memory's. -/
def isPoolKey (k : Nat) : Bool := decide (2 ^ 58 ≤ k) && decide (k < 2 ^ 60)
/-- Whether a key is a byte's own place, not one of a compressible page. -/
def plainKey (k : Nat) : Bool := decide (k < 2 ^ 52) || isPoolKey k
/-- A word at a device physical address, and writing one. -/
def State.pword (s : State) (pa n : Nat) : Nat := s.word (s.home pa) n
def State.pstore (s : State) (pa n x : Nat) : State := s.storeWord (s.home pa) n x
/-- Peer memory (R370). -/
def isPeer (pa : Nat) : Bool := pa / 2 ^ 51 % 2 == 1 && decide (pa < 2 ^ 52)
/-- Whether a load or store of a place leaves this device's memory: for a peer's, or for the control block (R371). -/
def isAway (pa : Nat) : Bool := isPeer pa || isBlockKey pa
/-- Whether a place is reached over a link: a peer's memory, or a pool device's (R302, R370). -/
def overLink (pa : Nat) : Bool := isPeer pa || isPoolKey pa
/-- Whether a peer address may be accessed: its device is in DOMMAP and is not this one (R370). -/
def State.peerOk (s : State) (pa : Nat) : Bool :=
  let id := pa / 2 ^ 45 % 64
  id != bitsOf (s.ctlw 0x4818) 5 0 && bitOf (s.ctlw 0x4828) id

/-- Whether the device's own reads and writes reach a place: an address on a peer that DOMMAP does not give is ADDRV
(R370). -/
def State.answers (s : State) (pa : Nat) : Bool := !isPeer (s.home pa) || s.peerOk (s.home pa)

/-! ### Page tables (R293, R294) -/

/-- The registered region of an ASID that holds a virtual address (R295): its descriptor, the byte's
offset in it. -/
def State.region? (s : State) (asid va : Nat) : Option (Nat × Nat) :=
  (s.regions.find? fun e => e.2.asid = asid && e.2.base ≤ va && va < e.2.base + 64 * e.2.lines).map
    fun e => (e.1, va - e.2.base)

/-- Whether an address lies in the range of a region that has been deregistered, where every access is ADDRV (R255;
until when is left open: until a region is registered there, or its ASID disabled, log 107: DESIGN CHOICE, unsafe). -/
def State.goneAt (s : State) (asid va : Nat) : Bool :=
  s.goneRanges.any fun e => e.1 == asid && decide (e.2.1 ≤ va) && decide (va < e.2.2)

/-- The enabled compression region of a page (R303). -/
def State.cregion? (s : State) (asid va : Nat) : Option Nat :=
  (List.range 64).find? fun i =>
    let w := s.ctlw (0x3C00 + 32 * i)
    let n := bitsOf (s.ctlw (0x3C00 + 32 * i + 8)) 18 0
    let b := bitsOf w 47 12
    bitOf w 63 && bitsOf w 59 48 == asid && decide (b ≤ va / 4096) && decide (va / 4096 < b + n)

/-- Page size of a leaf at a level. -/
def pageSize (lvl : Nat) : Nat := 2 ^ (12 + 9 * (lvl - 1))

/-- Whether an entry met at a level is malformed (R294). -/
def State.malformed (s : State) (asid va lvl : Nat) (e : W64) : Bool :=
  let leaf := bitOf e 1
  let cmp := bitOf e 7
  let frame := bitsOf e 51 12 * 4096
  let sect := bitsOf e 53 12 * 1024
  let csz := bitsOf e 56 54
  bitsOf e 63 57 != 0 || bitsOf e 11 9 != 0 || (bitOf e 4 && (bitOf e 6 || bitOf e 5)) ||
  (bitOf e 0 &&
    ((!(leaf && cmp) && (csz != 0 || bitsOf e 53 52 != 0)) ||
     (leaf && lvl == 4) || (!leaf && lvl == 1) || (!leaf && bitsOf e 8 2 != 0) ||
     (leaf && !cmp && frame % pageSize lvl != 0) ||
     (cmp && (lvl != 1 || bitOf e 8 || bitOf e 3)) ||
     (bitOf e 3 && !bitOf e 4) || decide (4 < csz) ||
     (leaf && cmp && decide (4096 < sect % 4096 + 1024 * csz)) ||
     (leaf && cmp && (s.cregion? asid va).isNone) ||
     (leaf && !cmp && bitOf e 8 && !s.poolHolds frame (pageSize lvl)) ||
     (leaf && !cmp && !bitOf e 8 && s.poolMeets frame (pageSize lvl)) ||
     (leaf && cmp && csz != 0 && s.poolMeets sect (1024 * csz)) ||
     (leaf && !cmp && s.inLattice frame (pageSize lvl)) ||
     (leaf && cmp && csz != 0 && s.inLattice sect (1024 * csz))))

/-- What a walk comes to: a leaf (entry, level, its address), or the entry and level that stop it, with
whether the fault is replayable. -/
inductive Walk where
  | leaf (e : W64) (lvl ea : Nat)
  | stop (e : W64) (lvl : Nat) (pend : Bool)

/-- The walk from a table at `lvl` (R293, R294 steps 1 to 3); a table on a peer that may not be accessed stops it
(R370). -/
def State.walk (s : State) (asid va : Nat) : Nat → Nat → Walk
  | 0, _ => .stop 0 0 false
  | lvl + 1, tab =>
    let ea := tab + 8 * (va / 2 ^ (12 + 9 * lvl) % 512)
    let e := BitVec.ofNat 64 (s.pword ea 8)
    if !s.answers tab then .stop 0 (lvl + 1) false
    else if s.malformed asid va (lvl + 1) e then .stop e (lvl + 1) false
    else if !bitOf e 0 then .stop e (lvl + 1) (bitOf e 5 && !bitOf e 4)
    else if bitOf e 1 then .leaf e (lvl + 1) ea
    else s.walk asid va lvl (bitsOf e 51 12 * 4096)

/-- The root of an ASID's tables (R290). -/
def State.rootOf (s : State) (asid : Nat) : Nat := bitsOf (s.asidt asid) 51 12 * 4096

/-- The entries that the walk reads, by their addresses. -/
def State.walkPath (s : State) (asid va : Nat) : Nat → Nat → List Nat
  | 0, _ => []
  | lvl + 1, tab =>
    let ea := tab + 8 * (va / 2 ^ (12 + 9 * lvl) % 512)
    let e := BitVec.ofNat 64 (s.pword ea 8)
    if !s.answers tab then []
    else if s.malformed asid va (lvl + 1) e || !bitOf e 0 || bitOf e 1 then [ea]
    else ea :: s.walkPath asid va lvl (bitsOf e 51 12 * 4096)

/-- The key of a leaf of level `lvl` in a TLB: its ASID, its first page, its level. -/
def tlbKey (asid lvl va : Nat) : Nat :=
  (asid * 2 ^ 36 + va / pageSize lvl * (pageSize lvl / 4096) % 2 ^ 36) * 4 + lvl
/-- The leaf a TLB holds for an address, of whatever page size. -/
def tlbFind (t : Tab (W64 × Nat × Nat)) (asid va : Nat) : Option (W64 × Nat × Nat) :=
  [1, 2, 3].findSome? fun lvl => tfind t (tlbKey asid lvl va)
/-- A cache of `cap` entries takes one; where it is full, another leaves. -/
def tabFill {α : Type} (cap : Nat) (t : Tab α) (k : Nat) (x : α) : Tab α :=
  let t' := tput t k x
  if cap < t'.length then t'.eraseP fun e => e.1 != k else t'
/-- Whether a TLB's key names a page that meets the page of level `lvl` at an address. -/
def tlbMeets (asid va lvl k : Nat) : Bool :=
  let p := k / 4 % 2 ^ 36
  let q := va / pageSize lvl * (pageSize lvl / 4096) % 2 ^ 36
  k / 4 / 2 ^ 36 == asid && decide (p < q + pageSize lvl / 4096) && decide (q < p + pageSize (k % 4) / 4096)

/-- The leaf for a page as core `core` looks it up (R296): its TLB, the die's, then the walk; and whether a
TLB gave it. `refetch` passes over the TLBs. (Log 40: DESIGN CHOICE, safe.) -/
def State.lookupHit (s : State) (core asid va : Nat) : Option (W64 × Nat × Nat) :=
  if s.refetch then none
  else match tlbFind (s.core core).tlb asid va with
    | some x => some x
    | none => tlbFind ((tfind s.dies (dieOf core)).getD {}).tlb asid va
def State.lookup (s : State) (core asid va : Nat) : Walk :=
  match s.lookupHit core asid va with
  | some x => .leaf x.1 x.2.1 x.2.2
  | none => s.walk asid va 4 (s.rootOf asid)

/-- The physical place of a byte under a leaf that stands at `ea`. A compressible page without a sector
(R303) has a place of its own, which always reads as zero. -/
def placeOf (e : W64) (lvl ea va : Nat) : Nat :=
  if bitOf e 7 then
    (if bitsOf e 56 54 = 0 then 2 ^ 62 + ea * 512 else 2 ^ 52 + bitsOf e 53 12 * 4096) + va % 4096
  else bitsOf e 51 12 * 4096 + va % pageSize lvl

/-- What an access meets. -/
inductive Tr where
  | ok (pa : Nat) (e : W64)
  | lattice (desc off : Nat)
  | fault (fr : FRec)

/-! An access's kinds (R305). -/

namespace Acc
def load := 0
def store := 1
def atomic := 2
def fetch := 3
def cpyRead := 4
def cpyWrite := 5
def engRead := 6
def engWrite := 7
def future := 8
def spawn := 9
def queue := 10
def push := 11
end Acc

/-- Whether a write of this kind reads the bytes too: an atomic's, a future's. -/
def readsToo (acc : Nat) : Bool := acc == Acc.atomic || acc == Acc.future

/-- Translates one byte's address and checks the permission (R294, R295). `x`: a fetch. -/
def State.translate (s : State) (core asid va acc : Nat) (write x : Bool) : Tr :=
  let bad := fun (e : W64) (lvl : Nat) =>
    Tr.fault { code := Code.addrv, acc := acc, lvl := lvl, asid := asid, va := BitVec.ofNat 64 va, pte := e }
  let pend := fun (e : W64) (lvl : Nat) =>
    Tr.fault { code := Code.pagef, acc := acc, lvl := lvl, asid := asid, va := BitVec.ofNat 64 va, pte := e }
  if 2 ^ 48 ≤ va then bad 0 0
  else if !s.asidLive asid then bad 0 0
  else match s.region? asid va with
    | some (d, o) => .lattice d o
    | none =>
      if s.goneAt asid va then bad 0 0 else
      match s.lookup core asid va with
      | .stop e lvl p => if p then pend e lvl else bad e lvl
      | .leaf e lvl ea =>
        let pa := s.home (placeOf e lvl ea va)
        if write && !bitOf e 2 then (if bitOf e 6 then pend e lvl else bad e lvl)
        else if x && !(bitOf e 3 && bitOf e 4) then bad e lvl
        else if isPeer pa && !s.peerOk pa then bad e lvl
        -- only loads and stores reach a register of the control block (R371; log 16: DESIGN CHOICE, unsafe)
        else if isBlockKey pa && acc != Acc.load && acc != Acc.store then bad e lvl
        else if bitOf e 7 && bitsOf e 56 54 != 0 && (!write || readsToo acc) && !(tget false s.images (pa / 4096)) then
          .fault { code := Code.compbad, acc := acc, lvl := lvl, asid := asid, va := BitVec.ofNat 64 va, pte := e,
                   creg := (s.cregion? asid va).getD 0 }
        else .ok pa e

/-! ### Soft errors (R337) -/

/-- Whether a read of [pa, pa + n) meets an uncorrectable error. (Log 41: DESIGN CHOICE, unsafe.) -/
def State.uncorrectable (s : State) (pa n : Nat) : Bool :=
  s.softErr.any fun e => e.2 && decide (pa / 16 ≤ e.1) && decide (e.1 ≤ (pa + n - 1) / 16)
/-- The bytes of device memory that a read of [pa, pa + n) under a leaf takes: of a compressible page, its
whole image. -/
def leafSpan (e : W64) (pa n : Nat) : Nat × Nat :=
  if bitOf e 7 then (bitsOf e 53 12 * 1024, 1024 * bitsOf e 56 54) else (pa, n)
/-- Whether a read under a leaf meets an uncorrectable error. -/
def State.leafError (s : State) (e : W64) (pa n : Nat) : Bool :=
  (leafSpan e pa n).2 != 0 && s.uncorrectable (leafSpan e pa n).1 (leafSpan e pa n).2
/-- A correctable error that a read meets is corrected, counted and logged (R337, R386; when a count is
logged is left open, log 86: DESIGN CHOICE, safe). -/
def State.correct (s : State) (pa n : Nat) : State :=
  let hit := s.softErr.filter fun e => !e.2 && decide (pa / 16 ≤ e.1) && decide (e.1 ≤ (pa + n - 1) / 16)
  if hit.isEmpty then s else
  let k := s.dev.granary.corrected + hit.length
  ({ s with softErr := s.softErr.filter fun e => e.2 || !(pa / 16 ≤ e.1 && e.1 ≤ (pa + n - 1) / 16),
            dev := { s.dev with granary := { s.dev.granary with corrected := k } } } : State).logEvent
    LogCode.corrected none (some k)
/-- A read that is no group's, copy's, pass's or drain's: a correctable error is corrected; an uncorrectable
one is logged, and its frame withdrawn from use. -/
def State.readElsewhere (s : State) (pa n : Nat) : State :=
  let s := s.correct pa n
  if !s.uncorrectable pa n then s else
  let g := s.dev.granary
  let w := if g.withdrawn.contains (pa / 4096) then g.withdrawn else g.withdrawn ++ [pa / 4096]
  ({ s with dev := { s.dev with granary := { g with withdrawn := w } } } : State).logEvent LogCode.uncorrectable none none

/-- The reads of a walk. -/
def State.walkReads (s : State) (asid va : Nat) : State :=
  if s.softErr.isEmpty then s else
    (s.walkPath asid va 4 (s.rootOf asid)).foldl (fun s a => s.readElsewhere (s.home a) 8) s

/-- The 4 KiB frame whose heat counter a sampled translation raises: none for a page without a sector, and
none of this device's for a peer's (R297). -/
def heatOf (e : W64) (pa : Nat) : Option Nat :=
  if bitOf e 7 then (if bitsOf e 56 54 = 0 then none else some (bitsOf e 53 12 / 4))
  else if isPeer pa then none else some (pa / 4096)

/-- The sampling count after a translation that is counted; the one that brings it from 63 to 0 is sampled (R297). -/
def Core.counted (c : Core) (e : W64) (pa : Nat) : Core :=
  { c with sample := c.sample + 1,
           samples := if c.sample = 63 then c.samples ++ (heatOf e pa).toList else c.samples }

/-- A successful translation of a page: the walk's reads where no TLB gave the leaf; the TLBs take the leaf
(R296: 256 and 4,096 entries); one of R296's own is counted (R297), a fetch's is not. A lattice page is not looked up
(R295). -/
def State.lookedUp (s : State) (count : Bool) (core asid va : Nat) : State :=
  if (s.region? asid va).isSome then s else
  match s.lookup core asid va with
  | .stop _ _ _ => s
  | .leaf e lvl ea =>
    let k := tlbKey asid lvl va
    let s := if (s.lookupHit core asid va).isSome then s else s.walkReads asid va
    let s := if bitOf e 7 && bitsOf e 56 54 != 0 then s.correct (leafSpan e 0 0).1 (leafSpan e 0 0).2 else s
    let c := if count then (s.core core).counted e (placeOf e lvl ea va) else s.core core
    let s := s.putCore core { c with tlb := tabFill 256 c.tlb k (e, lvl, ea) }
    let d := (tfind s.dies (dieOf core)).getD {}
    { s with dies := tput s.dies (dieOf core) { d with tlb := tabFill 4096 d.tlb k (e, lvl, ea) } }
/-- A translation of an instruction, a copy, a pass or a drain. -/
def State.translated (s : State) (core asid va : Nat) : State := s.lookedUp true core asid va

/-- Each distinct page once, in increasing address order (R296). -/
def insertNat (x : Nat) : List Nat → List Nat
  | [] => [x]
  | y :: t => if x < y then x :: y :: t else if x = y then y :: t else y :: insertNat x t
def sortNat (l : List Nat) : List Nat := l.foldr insertNat []
def State.translatedAll (s : State) (core asid : Nat) (vas : List Nat) : State :=
  (sortNat (vas.map (· / 4096))).foldl (fun s p => s.translated core asid (p * 4096)) s

/-! ### The view (R211, R213) -/

def State.viewLine? (s : State) (core pa : Nat) : Option (List Byte) := tfind (s.core core).view (pa / 64)
def State.emptyView (s : State) (core : Nat) : State := s.modCore core fun c => { c with view := [] }
def State.dropLine (s : State) (core line : Nat) : State :=
  s.modCore core fun c => { c with view := tdel c.view line }
/-- The issuing core's view copies of the bytes written are updated (R213). -/
def State.updateView (s : State) (core : Nat) (cs : List (Nat × Byte)) : State :=
  s.modCore core fun c => { c with view := cs.foldl (fun v e => tmod v (e.1 / 64) fun l => l.set (e.1 % 64) e.2) c.view }
/-- A group has read bytes at home: its core's view holds no older ones (R223). -/
def State.readHome (s : State) (core : Nat) (pas : List Nat) : State :=
  pas.foldl (fun s pa => s.dropLine core (pa / 64)) s
/-- Places a copy of the line that holds `pa`. (Log 6: DESIGN CHOICE, safe.) -/
def State.placeLine (s : State) (core pa : Nat) : State :=
  s.modCore core fun c => { c with view := tput c.view (pa / 64) (s.bytes (pa / 64 * 64) 64) }

/-! ### Scratch (R74, R228) -/

def scrKey (uid off : Nat) : Nat := uid * 2 ^ 20 + off
def State.sbyte (s : State) (uid off : Nat) : Byte := tget 0 s.scratch (scrKey uid off)
def State.sbytes (s : State) (uid off n : Nat) : List Byte := (List.range n).map fun i => s.sbyte uid (off + i)
def State.sstore (s : State) (uid off : Nat) (bs : List Byte) : State :=
  { s with scratch := tsetMany 0 s.scratch ((List.range bs.length).map fun i => (scrKey uid (off + i), bs.getD i 0)) }

/-- The crew whose scratch an address names (R74, R228): the crew itself, or by the sheaf window the
crew of that index in the sheaf; with the offset in it. None beyond its holding. -/
def State.scratchOf (s : State) (core : Nat) (c : Crew) (slot a n : Nat) (sw : Bool) :
    Option (Nat × Nat × Nat × Nat) :=
  if sw then
    match s.crews.find? fun e => e.2.launch = c.launch && e.2.sheaf = c.sheaf && e.2.index = a / 2 ^ 19 && !e.2.tentative with
    | some e =>
      if a % 2 ^ 19 + n ≤ e.2.hold.sg * 16384 then some (e.2.uid, a % 2 ^ 19, e.1 / 16, e.1 % 16) else none
    | none => none
  else if a + n ≤ c.hold.sg * 16384 then some (c.uid, a, core, slot) else none

/-! ### The outbox (R213) -/

/-- Whether two spaces are one memory: a crew's scratch, or global memory, in which a peer's addresses are
its own. -/
def Space.same : Space → Space → Bool
  | .scratch u, .scratch v => u == v
  | .scratch _, _ => false
  | _, .scratch _ => false
  | _, _ => true
/-- Whether an entry's bytes meet [a, a + n) of a space. -/
def Ent.overlaps (e : Ent) (sp : Space) (a n : Nat) : Bool :=
  e.marker.isNone && e.space.same sp && e.cells.any fun c => a ≤ c.1 && c.1 < a + n
def Ent.covers (e : Ent) (sp : Space) (a n : Nat) : Bool :=
  e.marker.isNone && e.space.same sp && (List.range n).all fun i => e.cells.any fun c => c.1 == a + i
/-- Some entry meets the unit and the youngest that does, or any other, does not cover it (R213). -/
def Group.partialHit (r : Group) (sp : Space) (a n : Nat) : Bool :=
  r.outbox.any fun e => e.overlaps sp a n && !e.covers sp a n
/-- The unit's bytes in the youngest covering entry. -/
def Group.forward? (r : Group) (sp : Space) (a n : Nat) : Option (List Byte) :=
  (r.outbox.reverse.find? fun e => e.covers sp a n).map fun e =>
    (List.range n).map fun i => ((e.cells.reverse.find? fun c => c.1 == a + i).map (·.2)).getD 0

/-! ### Range locks (R218) -/

/-- Whether a global virtual range meets a range lock of the core under the ASID. -/
def State.locked (s : State) (core asid va n : Nat) : Bool :=
  s.copies.any fun e => e.2.core = core && e.2.asid = asid && !e.2.arrived &&
    e.2.ranges.any fun x => !x.scratch && x.lo < va + n && va < x.hi
/-- Whether a scratch range of a crew meets a scoreboard entry of work numbered below `lim`: a copy's
scratch destination from its issue, a drain's from its posting (R181, R218). -/
def State.scoreboardedTo (s : State) (lim uid off n : Nat) : Bool :=
  (s.copies.any fun e => decide (e.1 < lim) && e.2.uid = uid && !e.2.arrived &&
    e.2.ranges.any fun x => x.scratch && x.dst && x.lo < off + n && off < x.hi) ||
  s.ops.any fun e => decide (e.1 < lim) && e.2.uid = uid && match e.2.sdst with
    | some (lo, hi) => decide (lo < off + n) && decide (off < hi)
    | none => false
def State.scoreboarded (s : State) (uid off n : Nat) : Bool := s.scoreboardedTo s.nextId uid off n
/-- The entries of a core's range scoreboard in use (R15, R25): copies' scratch destinations and drains'. -/
def State.scoreEntries (s : State) (core : Nat) : Nat :=
  ((s.copies.filter fun e => e.2.core == core).map fun e => (e.2.ranges.filter fun x => x.scratch && x.dst).length).sum +
    (s.ops.filter fun e => e.2.core == core && e.2.sdst.isSome).length

/-! ### Replicas of lattice regions (R256, R257) -/

/-- The bottom value of a type, word by word. -/
def latBottomWord (typ : Nat) : Nat :=
  match typ with
  | 2 => 0x80000000
  | 3 => 0xFFFFFFFF
  | 4 => 0x7FFFFFFF
  | 8 => 0xFF800000
  | _ => 0
def latBottom (typ off : Nat) : Byte := BitVec.ofNat 8 (latBottomWord typ / 2 ^ (8 * (off % 4)))
/-- A byte of a die's replica. -/
def Region.byte (x : Region) (die off : Nat) : Byte :=
  tget 0 x.cells (die * 2 ^ 40 + off) ^^^ latBottom x.typ off
def Region.bytes (x : Region) (die off n : Nat) : List Byte := (List.range n).map fun i => x.byte die (off + i)
def Region.setBytes (x : Region) (die off : Nat) (bs : List Byte) : Region :=
  { x with cells := tsetMany 0 x.cells ((List.range bs.length).map fun i =>
      (die * 2 ^ 40 + (off + i), bs.getD i 0 ^^^ latBottom x.typ (off + i))) }
def State.regionOf (s : State) (d : Nat) : Region := (tfind s.regions d).getD {}
/-- Bytes of the local replica, as an ordinary read meets a lattice page (R263). -/
def State.latBytes (s : State) (die d off n : Nat) : List Byte := (s.regionOf d).bytes die off n

end Sys2Proof.Machine
end

