-- ==== Sys2Proof/Machine/Grant.lean ====
section
/-! DEFINITION. The grant unit of a core (R26, R75 to R78), the crew's granules (R73) and the
instructions that use them: CLAIM, RELEASE, RGSUR, RGCLM, CLQRY (R120 to R124). -/

namespace Sys2Proof.Machine

/-! ### Vectors over the claim classes -/

def Claim.add (x y : Claim) : Claim := { rg := x.rg + y.rg, sg := x.sg + y.sg, ch := x.ch + y.ch, ms := x.ms + y.ms }
def Claim.sub (x y : Claim) : Claim := { rg := x.rg - y.rg, sg := x.sg - y.sg, ch := x.ch - y.ch, ms := x.ms - y.ms }
def Claim.le (x y : Claim) : Bool :=
  decide (x.rg ≤ y.rg) && decide (x.sg ≤ y.sg) && decide (x.ch ≤ y.ch) && decide (x.ms ≤ y.ms)
/-- R120. -/
def Claim.ofBits (w : W32) : Claim := { rg := bitsOf w 6 0, sg := bitsOf w 13 8, ch := bitsOf w 19 16, ms := bitsOf w 22 20 }
def Claim.bits (x : Claim) : W64 := BitVec.ofNat 64 (x.rg + x.sg * 2 ^ 8 + x.ch * 2 ^ 16 + x.ms * 2 ^ 20)
/-- What a core has to claim (R26). -/
def claimable : Claim := { rg := 120, sg := 32, ch := 8, ms := 4 }

/-- Need, tentative holdings counted. -/
def Crew.need (c : Crew) : Claim := c.max.sub (c.hold.add c.pendHold)

/-- The crews of a core by slot, tentative ones and tentative holdings included (R75, R76). -/
def State.residents (s : State) (core : Nat) : List (Nat × Crew) :=
  s.crews.filterMap fun e =>
    if e.1 / 16 = core then some (e.1 % 16, { e.2 with hold := e.2.hold.add e.2.pendHold, pendHold := {} }) else none
def holdSum (cs : List (Nat × Crew)) : Claim := cs.foldl (fun a e => a.add e.2.hold) {}
/-- Avail (R75). Class MS has no capacity where the engine is unusable (R189). -/
def State.avail (s : State) (core : Nat) : Claim :=
  let a := claimable.sub (holdSum (s.residents core))
  if (s.engine (clusterIx core)).unusable then { a with ms := 0 } else a

/-! ### The tests (R76) -/

/-- Rounds of the full test: the lowest-numbered crew whose need can be met returns its holding. -/
def safeRounds : Nat → Claim → List (Nat × Crew) → Bool
  | 0, _, rest => rest.isEmpty
  | n + 1, work, rest =>
    match rest.find? fun e => e.2.need.le work with
    | none => rest.isEmpty
    | some x => safeRounds n (work.add x.2.hold) (rest.filter fun e => e.1 != x.1)

/-- Whether the crews' holdings form a safe state under a capacity: Hold within it, and every crew done. -/
def safeIn (cap : Claim) (cs : List (Nat × Crew)) : Bool :=
  (holdSum cs).le cap && safeRounds 16 (cap.sub (holdSum cs)) cs
def safeCrews (cs : List (Nat × Crew)) : Bool := safeIn claimable cs

/-- A crew whose streams are on an unusable engine: what it holds there counts as neither held nor there to
return (R189, log 93: DEDUCED, unsafe). -/
def Crew.stripMs (c : Crew) : Crew :=
  { c with hold := { c.hold with ms := 0 }, max := { c.max with ms := c.max.ms - c.hold.ms } }

/-- The full test on a core. Class MS has no capacity where the engine is unusable (R189). -/
def State.safe (s : State) (core : Nat) (cs : List (Nat × Crew)) : Bool :=
  if (s.engine (clusterIx core)).unusable then
    safeIn { claimable with ms := 0 } (cs.map fun e => (e.1, e.2.stripMs))
  else safeCrews cs

/-- The residents as they would be after a grant. -/
def granted (cs : List (Nat × Crew)) (slot : Nat) (req : Claim) : List (Nat × Crew) :=
  cs.map fun e => if e.1 = slot then (e.1, { e.2 with hold := e.2.hold.add req }) else e

/-- The fast path: Req ≤ Avail and Need − Req ≤ Avail − Req. -/
def fastPath (need avail req : Claim) : Bool := req.le avail && (need.sub req).le (avail.sub req)

/-! ### Moves of granules (R73, R74) -/

/-- Rows of silo (R180): words by core, crew's uid and position; the rows of the streams from `lo` to
`hi` become zero and lose their poison. -/
def siloKey (uid row col : Nat) : Nat := (uid * 2048 + row) * 128 + col
def State.zeroSilo (s : State) (uid lo hi : Nat) : State :=
  { s with silo := tclear s.silo (siloKey uid (384 * lo) 0) (siloKey uid (384 * hi) 0),
           poison := tclear s.poison (uid * 2048 + 384 * lo) (uid * 2048 + 384 * hi) }
/-- Scratch granules from `lo` to `hi` of a crew become zero. -/
def State.zeroScratch (s : State) (uid lo hi : Nat) : State :=
  { s with scratch := tclear s.scratch (uid * 2 ^ 20 + lo * 16384) (uid * 2 ^ 20 + hi * 16384) }

/-- V registers from `lo` to `hi` granules of a group become zero (R52). -/
def State.zeroGranules (s : State) (uid lo hi : Nat) : State :=
  { s with vreg := tclear s.vreg (vkey uid (32 * lo) 0) (vkey uid (32 * hi) 0) }

/-- Free granules of a crew rise (R73). A waiting RGCLM is served in a step of its own, so that a grant-unit event of
the same clock may come between (R125). -/
def State.addFree (s : State) (core slot n : Nat) : State := s.modCrew core slot fun c => { c with free := c.free + n }

/-- Whether the oldest waiting RGCLM of a crew can be served: it comes before the records that could start (R125). -/
def Crew.rgclmDue (c : Crew) : Bool :=
  match c.rgq with
  | [] => false
  | x :: _ => decide (x.2 ≤ c.free)

/-- A grant adds to the holding: RG to the free granules, SG at the top, zeroed (R121). (Log 47: DEDUCED, unsafe.) -/
def State.applyHold (s : State) (core slot : Nat) (req : Claim) : State :=
  match s.crew? core slot with
  | none => s
  | some c =>
    let s := s.zeroScratch c.uid c.hold.sg (c.hold.sg + req.sg)
    let s := s.zeroSilo c.uid c.hold.ms (c.hold.ms + req.ms)
    s.putCrew core slot { c with hold := c.hold.add req }

/-- The group that waits on a grant goes on; RG passes to the free granules. -/
def State.resumeGrant (s : State) (core : Nat) (q : GReq) : State :=
  let g : Gid := { core := core, slot := q.slot }
  let s := s.addFree core q.crew q.req.rg
  match s.group? g with
  | none => s
  | some r => if r.wait = .grant && r.waits then s.waitDone g r s r [] [] else s

/-- Deferred requests are tested in order of arrival (R77): each is granted if now safe, is CLAIMX if it
asks for more than Need, and else stays. -/
def State.retestList (s : State) (core : Nat) : List GReq → State
  | [] => s
  | q :: rest =>
    let drop := fun (s : State) => s.modCore core fun c => { c with deferred := c.deferred.filter fun x => x != q }
    match s.crew? core q.crew with
    | none => (drop s).retestList core rest
    | some c =>
      if !q.req.le c.need then
        let g : Gid := { core := core, slot := q.slot }
        let s := drop s
        let s := match s.group? g with
          | none => s
          | some r => s.crewFatal g r { code := Code.claimx }
        s.retestList core rest
      else if fastPath c.need (s.avail core) q.req || (q.req.le (s.avail core) && s.safe core (granted (s.residents core) q.crew q.req)) then
        (((drop s).applyHold core q.crew q.req).resumeGrant core q).retestList core rest
      else s.retestList core rest
/-- A holding has fallen: the deferred requests are tested, and a request under the full test will be once it
is deferred (R77). -/
def State.retest (s : State) (core : Nat) : State :=
  let s := if (s.core core).test.isSome then s.modCore core fun x => { x with fell := true } else s
  s.retestList core (s.core core).deferred

/-! ### CLAIM and RELEASE (R121, R122) -/

/-- The vector of a CLAIM or RELEASE. -/
def State.claimOf (s : State) (r : Group) (f : Fields) : Claim :=
  Claim.ofBits (if f.w96 then f.i32 else (s.gr r f.a.toNat).setWidth 32)

/-- A CLAIM that finds the full test of another request under way has not reached the grant unit yet: it is
issued again (log 92: DESIGN CHOICE, unsafe). A request beyond Avail forms no tentative holding (log 47). -/
def execClaim (f : Fields) (s : State) : Host.Outcome State Fault Refusal :=
  issue 0 f (shapeClaim f) s fun s g r =>
    let req := s.claimOf r f
    let c := s.crewOf g r
    let q : GReq := { slot := g.slot, crew := r.crew, req := req }
    if req = {} then .done s (r.next f)
    else if !req.le c.need then .fatal { code := Code.claimx }
    else if fastPath c.need (s.avail g.core) req then
      .done ((s.applyHold g.core r.crew req).addFree g.core r.crew req.rg) (r.next f)
    else if (s.core g.core).test.isSome then .retry
    else
      let fits := req.le (s.avail g.core)
      let safe := fits && s.safe g.core (granted (s.residents g.core) r.crew req)
      let s := if fits then s.modCrew g.core r.crew fun c => { c with pendHold := req } else s
      .hold (s.modCore g.core fun x => { x with test := some (q, safe), fell := false }) { r with wait := .grant }

/-- FULL_TEST_END (R76): the holding stands and the group goes on, or it is withdrawn and the request is
deferred; where another holding fell meanwhile it is tested with the others (R77). -/
def execFullTestEnd (core : Nat) (s : State) : Host.Outcome State Fault Refusal :=
  match (s.core core).test with
  | none => .next s
  | some (q, safe) =>
    let fell := (s.core core).fell
    let defer := fun (s : State) => s.modCore core fun x => { x with deferred := x.deferred ++ [q] }
    let s := s.modCore core fun x => { x with test := none, fell := false }
    let s := s.modCrew core q.crew fun c => { c with pendHold := {} }
    if safe then .next ((s.applyHold core q.crew q.req).resumeGrant core q)
    else if fell then .next ((defer s).retest core)
    else .next (defer (s.retest core))

/-- Channels of a crew with a copy in flight. -/
def State.busyChans (s : State) (uid : Nat) : Nat :=
  ((s.copies.filter fun e => e.2.uid = uid).map fun e => e.2.chan).eraseDups.length
/-- Streams of a crew with a pass posted (R182). -/
def State.busyStreams (s : State) (uid : Nat) : Nat :=
  (s.ops.filter fun e => e.2.uid = uid && decide (e.2.kind < 2)).length

/-- Rows that a posted operation reads or writes (R194). -/
def Op.rows (o : Op) : Nat × Nat :=
  let lo := o.fields.immBits 10 0
  (lo, lo + if o.kind < 2 then 128 * (o.fields.immBits 39 38 + 1) else o.fields.immBits 26 16 + 1)
/-- Whether any operation of the crew is on rows from `lo` to `hi` (R180). -/
def State.rowsInUse (s : State) (uid lo hi : Nat) : Bool :=
  s.ops.any fun e => e.2.uid = uid && decide (e.2.rows.1 < hi) && decide (lo < e.2.rows.2)

def execRelease (f : Fields) (s : State) : Host.Outcome State Fault Refusal :=
  issue 0 f (shapeClaim f) s fun s g r =>
    let req := s.claimOf r f
    let c := s.crewOf g r
    if decide (c.free < req.rg) || decide (c.hold.sg < req.sg) || decide (c.hold.ch < s.busyChans c.uid + req.ch) ||
        decide (c.hold.ms < s.busyStreams c.uid + req.ms) then .fatal { code := Code.claimx }
    else
      let lo := (c.hold.sg - req.sg) * 16384
      if (req.sg != 0 && s.scoreboarded c.uid lo (req.sg * 16384)) ||
          s.rowsInUse c.uid (384 * (c.hold.ms - req.ms)) (384 * c.hold.ms) then .hold s { r with wait := .release }
      else
        let s := s.zeroScratch c.uid (c.hold.sg - req.sg) c.hold.sg
        let s := s.zeroSilo c.uid (c.hold.ms - req.ms) c.hold.ms
        let s := s.putCrew g.core r.crew { c with hold := c.hold.sub req, free := c.free - req.rg }
        -- the re-test may give a deferred request of this crew its granules
        .done (s.retest g.core) { r.next f with wait := .none }

/-! ### Granules and queries (R123, R124) -/

def Group.isPacked (r : Group) : Bool :=
  match r.kind with
  | .packed _ _ => true
  | _ => false

def execRgsur (f : Fields) (s : State) : Host.Outcome State Fault Refusal :=
  issue 0 f (shapeGran f) s fun s g r =>
    let n := f.imm.toNat
    if r.isPacked then .fatal { code := Code.repackx }
    else if r.gran ≤ n then .fatal { code := Code.claimx }
    else if s.regsHeld r.uid (32 * (r.gran - n)) then .retry
    else .done (s.addFree g.core r.crew n) { r.next f with gran := r.gran - n }

/-- RGCLM (R123): waiting requests are served in the order they were made. -/
def execRgclm (f : Fields) (s : State) : Host.Outcome State Fault Refusal :=
  issue 0 f (shapeGran f) s fun s g r =>
    let n := f.imm.toNat
    let c := s.crewOf g r
    let take := fun (rgq : List (Nat × Nat)) =>
      Res.done ((s.putCrew g.core r.crew { c with free := c.free - n, rgq := rgq }).zeroGranules r.uid r.gran (r.gran + n))
        { r.next f with gran := r.gran + n, wait := .none }
    if r.isPacked then .fatal { code := Code.repackx }
    else if 8 < r.gran + n then .fatal { code := Code.claimx }
    else if r.wait = .rgclm n then
      if c.rgq.head? = some (g.slot, n) && c.rgclmDue then take (c.rgq.drop 1) else .retry
    else if c.rgq.isEmpty && n ≤ c.free then take c.rgq
    else .hold (s.putCrew g.core r.crew { c with rgq := c.rgq ++ [(g.slot, n)] }) { r with wait := .rgclm n }

/-- CLQRY (R124). Avail counts the holding under a full test (R76), Hold and Need do not (log 117: DEDUCED, unsafe). -/
def execClqry (f : Fields) (s : State) : Host.Outcome State Fault Refusal :=
  issue 0 f (shapeClqry f) s fun s g r =>
    let c := s.crewOf g r
    let x : W64 := match f.fn.toNat with
      | 0 => c.hold.bits
      | 1 => c.max.bits
      | 2 => (c.max.sub c.hold).bits
      | 3 => (s.avail g.core).bits
      | _ => BitVec.ofNat 64 (r.gran + c.free * 2 ^ 8)
    .done (s.setG r f.d.toNat x) (r.next f)

end Sys2Proof.Machine
end

