-- ==== Sys2Proof/Machine/Barrier.lean ====
section
/-! DEFINITION. Barriers, regrouping, stages: BINIT, BARV, BWAIT, BARW, BEXP, BTEST (R220, R241 to R243),
REPACK, UNPACK (R104 to R107), SQCFG, SQWAIT, SQREL (R244 to R246). An arrival and the completion it
may bring are one step. -/

namespace Sys2Proof.Machine

def Crew.bar (c : Crew) (n : Nat) : Bar := c.bars.getD n {}
def Crew.setBar (c : Crew) (n : Nat) (b : Bar) : Crew := { c with bars := c.bars.set n b }

/-- BTEST's word (R241). -/
def Bar.word (b : Bar) : W64 :=
  BitVec.ofNat 64 (b.exp + b.arr * 2 ^ 12 + b.shf.toNat * 2 ^ 29 + b.init.toNat * 2 ^ 30 + b.phase.toNat * 2 ^ 31 +
    b.pend.toNat * 2 ^ 32)

/-- An arrival, with the arriving group's crew index, or the bytes a copy or operation brings (R243); none
where it is BARX. -/
def Bar.arrive (b : Bar) (index : Option Nat) (bytes : Nat) : Option Bar :=
  if !b.init || b.arr = b.exp then none
  else some { b with
    arr := b.arr + 1, pend := b.pend - BitVec.ofNat 32 bytes,
    amask := match index with | some i => setBit b.amask i true | none => b.amask }

/-- Whether the phase completes (R241). -/
def Bar.complete (b : Bar) : Bool := b.init && b.arr == b.exp && b.pend == 0

/-! ### Regrouping (R104 to R107) -/

/-- A thread at REPACK: its key (target, FMT, Depth), its lane, its participant's place in order. -/
structure RThread where
  target : Nat
  fmt : Nat
  depth : Nat
  lane : Nat
  part : Nat
  deriving DecidableEq, Repr

def RThread.keyLt (a b : RThread) : Bool :=
  decide (a.target < b.target) || (a.target == b.target && (decide (a.fmt < b.fmt) ||
    (a.fmt == b.fmt && decide (a.depth < b.depth))))
def RThread.sameKey (a b : RThread) : Bool := a.target == b.target && a.fmt == b.fmt && a.depth == b.depth
/-- Keeps the first thread of each key, in key order. -/
def insertKey (t : RThread) : List RThread → List RThread
  | [] => [t]
  | x :: r => if t.sameKey x then x :: r else if t.keyLt x then t :: x :: r else x :: insertKey t r

/-- The crew's groups that wait in UNPACK on barrier `n`. -/
def State.unpackers (s : State) (core slot n : Nat) : List (Gid × Group) :=
  (s.crewGroups core slot).filter fun e => match e.2.wait with | .unpack m => m == n | _ => false

/-- The crew's groups that wait in REPACK on barrier `n`, in slot order: a participant's number in R105 is its slot (log
123: DESIGN CHOICE, unsafe). -/
def State.repackers (s : State) (core slot n : Nat) : List (Gid × Group) :=
  (s.crewGroups core slot).filter fun e => match e.2.wait with | .repack m _ => m == n | _ => false

/-- The threads the participants bring. -/
def State.repackThreads (s : State) (kcode : W64) (ps : List (Gid × Group)) : List RThread :=
  (List.range ps.length).flatMap fun i =>
    match ps[i]? with
    | none => []
    | some (_, r) =>
      match r.wait with
      | .repack _ vt =>
        (allLanes.filter fun l => r.exec.getLsbD l && !r.hlp.getLsbD l).map fun l =>
          let t := s.src32 r false (decide (256 ≤ vt)) (BitVec.ofNat 8 vt) l
          { target := (kcode + t.setWidth 64).toNat, fmt := r.fmt.toNat, depth := r.depth, lane := l, part := i }
      | _ => []

/-- Threads of a key in a lane, in participant order. -/
def holders (ts : List RThread) (k : RThread) (l : Nat) : List RThread := ts.filter fun t => t.sameKey k && t.lane == l
/-- c(k). -/
def keyCount (ts : List RThread) (k : RThread) : Nat := (allLanes.map fun l => (holders ts k l).length).foldl max 0
/-- The new groups, as lists of threads, in order. -/
def newGroups (ts : List RThread) : List (RThread × List RThread) :=
  (ts.foldr insertKey []).flatMap fun k => (List.range (keyCount ts k)).map fun n =>
    (k, allLanes.filterMap fun l => (holders ts k l)[n]?)

/-- Copies the G registers of one group to another. -/
def State.copyG (s : State) (src dst : Nat) : State :=
  (List.range 64).foldl (fun s n => { s with greg := tset 0 s.greg (gkey dst n) (tget 0 s.greg (gkey src n)) }) s

/-- The parked participants of the regrouping on barrier `n`. -/
def Crew.parkedAt (c : Crew) (n : Nat) : List (Nat × Group) :=
  c.parts.filter fun e => match e.2.wait with | .repack m _ => m == n | _ => false

/-- Forms the new groups in the participants' slots (R105), beside those of a regrouping on another barrier. They run,
whatever halt a participant waited under (log 90: DESIGN CHOICE, unsafe). -/
def State.regroup (s : State) (core slot n : Nat) (ps : List (Gid × Group)) (ngs : List (RThread × List RThread)) : State :=
  let s := { s with groups := s.groups.filter fun (e : Nat × Group) => !(ps.any fun p => gidKey p.1 == e.1) }
  let s := s.modCrew core slot fun c =>
    let b := c.bar n
    { c.setBar n { b with exp := ngs.length, keep := if (c.parkedAt n).isEmpty then b.exp else b.keep } with
      parts := c.parts ++ ps.map fun p => (p.1.slot, p.2) }
  (List.range ngs.length).foldl (fun s j =>
    match ngs[j]?, ps[j]? with
    | some (k, ts), some (g, pr) =>
      let sup := fun (t : RThread) => ((ps[t.part]?).map (·.2)).getD pr
      let first := match ts with | t :: _ => sup t | [] => pr
      let mask := laneMask (ts.map (·.lane))
      let home := fun l => match ts.find? fun t => t.lane == l with
        | some t => ((sup t).home l, (sup t).homeGrp l)
        | none => (0, 0)
      let (uid, s) := s.fresh
      let asSealed := fun (e : SEntry) => { e with isSealed := true }
      (s.copyG first.uid uid).putGroup g {
        crew := slot, uid := uid, grp := pr.grp, gran := (ts.map fun t => (sup t).gran).foldl min 8,
        pc := BitVec.ofNat 48 k.target, pcBad := decide (2 ^ 48 ≤ k.target), exec := mask, live := mask,
        fmt := BitVec.ofNat 16 k.fmt, cc := first.cc, q := first.q, depth := k.depth,
        stack := (List.range 16).map fun i => if i < k.depth then asSealed (first.stack.getD i {}) else {},
        homes := allLanes.map home, kind := .packed n k.depth,
        -- (log 94: DESIGN CHOICE, unsafe)
        spawned := ts.any fun t => (sup t).spawned }
    | _, _ => s) s

/-- A lane cleared from a participant (R107). -/
def Group.clearLane (r : Group) (l : Nat) : Group :=
  { r with exec := setBit r.exec l false, live := setBit r.live l false,
           stack := r.stack.map fun e => { e with exec := setBit e.exec l false, els := setBit e.els l false } }

/-- The new groups of a crew that name barrier `n`. -/
def State.packedGroups (s : State) (core slot n : Nat) : List (Gid × Group) :=
  (s.crewGroups core slot).filter fun e => match e.2.kind with | .packed m _ => m == n | _ => false

/-- The sequencer stops when the crew's last group has ended (R174). -/
def State.seqRest (s : State) (core slot : Nat) : State :=
  match s.crew? core slot with
  | none => s
  | some c =>
    if ((s.crewGroups core slot).all fun e => e.1.hnd || e.2.live = 0) && c.parts.isEmpty &&
        ((s.core core).pool.all fun r => r.crewUid != c.uid) && (s.core core).ring.all (fun r => r.2 != c.uid) then
      s.putCrew core slot { c with seqr := { c.seqr with running := false } }
    else s

/-- Restores the participants once every new group has arrived (R107); one whose threads have all exited ends, once no
posted pass holds its registers (R205), and with the last group the sequencer stops. Where every new group ended
without an UNPACK the manual gives no PC: a free value (log 21: DESIGN CHOICE, safe); where the one in the lowest slot
did, the PC is that of the lowest slot that executed one (log 122: DESIGN CHOICE, unsafe). -/
def State.unpackAll (s : State) (core slot n : Nat) : State :=
  match s.crew? core slot with
  | none => s
  | some c =>
    let ngs := s.packedGroups core slot n
    let parked := c.parkedAt n
    if parked.isEmpty || !(ngs.all fun e => e.2.wait == .unpack n) then s
    else
      let (x, s) := s.free
      let pc := match ngs.find? fun e => e.2.live != 0 with
        | some e => nextPc e.2.pc e.2.ins.len
        | none => x.setWidth 48
      let gone := fun (r : Group) l => ngs.any fun e =>
        (e.2.homes.getD l (0, 0)).1 == r.home l && r.home l != 0 && !e.2.live.getLsbD l
      let s := { s with groups := s.groups.filter fun (e : Nat × Group) => !(ngs.any fun p => gidKey p.1 == e.1) }
      let b := c.bar n
      let s := s.putCrew core slot { c.setBar n { b with exp := b.keep, keep := 0 } with
        parts := c.parts.filter fun e => !parked.contains e }
      (parked.foldl (fun s (e : Nat × Group) =>
        let r := allLanes.foldl (fun r l => if gone e.2 l then r.clearLane l else r) e.2
        let g : Gid := { core := core, slot := e.1 }
        if r.live = 0 && !s.regsHeld r.uid 0 then s.addFree core slot r.gran
        else s.putGroup g { r with wait := .none, pc := pc }) s).seqRest core slot

/-! ### Completion (R220) -/

/-- Groups of any crew that wait for barrier `n` of crew `uid` under the parity `par`. -/
def State.barWaiters (s : State) (uid n : Nat) (par : Bool) : List (Gid × Group) :=
  s.groups.filterMap fun e =>
    match e.2.wait with
    | .bar u m q _ => if u = uid && m = n && q = par && e.2.waits then some (keyGid e.1, e.2) else none
    | _ => none

/-- Completes the phase of a barrier if it is due: PHASE flips, waiting groups go on, participants are
regrouped or restored; with SHF the view of each core of a waiting member is emptied. Where no participant of a
REPACK has an active thread they go on as where they are not regrouped (log 89: DESIGN CHOICE, unsafe). -/
def State.barSettle (s : State) (core slot n : Nat) : State :=
  match s.crew? core slot with
  | none => s
  | some c =>
    let b := c.bar n
    if !b.complete then s
    else
      let ws := s.barWaiters c.uid n b.phase
      let ps := (s.repackers core slot n).filter fun e => e.2.waits
      let s := s.putCrew core slot (c.setBar n { b with phase := !b.phase, arr := 0, amask := 0 })
      let s := if b.shf then
          (ws.map (fun e => e.1.core) ++ (ps ++ s.unpackers core slot n).map fun e => e.1.core).foldl State.emptyView s
        else s
      let go := fun (s : State) (e : Gid × Group) =>
        match s.group? e.1 with
        | none => s
        | some r => if r.wait = .none then s else s.waitDone e.1 r s r [] []
      let s := ws.foldl go s
      let ngs := newGroups (s.repackThreads c.kcode ps)
      let s := if ps.isEmpty then s
        else if ngs.isEmpty || decide (ps.length < ngs.length) then ps.foldl go s
        else s.regroup core slot n ps ngs
      s.unpackAll core slot n

/-- Whether a group of the sheaf waits on a barrier. -/
def State.barWaited (s : State) (core slot n : Nat) (uid : Nat) : Bool :=
  s.groups.any fun e =>
    match e.2.wait with
    | .bar u m _ _ => u == uid && m == n
    | .repack m _ => (keyGid e.1).core == core && e.2.crew == slot && m == n
    | .unpack m => (keyGid e.1).core == core && e.2.crew == slot && m == n
    | _ => false

/-- The completion, if any, that follows an instruction on a barrier. -/
def thenBar (core slot n : Nat) (o : Host.Outcome State Fault Refusal) : Host.Outcome State Fault Refusal :=
  match o with
  | .next s => .next (s.barSettle core slot n)
  | x => x

/-- The crew and barrier a barrier instruction acts on: its own, or with `.sheaf` barrier n of crew
G[B][4:0] of the sheaf, which must have SHF (R243). -/
def State.barTarget (s : State) (g : Gid) (r : Group) (sheaf : Bool) (idx : W64) : Option (Nat × Nat) :=
  if !sheaf then some (g.core, r.crew)
  else
    let c := s.crewOf g r
    (s.crews.find? fun e => e.2.launch = c.launch && e.2.sheaf = c.sheaf && e.2.index = bitsOf idx 4 0 && !e.2.tentative).map
      fun e => (e.1 / 16, e.1 % 16)

/-- The barrier the acting group's instruction names, as it stands. -/
def State.actorBar (s : State) (f : Fields) (sheaf : Bool) : Nat × Nat :=
  match s.actor with
  | .grp g => match s.group? g with
    | some r => (s.barTarget g r sheaf (s.gr r f.b.toNat)).getD (g.core, r.crew)
    | none => (0, 0)
  | _ => (0, 0)

/-! ### The barrier instructions (R243) -/

/-- A barrier as BINIT leaves it. -/
def barInit (exp : Nat) (shf : Bool) : Bar := { exp := exp, init := true, shf := shf }

/-- Whether BINIT would disturb a barrier in use. -/
def State.barBusy (s : State) (core slot : Nat) (c : Crew) (n : Nat) : Bool :=
  (c.bar n).arr != 0 || (c.bar n).pend != 0 || s.barWaited core slot n c.uid

def execBinit (f : Fields) (s : State) : Host.Outcome State Fault Refusal :=
  issue 0 f (shapeBinit f) s fun s g r =>
    let n := f.a.toNat
    let c := s.crewOf g r
    if (c.bar n).init && s.barBusy g.core r.crew c n then .fatal { code := Code.barx }
    else .done (s.putCrew g.core r.crew (c.setBar n (barInit f.imm.toNat (f.fnIs 1)))) (r.next f)

/-- The arrival of a group at the barrier its instruction names: the group waits for its outbox to empty
(R220), BARX, or the crew's place, the barrier before and after. -/
inductive GArrive where
  | retry
  | barx
  | ok (core slot : Nat) (c : Crew) (before after : Bar)

def State.groupArrive (s : State) (g : Gid) (r : Group) (sheaf : Bool) (idx : W64) (n : Nat) : GArrive :=
  match s.barTarget g r sheaf idx with
  | none => .barx
  | some (core, slot) =>
    let c := (s.crew? core slot).getD { uid := 0 }
    let b := c.bar n
    if sheaf && !b.shf then .barx
    else match b.arrive (if sheaf then none else some r.grp) 0 with
      | none => .barx
      | some b' => if r.outbox.isEmpty then .ok core slot c b b' else .retry

def execBarv (f : Fields) (s : State) : Host.Outcome State Fault Refusal :=
  let sheaf := f.fnBits 0 0 == 1
  let t := s.actorBar f sheaf
  thenBar t.1 t.2 f.a.toNat <| issue 0 f (shapeBarv f) s fun s g r =>
    let n := f.a.toNat
    match s.groupArrive g r sheaf (s.gr r f.b.toNat) n with
    | .retry => .retry
    | .barx => .fatal { code := Code.barx }
    | .ok core slot c b b' =>
      let r' := if f.fnBits 1 1 = 1 then { r.next f with q := setBit r.q f.d.toNat b.phase } else r.next f
      .done (s.putCrew core slot (c.setBar n b')) r'

def execBarw (f : Fields) (s : State) : Host.Outcome State Fault Refusal :=
  let sheaf := f.fnBits 0 0 == 1
  let t := s.actorBar f sheaf
  thenBar t.1 t.2 f.a.toNat <| issue 0 f (shapeBarw f) s fun s g r =>
    let n := f.a.toNat
    match s.groupArrive g r sheaf (s.gr r f.b.toNat) n with
    | .retry => .retry
    | .barx => .fatal { code := Code.barx }
    | .ok core slot c b b' =>
      .hold (s.putCrew core slot (c.setBar n b')) { r with wait := .bar c.uid n b.phase false }

def execBwait (f : Fields) (s : State) : Host.Outcome State Fault Refusal :=
  issue 0 f (shapeBwait f) s fun s g r =>
    let n := f.a.toNat
    let c := s.crewOf g r
    let par := r.q.getLsbD f.b.toNat
    if !(c.bar n).init then .fatal { code := Code.barx }
    else if (c.bar n).phase != par then .done s (r.next f)
    else .hold s { r with wait := .bar c.uid n par false }

def execBexp (f : Fields) (s : State) : Host.Outcome State Fault Refusal :=
  let t := s.actorBar f false
  thenBar t.1 t.2 f.a.toNat <| issue 0 f (shapeBexp f) s fun s g r =>
    let n := f.a.toNat
    let c := s.crewOf g r
    let b := c.bar n
    let bytes : W32 := if f.fnIs 0 then f.i32 else (s.gr r f.b.toNat).setWidth 32
    if !b.init then .fatal { code := Code.barx }
    else .done (s.putCrew g.core r.crew (c.setBar n { b with pend := b.pend + bytes })) (r.next f)

def execBtest (f : Fields) (s : State) : Host.Outcome State Fault Refusal :=
  issue 0 f (shapeBtest f) s fun s g r =>
    let b := (s.crewOf g r).bar f.a.toNat
    if !b.init then .fatal { code := Code.barx }
    else .done (s.setG r f.d.toNat (if f.fnIs 0 then b.word else b.amask.setWidth 64)) (r.next f)

/-! ### REPACK and UNPACK (R104 to R107) -/

def execRepack (f : Fields) (s : State) : Host.Outcome State Fault Refusal :=
  let t := s.actorBar f false
  thenBar t.1 t.2 f.b.toNat <| issue 0 f (shapeRepack f) s fun s g r =>
    let n := f.b.toNat
    if r.isPacked then .fatal { code := Code.repackx }
    else match s.groupArrive g r false 0 n with
      | .retry => .retry
      | .barx => .fatal { code := Code.barx }
      | .ok core slot c _ b' =>
        .hold (s.putCrew core slot (c.setBar n b'))
          { r with wait := .repack n (f.a.toNat + if f.ka then 256 else 0) }

def execUnpack (f : Fields) (s : State) : Host.Outcome State Fault Refusal :=
  let t := s.actorBar f false
  thenBar t.1 t.2 f.a.toNat <| issue 0 f (shapeUnpack f) s fun s g r =>
    let n := f.a.toNat
    match r.kind with
    | .packed m d =>
      if m != n then .fatal { code := Code.repackx }
      else if r.depth != d then .fatal { code := Code.divdepth }
      else match s.groupArrive g r false 0 n with
        | .retry => .retry
        | .barx => .fatal { code := Code.barx }
        | .ok core slot c _ b' => .hold (s.putCrew core slot (c.setBar n b')) { r with wait := .unpack n }
    | _ => .fatal { code := Code.repackx }

/-- A new group without a live thread arrives at its UNPACK barrier once its outbox is empty (R106). -/
def State.packedEnd (s : State) (g : Gid) : State :=
  match s.group? g with
  | none => s
  | some r =>
    match r.kind with
    | .packed n _ =>
      if r.live != 0 || r.wait != .none || !r.outbox.isEmpty then s
      else match s.groupArrive g r false 0 n with
        | .ok core slot c _ b' =>
          ((s.putCrew core slot (c.setBar n b')).putGroup g { r with wait := .unpack n }).barSettle core slot n
        | .barx => s.crewFatal g r { code := Code.barx }
        | .retry => s
    | _ => s

/-! ### Stages (R244 to R246) -/

def Crew.stageBar (c : Crew) (s : W64) (empty : Bool) : Nat :=
  c.sqsBase + s.toNat % c.sqsDepth + if empty then c.sqsDepth else 0

def execSqcfg (f : Fields) (s : State) : Host.Outcome State Fault Refusal :=
  issue 0 f (shapeSqcfg f) s fun s g r =>
    let c := s.crewOf g r
    let base := f.a.toNat
    let d := f.immBits 3 0
    let old := (List.range (2 * c.sqsDepth)).map (c.sqsBase + ·)
    let new := (List.range (2 * d)).map (base + ·)
    if (old ++ new).any fun n => s.barBusy g.core r.crew c n then .fatal { code := Code.barx }
    else
      let c := { c with sqsBase := base, sqsDepth := d }
      let c := (List.range (2 * d)).foldl (fun (c : Crew) i =>
        c.setBar (base + i) (barInit (if i < d then f.immBits 15 4 else f.immBits 27 16) false)) c
      .done (s.putCrew g.core r.crew c) (r.next f)

def execSqwait (f : Fields) (s : State) : Host.Outcome State Fault Refusal :=
  issue 0 f (shapeSqwait f) s fun s g r =>
    let c := s.crewOf g r
    let x := s.gr r f.a.toNat
    let empty := f.fnIs 1
    if c.sqsDepth = 0 then .fatal { code := Code.barx }
    else
      let n := c.stageBar x empty
      let round := x.toNat / c.sqsDepth
      if empty && round = 0 then .done s (r.next f)
      else
        let par := (if empty then round - 1 else round) % 2 == 1
        if !(c.bar n).init then .fatal { code := Code.barx }
        else if (c.bar n).phase != par then .done s (r.next f)
        else .hold s { r with wait := .bar c.uid n par true }

/-- The barrier SQREL arrives at, by the acting group's registers. -/
def State.actorStage (s : State) (f : Fields) : Nat × Nat × Nat :=
  match s.actor with
  | .grp g => match s.group? g with
    | some r => (g.core, r.crew, (s.crewOf g r).stageBar (s.gr r f.a.toNat) (f.fnIs 1))
    | none => (0, 0, 0)
  | _ => (0, 0, 0)

def execSqrel (f : Fields) (s : State) : Host.Outcome State Fault Refusal :=
  let t := s.actorStage f
  thenBar t.1 t.2.1 t.2.2 <| issue 0 f (shapeSqwait f) s fun s g r =>
    let c := s.crewOf g r
    if c.sqsDepth = 0 then .fatal { code := Code.barx }
    else
      let n := c.stageBar (s.gr r f.a.toNat) (f.fnIs 1)
      match s.groupArrive g r false 0 n with
      | .retry => .retry
      | .barx => .fatal { code := Code.barx }
      | .ok core slot c _ b' => .done (s.putCrew core slot (c.setBar n b')) (r.next f)

/-! ### Arrivals of copies and operations (R217, R219, R243) -/

/-- A copy or operation arrives at a barrier of its crew; where the arrival is BARX the crew stops at its PC. -/
def State.workArrive (s : State) (core slot n bytes : Nat) (pc : BitVec 48) : State :=
  match s.crew? core slot with
  | none => s
  | some c =>
    match (c.bar n).arrive none bytes with
    | some b => (s.putCrew core slot (c.setBar n b)).barSettle core slot n
    | none => s.stopCrew core slot none { code := Code.barx, pc := pc }

end Sys2Proof.Machine
end

