-- ==== Sys2Proof/Machine/Trace.lean ====
section
/-! DEFINITION. Memory trace records and the rings they share their header with (R301, R357 to R359). -/

namespace Sys2Proof.Machine

/-- The home of a byte on a page that is pinned and writable in an ASID; none otherwise. -/
def State.pinned (s : State) (core asid va : Nat) : Option Nat :=
  match s.translate core asid va Acc.store true false with
  | .ok pa e => if bitOf e 4 && bitOf e 2 then some pa else none
  | _ => none

/-- Writes bytes to a ring's pinned pages, byte by byte: none where a page is not so mapped. -/
def State.ringWrite (s : State) (core asid va : Nat) (bs : List Byte) : Option State :=
  (List.range bs.length).foldl (fun o i =>
    match o with
    | none => none
    | some (s : State) => (s.pinned core asid (va + i)).map fun pa => s.store pa [bs.getD i 0]) (some s)

/-- A word of a ring's header. -/
def State.ringRead (s : State) (core asid va n : Nat) : Option Nat :=
  (s.pinned core asid va).map fun pa => s.word pa n

/-- TRCTL (R357) of a group's partition. -/
def State.trctl (s : State) (asid : Nat) : W64 := s.partReg (s.partOf asid) 0x28
/-- FASID (R290). -/
def State.fasid (s : State) (p : Nat) : Nat := bitsOf (s.partd p 1) 11 0

/-- Writes a record of whole 32-byte units to the trace ring, or drops it (R357, R358). -/
def State.traceUnits (s : State) (core asid : Nat) (rec : List Byte) : State :=
  let t := s.trctl asid
  let fa := s.fasid (s.partOf asid)
  let base := bitsOf t 47 12 * 4096
  let size := 2 ^ (bitsOf t 51 48 + 8)
  let len := rec.length / 32
  match s.ringRead core fa base 8, s.ringRead core fa (base + 8) 8 with
  | some w, some rd =>
    if size < w - rd + len then
      match s.ringRead core fa (base + 16) 4 with
      | some d => (s.ringWrite core fa (base + 16) (leBytes 4 (min (d + 1) 0xFFFFFFFF))).getD s
      | none => s
    else
      let s' := (List.range len).foldl (fun o i =>
        match o with
        | none => none
        | some (s : State) =>
          s.ringWrite core fa (base + 64 + 32 * ((w + i) % size)) ((rec.drop (32 * i)).take 32)) (some s)
      match s' with
      | some s' => (s'.ringWrite core fa base (leBytes 8 (w + len))).getD s
      | none => s
  | _, _ => s

/-- The classes of TRCTL, by major opcode (R357): the bit that enables it. -/
def traceBit (op : Nat) : Nat :=
  if op = 0x70 || op = 0x74 || op = 0x75 then 58
  else if op = 0x71 || op = 0x76 then 59
  else if op = 0x72 || op = 0x73 || op = 0x81 then 60
  else if op = 0x80 then 61
  else 62

/-- The record of R358. -/
def traceRec (typ op who pc hb mask : Nat) (base : W64) (stride : Int) (exc : List Nat) : List Byte :=
  let len := (32 + 8 * exc.length + 31) / 32
  let bs := leBytes 1 typ ++ leBytes 1 len ++ leBytes 1 exc.length ++ leBytes 1 op ++ leBytes 4 who ++
    leBytes 6 pc ++ leBytes 2 hb ++ leBytes 4 mask ++ leBytes 4 (BitVec.ofInt 32 stride).toNat ++
    leBytes 8 base.toNat ++ exc.flatMap (leBytes 8)
  bs ++ List.replicate (32 * len - bs.length) 0

/-- The stride that the two lowest recorded lanes fix (R358). -/
def traceStride (addr : Nat → W64) : List Nat → Int
  | l0 :: l1 :: _ =>
    let d := ((addr l1).toNat : Int) - (addr l0).toNat
    let n : Int := (l1 : Int) - l0
    if d % n = 0 && -(2 ^ 31) ≤ d / n && d / n < 2 ^ 31 then d / n else 0
  | _ => 0

/-- Traces a memory instruction of the group: one record over the lanes that made their access. -/
def State.trace (s : State) (g : Gid) (r : Group) (op : Nat) (ls : List Nat) (addr : Nat → W64) : State :=
  let c := s.crewOf g r
  let t := s.trctl c.asid
  if !bitOf t 63 || !bitOf t (traceBit op) || ls.isEmpty then s
  else
    let l0 := ls.headD 0
    let st := traceStride addr ls
    let base := addr l0
    let exc := ls.filterMap fun l =>
      let d : Int := ((addr l).toNat : Int) - base.toNat
      if d = st * ((l : Int) - l0) then none else some (l + 256 * (BitVec.ofInt 56 d).toNat)
    s.traceUnits g.core c.asid
      (traceRec 1 op (whoOf g r.crew 0).toNat r.pc.toNat (s.dev.hb.toNat % 65536) (laneMask ls).toNat base st exc)

def execTrace (f : Fields) (s : State) : Host.Outcome State Fault Refusal :=
  issue 0 f (shapeTrace f) s fun s g r =>
    let c := s.crewOf g r
    if !bitOf (s.trctl c.asid) 63 then .done s (r.next f)
    else .done (s.traceUnits g.core c.asid
      (traceRec 2 0xDE (whoOf g r.crew 0).toNat r.pc.toNat (s.dev.hb.toNat % 65536) r.exec.toNat
        (s.gr r f.a.toNat) f.i32.toInt [])) (r.next f)

end Sys2Proof.Machine
end

