-- ==== Sys2Proof/Machine/Memory.lean ====
section
/-! DEFINITION. Loads, stores, block moves, spills, prefetch, cache control, fences (R224 to R232, R235),
over one gate that makes the checks of R226 and the watch predicates' before-access point. -/

namespace Sys2Proof.Machine

/-- One lane's access after its checks (R226 steps 1 to 4). -/
inductive LChk where
  /-- A place of this device or a peer; the leaf. -/
  | ok (pa : Nat)
  /-- Scratch: the crew's uid, the offset, and the crew's core and slot. -/
  | scr (uid off core slot : Nat)
  | lat (desc off : Nat)
  | bad (fr : FRec)

def addrvAt (a : W64) (acc : Nat) : LChk := .bad { code := Code.addrv, acc := acc, va := a }

/-- A global access of `n` bytes: address bits, alignment, translation, lattice pages, soft errors. -/
def State.chkGlobal (s : State) (core asid : Nat) (a : W64) (n align acc : Nat) (write : Bool) : LChk :=
  if 2 ^ 48 ≤ a.toNat || a.toNat % align != 0 then addrvAt a acc
  else match s.translate core asid a.toNat acc write false with
    | .ok pa e =>
      if acc != Acc.store && s.leafError e pa n then .bad { code := Code.memerr, acc := acc, va := a }
      else .ok pa
    | .lattice d o => if write then .bad { code := Code.nonmono, acc := acc, va := a } else .lat d o
    | .fault fr => .bad { fr with va := a }

/-- A scratch access of `n` bytes. -/
def State.chkScratch (s : State) (g : Gid) (r : Group) (a : W64) (n align acc : Nat) (sw : Bool) : LChk :=
  match s.scratchOf g.core (s.crewOf g r) r.crew a.toNat n sw with
  | some x => if a.toNat % align != 0 then addrvAt a acc else .scr x.1 x.2.1 x.2.2.1 x.2.2.2
  | none => addrvAt a acc

def LChk.fault? : LChk → Option FRec
  | .bad fr => some fr
  | _ => none

/-- What the checks of all lanes come to: a result that ends the instruction, or the watch matches, the
lanes that go on, and the trap frames of the lanes under RANGELK. -/
inductive Gate where
  | stop (r : Res)
  | go (pre : List WMatch) (lanes : List Nat) (traps : List TrapLane)

/-- A lane's check where the group's next access to pool memory meets a link error (R302). -/
def Group.linked (r : Group) (a : W64) (acc : Nat) (c : LChk) : LChk :=
  match c with
  | .ok pa => if r.linkBad && overLink pa then addrvAt a acc else c
  | _ => c

/-- Whether no predicate is evaluated before an access: the group skips them (R346), or no lane is Active (R41). -/
def State.skipsWatch (s : State) (r : Group) (f : Fields) : Bool := r.wskip || !f.u && (s.activeLanes r f).isEmpty

/-- The gate of R226 over the lanes `ls` (helper lanes apart): faults of the lowest lane, replays, the
predicates' before-access point (R343), RANGELK lanes. `srcs` is what the before-access sources offer. -/
def State.gate (s : State) (g : Gid) (r : Group) (f : Fields) (sh : Shape) (ls : List Nat) (chk : Nat → LChk)
    (addr : Nat → W64) (locked : Nat → Bool) (srcs : List WSrc) : Gate :=
  let faulted := ls.filterMap fun l => (chk l).fault?.map fun fr => (l, fr)
  let fatal := faulted.filter fun x => x.2.code < 0x100
  let mark := fun (x : Nat × FRec) (all : List (Nat × FRec)) =>
    { x.2 with who := whoOf g r.crew x.1, lanes := laneMask (all.map (·.1)) }
  match fatal, faulted with
  | x :: _, _ => .stop (.fatal (mark x fatal))
  | [], x :: _ => .stop (.page (mark x faulted))
  | [], [] =>
    let pre := if s.skipsWatch r f then [] else s.watchMatches g r (srcs ++ [pcSrc r])
    match haltMatch pre with
    | some _ => .stop (.halt pre)
    | none =>
      let wl := (trapMatch pre).map (·.1)
      let rest := ls.filter fun l => !wl.contains l
      -- the access's kind, as its address sources tell it (R341): a load's 0, a store's 1, an atomic's both
      let has := fun n => srcs.any fun x => x.src = n
      let acc := if has 1 then (if has 0 then Acc.atomic else Acc.store) else Acc.load
      .go pre (rest.filter fun l => !locked l)
        ((rest.filter locked).map fun l => { s.trapFrame r f sh l Code.rangelk (addr l) 0 with acc := acc })

/-- Which entries of the outbox an access is compared with. -/
def LChk.space : LChk → Option (Space × Nat)
  | .ok pa => some (if isAway pa then .peer else .global, pa)
  | .scr uid off _ _ => some (.scratch uid, off)
  | _ => none

/-- A load's condition (R213): no outbox entry meets its unit without covering it; one of a register waits for every
entry that meets it. A scratch access also waits while its bytes are scoreboarded (R218). -/
def State.loadBlocked (s : State) (r : Group) (n : Nat) (c : LChk) : Bool :=
  (match c.space with
   | some (sp, a) => r.partialHit sp a n || isBlockKey a && r.outbox.any fun e => e.overlaps sp a n
   | none => false) ||
  (match c with
   | .scr uid off _ _ => s.scoreboarded uid off n
   | _ => false)

/-- One lane's load-issue step (R213): its own outbox, then scratch, or the view or home with a copy
placed in the view, or the peer's home; a lattice page reads the local replica (R263). -/
def State.loadUnit (s : State) (g : Gid) (r : Group) (n : Nat) (c : LChk) : List Byte × State :=
  match c with
  | .ok pa =>
    match r.forward? (if isAway pa then .peer else .global) pa n with
    | some bs => (bs, s)
    | none =>
      if isAway pa then (s.bytes pa n, s)
      else match s.viewLine? g.core pa with
        | some line => ((line.drop (pa % 64)).take n, s)
        | none => let s := s.correct pa n; (s.bytes pa n, s.placeLine g.core pa)
  | .scr uid off _ _ =>
    match r.forward? (.scratch uid) off n with
    | some bs => (bs, s)
    | none => (s.sbytes uid off n, s)
  | .lat d o => (s.latBytes (dieOf g.core) d o n, s)
  | .bad _ => (List.replicate n 0, s)

/-- Loads of several lanes, in lane order: their bytes, and the state with the view's new copies. -/
def State.loadLanes (s : State) (g : Gid) (r : Group) (n : Nat) (chk : Nat → LChk) :
    List Nat → List (Nat × List Byte) × State
  | [] => ([], s)
  | l :: t =>
    let x := s.loadUnit g r n (chk l)
    let y := x.2.loadLanes g r n chk t
    ((l, x.1) :: y.1, y.2)

/-- The words D receives (R228): `n` bytes widened as TY gives. -/
def widen (ty : Nat) (bs : List Byte) : List W32 :=
  let x := leNat bs
  match ty with
  | 1 => [(BitVec.ofNat 8 x).signExtend 32]
  | 3 => [(BitVec.ofNat 16 x).signExtend 32]
  | 5 => halves (BitVec.ofNat 64 x)
  | 6 => [BitVec.ofNat 32 x, BitVec.ofNat 32 (x / 2 ^ 32), BitVec.ofNat 32 (x / 2 ^ 64), BitVec.ofNat 32 (x / 2 ^ 96)]
  | _ => [BitVec.ofNat 32 x]

/-- Addr(L) of an instruction without an index (R225). -/
def State.addrPlain (s : State) (r : Group) (f : Fields) (pairBase : Bool) (l : Nat) : W64 :=
  let base := if f.ka || f.u then s.gr r f.a.toNat
    else if pairBase then s.src64 r false false f.a l else (s.v r f.a.toNat l).setWidth 64
  base + (if f.w96 then f.i32.signExtend 64 else 0)

/-- Addr(L) (R225). -/
def State.addr (s : State) (r : Group) (f : Fields) (pairBase : Bool) (l : Nat) : W64 :=
  let base := if f.ka || f.u then s.gr r f.a.toNat
    else if pairBase then s.src64 r false false f.a l else (s.v r f.a.toNat l).setWidth 64
  let idx : W64 :=
    if !f.idx then 0
    else
      let x := s.src32 r f.u f.kb f.b l
      if f.fnBits 7 7 = 1 then x.signExtend 64 else x.setWidth 64
  let off : W64 := if f.w96 then f.i32.signExtend 64 else 0
  base + BitVec.ofNat 64 (idx.toNat * 2 ^ f.scl) + off

/-- The pages that the lanes' global accesses translated are counted (R296, R297), those of lanes that make
no access after the checks among them. -/
def State.countPages (s : State) (g : Gid) (r : Group) (ls : List Nat) (chk : Nat → LChk) (addr : Nat → W64) : State :=
  s.translatedAll g.core (s.crewOf g r).asid
    (ls.filterMap fun l => match chk l with | .ok _ => some (addr l).toNat | _ => none)

/-- Whether an address lies in a range locked by a copy of the core (R218). -/
def State.lockedAt (s : State) (g : Gid) (r : Group) (n : Nat) (c : LChk) (a : W64) : Bool :=
  match c with
  | .ok _ | .lat _ _ => s.locked g.core (s.crewOf g r).asid a.toNat n
  | _ => false

/-- The offset of a place in the control block. -/
def LChk.reg? : LChk → Option Nat
  | .ok pa => if isBlockKey pa then some (pa - blockKey) else none
  | _ => none
def LChk.away : LChk → Bool
  | .ok pa => isAway pa
  | _ => false

/-- A load instruction (R228): the gate, one step of loads, the destinations. A lane on a peer device, or at a
register of the control block, makes it a remote load, whose reply is awaited (R83, R214). A helper lane loads only
what translates without a fault, and zero otherwise (R112). -/
def State.loadRes (s : State) (g : Gid) (r : Group) (f : Fields) (sh : Shape) (op n : Nat)
    (chk : Nat → LChk) (addr : Nat → W64) (ws : List Byte → List (Nat × W32)) : Res :=
  let act := s.activeLanes r f
  let ls := act.filter fun l => !r.hlp.getLsbD l
  let hs := act.filter fun l => r.hlp.getLsbD l
  let lock := fun l => s.lockedAt g r n (chk l) (addr l)
  if act.any fun l => s.loadBlocked r n (chk l) then .retry
  else match s.gate g r f sh ls chk addr lock [{ src := 0, lanes := ls, x := addr }] with
    | .stop x => x.at_ (s.countPages g r act chk addr)
    | .go pre go traps =>
      let hgo := hs.filter fun l => (chk l).fault?.isNone && !lock l
      let s1 := s.countPages g r act chk addr
      let x := s1.loadLanes g r n chk ((allLanes.filter fun l => go.contains l || hgo.contains l))
      let vals := x.1 ++ (hs.filter fun l => !hgo.contains l).map fun l => (l, List.replicate n 0)
      let s2 := x.2.trace g r op go addr
      let remote := go.any fun l => (chk l).away
      let loaded := fun l => BitVec.ofNat 64 (leNat (((x.1.find? fun v => v.1 = l).map (·.2)).getD []) % 2 ^ 64)
      if remote then
        .wait s2 { r with
          wait := .remote (vals.map fun v => { lane := v.1, dst := ws v.2, reg := (chk v.1).reg? }) 0 false (8 * min n 8)
            (go.map fun l => (l, loaded l, 0)) } (some pre) traps
      else
        .ok (vals.foldl (fun t v => (ws v.2).foldl (fun t w => t.setV r w.1 v.1 w.2) t) s2) (r.next f)
          (some pre) [{ src := 2, lanes := go, x := loaded, width := 8 * min n 8 }] traps

/-- The destination registers of a load. -/
def loadWrites (f : Fields) (bs : List Byte) : List (Nat × W32) := pieces f.d.toNat (widen f.ty bs)

/-- The asid of a group. -/
def State.asidOf (s : State) (g : Gid) (r : Group) : Nat := (s.crewOf g r).asid

/-- The check of an aligned word's load or store: a load may meet a link error (R302), and only level 2 reaches the
control block (R292). -/
def State.chkWord (s : State) (g : Gid) (r : Group) (a : W64) (n acc : Nat) (write : Bool) : LChk :=
  let c := s.chkGlobal g.core (s.asidOf g r) a n n acc write
  if c.reg?.isSome && decide (s.levelOf g r < 2) then addrvAt a acc
  else if write then c else r.linked a acc c

def execLd (f : Fields) (s : State) : Host.Outcome State Fault Refusal :=
  issue 0 f (shapeLd f) s fun s g r =>
    let n := tyBytes f.ty
    let addr := fun l => s.addr r f true l
    s.loadRes g r f (shapeLd f) 0x70 n
      (fun l => s.chkWord g r (addr l) n Acc.load false) addr (loadWrites f)

def execLds (f : Fields) (s : State) : Host.Outcome State Fault Refusal :=
  issue 0 f (shapeLds f) s fun s g r =>
    let n := tyBytes f.ty
    let addr := fun l => s.addr r f false l
    s.loadRes g r f (shapeLds f) 0x72 n
      (fun l => s.chkScratch g r (addr l) n n Acc.load (f.fnBits 8 8 == 1)) addr (loadWrites f)

/-- The 64 bits a group-wide LDC writes (R228). -/
def widenG (ty : Nat) (bs : List Byte) : W64 :=
  let x := leNat bs
  match ty with
  | 1 => (BitVec.ofNat 8 x).signExtend 64
  | 3 => (BitVec.ofNat 16 x).signExtend 64
  | _ => BitVec.ofNat 64 x

/-- LDC (R228). Its group-wide form makes one access, which counts as made by every contributing lane: those are the
lanes that its faults name, that a predicate sees and that a locked range traps; where there is none the access is
made all the same (log 128: DESIGN CHOICE, unsafe). -/
def execLdc (f : Fields) (s : State) : Host.Outcome State Fault Refusal :=
  issue 0 f (shapeLdc f) s fun s g r =>
    let n := tyBytes f.ty
    let addr := fun l => s.addr r f true l
    let chk := fun l => s.chkWord g r (addr l) n Acc.load false
    if f.u then
      let ls := s.contrib r f
      let s1 := s.countPages g r [0] chk addr
      if s.loadBlocked r n (chk 0) then .retry
      else match s.gate g r f (shapeLdc f) (if ls.isEmpty then [0] else ls) chk addr
          (fun l => !ls.isEmpty && s.lockedAt g r n (chk l) (addr l)) [{ src := 0, lanes := ls, x := addr }] with
        | .stop x => x.at_ s1
        | .go pre go traps =>
          let x := s1.loadUnit g r n (chk 0)
          let by_ := go.filter ls.contains
          let loaded := BitVec.ofNat 64 (leNat x.1)
          if go.isEmpty then .ok s1 (r.next f) (some pre) [{ src := 2, lanes := [], x := addr }] traps
          else
            let s2 := x.2.trace g r 0x74 by_ addr
            let reply : Pending := { lane := 32, dst := (halves (widenG f.ty x.1)).map (f.d.toNat, ·), reg := (chk 0).reg? }
            if (chk 0).away then
              .wait s2 { r with wait := .remote [reply] 0 false (8 * n) (by_.map fun l => (l, loaded, 0)) } (some pre) traps
            else .ok (s2.setG r f.d.toNat (widenG f.ty x.1)) (r.next f) (some pre)
              [{ src := 2, lanes := by_, x := fun _ => loaded, width := 8 * n }] traps
    else s.loadRes g r f (shapeLdc f) 0x74 n chk addr (loadWrites f)

/-! ### Stores -/

/-- Cells of the lanes' stores (place, the group's address, byte, lane), in lane order: a later lane's byte
stands (R213). -/
def mergeCells (cs : List (Nat × Nat × Byte × Nat)) : List (Nat × Nat × Byte × Nat) :=
  cs.foldl (fun acc c => (acc.filter fun x => x.1 != c.1) ++ [c]) []

/-- Inserts in address order. -/
def insertCell (c : Nat × Nat × Byte × Nat) : List (Nat × Nat × Byte × Nat) → List (Nat × Nat × Byte × Nat)
  | [] => [c]
  | x :: t => if c.1 ≤ x.1 then c :: x :: t else x :: insertCell c t

/-- One entry for each 16-byte unit of a space, in increasing address order (R213, log 5: DEDUCED, unsafe). -/
def unitEntries (sp : Space) (cs : List (Nat × Nat × Byte × Nat)) : List Ent :=
  let cs := (mergeCells cs).foldr insertCell []
  (sortNat (cs.map fun c => c.1 / 16)).map fun u =>
    let mine := cs.filter fun c => c.1 / 16 = u
    { space := sp, cells := mine.map fun c => (c.1, c.2.2.1), vas := mine.map fun c => c.2.1,
      lanes := mine.map fun c => c.2.2.2 }

/-- The entries of a store instruction: scratch by crew, this device, peers. -/
def storeEntries (cs : List (Space × Nat × Nat × Byte × Nat)) : List Ent :=
  let spaces := cs.foldl (fun a c => if a.contains c.1 then a else a ++ [c.1]) ([] : List Space)
  spaces.flatMap fun sp => unitEntries sp ((cs.filter fun c => c.1 == sp).map fun c => c.2)

/-- The cells of one lane's store of bytes. -/
def laneCells (l : Nat) (c : LChk) (a : Nat) (bs : List Byte) : List (Space × Nat × Nat × Byte × Nat) :=
  match c.space with
  | none => []
  | some (sp, x) => (List.range bs.length).map fun i => (sp, x + i, a + i, bs.getD i 0, l)

/-- A store's scratch bytes must not be scoreboarded (R218). -/
def State.storeBlocked (s : State) (n : Nat) (c : LChk) : Bool :=
  match c with
  | .scr uid off _ _ => s.scoreboarded uid off n
  | _ => false

/-- A store instruction (R228): the gate, then its entries join the outbox. -/
def State.storeRes (s : State) (g : Gid) (r : Group) (f : Fields) (sh : Shape) (op n : Nat)
    (chk : Nat → LChk) (addr : Nat → W64) (data : Nat → List Byte) : Res :=
  let ls := s.contrib r f
  let lock := fun l => s.lockedAt g r n (chk l) (addr l)
  if ls.any fun l => s.storeBlocked n (chk l) then .retry
  else match s.gate g r f sh ls chk addr lock
      [{ src := 1, lanes := ls, x := addr },
       { src := 3, lanes := ls, x := fun l => BitVec.ofNat 64 (leNat (data l) % 2 ^ 64), width := 8 * min n 8 }] with
    | .stop x => x.at_ (s.countPages g r ls chk addr)
    | .go pre go traps =>
      let es := storeEntries (go.flatMap fun l => laneCells l (chk l) (addr l).toNat (data l))
      let s1 := (s.countPages g r ls chk addr).trace g r op go addr
      .ok s1 { r.next f with outbox := r.outbox ++ es.map fun e => { e with pc := r.pc } } (some pre) [] traps

/-- The data of C: the low bytes of a register, a pair or a quad (R228). -/
def State.storeData (s : State) (r : Group) (f : Fields) (l : Nat) : List Byte :=
  let n := tyBytes f.ty
  if f.ty = 6 then (List.range 4).flatMap fun i => leBytes 4 (s.v r (f.c.toNat + i) l).toNat
  else if f.ty = 5 then leBytes 8 (s.src64 r false f.kc f.c l).toNat
  else leBytes n (s.src32 r false f.kc f.c l).toNat

def execSt (f : Fields) (s : State) : Host.Outcome State Fault Refusal :=
  issue 0 f (shapeSt f) s fun s g r =>
    let n := tyBytes f.ty
    let addr := fun l => s.addr r f true l
    s.storeRes g r f (shapeSt f) 0x71 n (fun l => s.chkWord g r (addr l) n Acc.store true) addr
      fun l => s.storeData r f l

def execSts (f : Fields) (s : State) : Host.Outcome State Fault Refusal :=
  issue 0 f (shapeSts f) s fun s g r =>
    let n := tyBytes f.ty
    let addr := fun l => s.addr r f false l
    s.storeRes g r f (shapeSts f) 0x73 n
      (fun l => s.chkScratch g r (addr l) n n Acc.store (f.fnBits 8 8 == 1)) addr fun l => s.storeData r f l

/-! ### Scale groups (R229) -/

/-- A lane's group and its scale, each in units of up to 16 bytes: a list of (address, bytes) checks. -/
def blkUnits (a b : W64) (gb : Nat) : List (W64 × Nat) :=
  (if gb < 16 then [(a, gb)] else (List.range (gb / 16)).map fun i => (a + BitVec.ofNat 64 (16 * i), 16)) ++ [(b, 1)]

/-- The failing check of units, in R226's order: an address out of range or misaligned; a translation that fails, ADDRV
before a replayable fault; a lattice page; an error of the bytes themselves. -/
def worstUnit (us : List (LChk × Nat × Nat)) : Option (LChk × Nat × Nat) :=
  (us.find? fun u => decide (2 ^ 48 ≤ u.2.1) || u.2.1 % u.2.2 != 0 && u.1.fault?.isSome) <|>
    (us.find? fun u => u.1.fault?.any fun fr => fr.code == Code.addrv) <|>
    (us.find? fun u => u.1.fault?.any fun fr => decide (0x100 ≤ fr.code)) <|>
    (us.find? fun u => u.1.fault?.any fun fr => fr.code == Code.nonmono) <|>
    (us.find? fun u => u.1.fault?.isSome)

/-- A unit's check where it is read: it may meet a link error (R302). -/
def State.chkUnit (s : State) (r : Group) (core asid : Nat) (a : W64) (n acc : Nat) (write : Bool) : LChk :=
  let c := s.chkGlobal core asid a n n acc write
  if c.reg?.isSome then addrvAt a acc else if write then c else r.linked a acc c

/-- The failing check of a lane's units, or the first unit's; and every unit's place. The group's alignment
is min(gb, 16). -/
def State.chkBlk (s : State) (r : Group) (core asid : Nat) (a b : W64) (gb acc : Nat) (write : Bool) :
    LChk × List (LChk × Nat × Nat) :=
  let us := (blkUnits a b gb).map fun u => (s.chkUnit r core asid u.1 u.2 acc write, u.1.toNat, u.2)
  match worstUnit us with
  | some u => (u.1, us)
  | none => ((us.headD (addrvAt a acc, 0, 0)).1, us)

/-- A unit's bytes at home, or in the local replica (R213, R263). -/
def State.homeUnit (s : State) (die : Nat) (u : LChk × Nat × Nat) : List Byte :=
  match u.1 with
  | .ok pa => s.bytes pa u.2.2
  | .lat d o => s.latBytes die d o u.2.2
  | _ => List.replicate u.2.2 0

def execLdb (f : Fields) (s : State) : Host.Outcome State Fault Refusal :=
  issue 0 f (shapeLdb f) s fun s g r =>
    let gb := f.gb
    let a := fun l => s.src64 r false f.ka f.a l
    let b := fun l => s.src64 r false f.kb f.b l
    let chk := fun l => s.chkBlk r g.core (s.asidOf g r) (a l) (b l) gb Acc.load false
    let act := s.activeLanes r f
    let ls := s.contrib r f
    let hs := act.filter fun l => r.hlp.getLsbD l
    let lock := fun l => (chk l).2.any fun u => s.locked g.core (s.asidOf g r) u.2.1 u.2.2
    let meets := fun l => (chk l).2.any fun u =>
      match u.1.space with
      | some (sp, x) => r.outbox.any fun e => e.overlaps sp x u.2.2
      | none => false
    let places := fun (ls : List Nat) => ls.flatMap fun l => (chk l).2.filterMap fun u => match u.1 with
      | .ok pa => some (u.2.1, pa)
      | _ => none
    let s1 := s.translatedAll g.core (s.asidOf g r) ((places act).map (·.1))
    if act.any meets then .retry
    else match s.gate g r f (shapeLdb f) ls (fun l => (chk l).1) a lock [{ src := 0, lanes := ls, x := a }] with
      | .stop x => x.at_ s1
      | .go pre go traps =>
        let hgo := hs.filter fun l => (chk l).1.fault?.isNone && !lock l
        let bytes := fun l => if go.contains l || hgo.contains l
          then (chk l).2.flatMap fun u => s.homeUnit (dieOf g.core) u else List.replicate (gb + 1) 0
        let ws := fun l => pieces f.d.toNat ((List.range (gb / 4 + 1)).map fun i =>
          BitVec.ofNat 32 (leNat (((bytes l).drop (4 * i)).take (if i = gb / 4 then 1 else 4))))
        let s2 := (s1.readHome g.core ((places (go ++ hgo)).map (·.2))).trace g r 0x75 go a
        let remote := go.any fun l => (chk l).2.any fun u => match u.1 with | .ok pa => isPeer pa | _ => false
        let loaded := fun l => BitVec.ofNat 64 (leNat ((bytes l).take 8))
        if remote then
          .wait s2 { r with
            wait := .remote ((go ++ hs).map fun l => { lane := l, dst := ws l }) 1 false 64
              (go.map fun l => (l, loaded l, 0)) } (some pre) traps
        else .ok (s2.writeV r (go ++ hs) ws) (r.next f) (some pre) [{ src := 2, lanes := go, x := loaded }] traps

def execStb (f : Fields) (s : State) : Host.Outcome State Fault Refusal :=
  issue 0 f (shapeStb f) s fun s g r =>
    let gb := f.gb
    let a := fun l => s.src64 r false f.ka f.a l
    let b := fun l => s.src64 r false f.kb f.b l
    let chk := fun l => s.chkBlk r g.core (s.asidOf g r) (a l) (b l) gb Acc.store true
    let data := fun l => (List.range (gb / 4)).flatMap (fun i => leBytes 4 (s.v r (f.c.toNat + i) l).toNat) ++
      leBytes 1 (s.v r (f.c.toNat + gb / 4) l).toNat
    let ls := s.contrib r f
    let lock := fun l => (chk l).2.any fun u => s.locked g.core (s.asidOf g r) u.2.1 u.2.2
    let s1 := s.translatedAll g.core (s.asidOf g r)
      (ls.flatMap fun l => (chk l).2.filterMap fun u => match u.1 with | .ok _ => some u.2.1 | _ => none)
    match s.gate g r f (shapeStb f) ls (fun l => (chk l).1) a lock
        [{ src := 1, lanes := ls, x := a },
         { src := 3, lanes := ls, x := fun l => BitVec.ofNat 64 (leNat ((data l).take 8)) }] with
    | .stop x => x.at_ s1
    | .go pre go traps =>
      -- one entry for each lane, holding the whole group and its scale
      let ent := fun l =>
        let us := (chk l).2
        let offs := (List.range us.length).map fun i => ((us.take i).map (·.2.2)).sum
        let cs := (List.range us.length).flatMap fun i =>
          match us[i]? with
          | some u => laneCells l u.1 u.2.1 (((data l).drop (offs.getD i 0)).take u.2.2)
          | none => []
        ({ space := if cs.all fun c => c.1 == .peer then .peer else .global, cells := cs.map fun c => (c.2.1, c.2.2.2.1),
           vas := cs.map fun c => c.2.2.1, lanes := cs.map fun c => c.2.2.2.2 } : Ent)
      .ok (s1.trace g r 0x76 go a) { r.next f with outbox := r.outbox ++ go.map fun l => { ent l with pc := r.pc } } (some pre) [] traps

/-! ### Spills (R147, R230) -/

/-- The spill form of 32 words: format byte and transferred bytes (R147). -/
def spillForm (xs : List W32) : Nat × List Byte :=
  let base := xs.headD 0
  let ds := xs.map fun x => (x - base).toInt
  if ds.all fun d => -128 ≤ d && d ≤ 127 then
    (1, leBytes 4 base.toNat ++ ds.map (fun d => BitVec.ofInt 8 d) ++ List.replicate 28 0)
  else if ds.all fun d => -32768 ≤ d && d ≤ 32767 then
    (2, leBytes 4 base.toNat ++ ds.flatMap (fun d => leBytes 2 (BitVec.ofInt 16 d).toNat) ++ List.replicate 28 0)
  else (0, xs.flatMap fun x => leBytes 4 x.toNat)

/-- Bytes a format byte transfers; none for another byte. -/
def spillLen (fb : Nat) : Option Nat :=
  match fb with
  | 0 => some 128
  | 1 => some 64
  | 2 => some 96
  | _ => none

/-- The words a slot restores (R147). -/
def unspill (fb : Nat) (bs : List Byte) : List W32 :=
  let base := BitVec.ofNat 32 (leNat (bs.take 4))
  allLanes.map fun l =>
    match fb with
    | 1 => base + (bs.getD (4 + l) 0).signExtend 32
    | 2 => base + (BitVec.ofNat 16 (leNat ((bs.drop (4 + 2 * l)).take 2))).signExtend 32
    | _ => BitVec.ofNat 32 (leNat ((bs.drop (4 * l)).take 4))

/-- The places of `n` bytes from `a` of a spill frame, in units of up to 16 bytes: one access by the group. -/
def State.frameUnits (s : State) (g : Gid) (r : Group) (f : Fields) (a : W64) (n acc : Nat) (write : Bool) :
    List (LChk × Nat × Nat) :=
  let one := fun (a : W64) (k : Nat) =>
    if f.fnIs 1 then s.chkScratch g r a k k acc false else s.chkUnit r g.core (s.asidOf g r) a k acc write
  if n < 16 then [(one a n, a.toNat, n)]
  else (List.range (n / 16)).map fun i =>
    let x := a + BitVec.ofNat 64 (16 * i)
    (one x 16, x.toNat, 16)

/-- The outcome of a frame's checks: a fault, or none. A frame is 4,096-byte aligned. -/
def State.frameFault (s : State) (frame : W64) (us : List (LChk × Nat × Nat)) (acc : Nat) :
    Option Res :=
  if frame.toNat % 4096 != 0 then some (.fatal { code := Code.addrv, acc := acc, va := frame })
  else match (worstUnit us).bind fun u => u.1.fault? with
    | some fr => some (if fr.code < 0x100 then .fatal fr else .page fr)
    | none => if us.any fun u => s.storeBlocked u.2.2 u.1 then some .retry else none

/-- Whether a frame, as one access of 4,096 bytes (R230), meets a range locked by a copy of the core (R218). -/
def State.frameLocked (s : State) (g : Gid) (r : Group) (f : Fields) (frame : W64) : Bool :=
  !f.fnIs 1 && s.locked g.core (s.asidOf g r) frame.toNat 4096

/-- What a spill frame whose checks have passed meets next: the predicates at its PC, and a locked range,
which is RANGELK in every lane of EXEC (the frame is one access by the group, R230); or the lanes that a
predicate keeps from the access (log 87: DEDUCED, unsafe). -/
def State.frameGate (s : State) (g : Gid) (r : Group) (f : Fields) (sh : Shape) (frame : W64)
    (us : List (LChk × Nat × Nat)) (acc : Nat) : Gate :=
  let pre := if r.wskip then [] else s.watchMatches g r [pcSrc r]
  let wl := (trapMatch pre).map (·.1)
  let s1 := s.translatedAll g.core (s.asidOf g r)
    (us.filterMap fun u => match u.1 with | .ok _ => some u.2.1 | _ => none)
  match haltMatch pre with
  | some _ => .stop (.haltAt s1 pre)
  | none =>
    if s.frameLocked g r f frame then
      .stop (.ok s1 (r.next f) (some pre) []
        (((maskLanes r.exec).filter fun l => !wl.contains l).map fun l => { s.trapFrame r f sh l Code.rangelk frame 0 with acc := acc }))
    else .go pre (allLanes.filter fun l => !wl.contains l) []

/-- The lane whose word a byte of a spill form belongs to, 32 for the base and the padding (R147). -/
def spillLane (fmt i : Nat) : Nat :=
  match fmt with
  | 0 => i / 4
  | 1 => if 4 ≤ i && i < 36 then i - 4 else 32
  | _ => if 4 ≤ i && i < 68 then (i - 4) / 2 else 32

def execSpill (f : Fields) (s : State) : Host.Outcome State Fault Refusal :=
  issue 0 f (shapeSpill f) s fun s g r =>
    let frame := s.gr r f.a.toNat
    let slot := f.imm.toNat
    let form := spillForm (allLanes.map fun l => s.v r f.c.toNat l)
    let base := frame + BitVec.ofNat 64 (128 * (slot + 1))
    let us := s.frameUnits g r f base form.2.length Acc.store true
    let fb := s.frameUnits g r f (frame + BitVec.ofNat 64 slot) 1 Acc.store true
    match s.frameFault frame (us ++ fb) Acc.store with
    | some x => x
    | none => match s.frameGate g r f (shapeSpill f) frame (us ++ fb) Acc.store with
      | .stop x => x
      | .go pre go _ =>
        let cs := fun (us : List (LChk × Nat × Nat)) (bs : List Byte) => (List.range us.length).flatMap fun i =>
          match us[i]? with
          | some u => laneCells 0 u.1 u.2.1 ((bs.drop (16 * i)).take u.2.2)
          | none => []
        let mine := (cs us form.2).filter fun c =>
          let l := spillLane form.1 (c.2.2.1 - base.toNat)
          decide (l = 32) || go.contains l
        let es := storeEntries mine ++ storeEntries (cs fb [BitVec.ofNat 8 form.1])
        let s1 := s.translatedAll g.core (s.asidOf g r)
          ((us ++ fb).filterMap fun u => match u.1 with | .ok _ => some u.2.1 | _ => none)
        .ok s1 { r.next f with outbox := r.outbox ++ (if go.isEmpty then [] else es).map fun e => { e with pc := r.pc } }
          (some pre) [] []

/-- Loads units in order, under the load-issue step. -/
def State.loadUnits (s : State) (g : Gid) (r : Group) : List (LChk × Nat × Nat) → List Byte × State
  | [] => ([], s)
  | u :: t =>
    let x := s.loadUnit g r u.2.2 u.1
    let y := x.2.loadUnits g r t
    (x.1 ++ y.1, y.2)

/-- Log 42: DEDUCED, unsafe. -/
def execFill (f : Fields) (s : State) : Host.Outcome State Fault Refusal :=
  issue 0 f (shapeFill f) s fun s g r =>
    let frame := s.gr r f.a.toNat
    let slot := f.imm.toNat
    let fb := s.frameUnits g r f (frame + BitVec.ofNat 64 slot) 1 Acc.load false
    match s.frameFault frame fb Acc.load with
    | some x => x
    | none =>
      if fb.any fun u => s.loadBlocked r u.2.2 u.1 then .retry
      else
        let x := s.loadUnits g r fb
        let fmt := leNat x.1
        match (if s.frameLocked g r f frame then some 0 else spillLen fmt) with
        | none => .fatal { code := Code.spillfmt, va := frame }
        | some n =>
          let us := if n = 0 then [] else s.frameUnits g r f (frame + BitVec.ofNat 64 (128 * (slot + 1))) n Acc.load false
          match s.frameFault frame us Acc.load with
          | some z => z
          | none =>
            if us.any fun u => s.loadBlocked r u.2.2 u.1 then .retry
            else match s.frameGate g r f (shapeFill f) frame (us ++ fb) Acc.load with
              | .stop z => z
              | .go pre go _ =>
                let y := x.2.loadUnits g r us
                let ws := unspill fmt y.1
                let s1 := y.2.translatedAll g.core (s.asidOf g r)
                  ((us ++ fb).filterMap fun u => match u.1 with | .ok _ => some u.2.1 | _ => none)
                -- a frame on a peer device is a remote load (R214)
                if (us ++ fb).any fun u => match u.1 with | .ok pa => isPeer pa | _ => false then
                  .wait s1 { r with
                    wait := .remote (go.map fun l => { lane := l, dst := [(f.d.toNat, ws.getD l 0)] }) 3 false 32 [] }
                    (some pre) []
                else .ok (s1.writeV r go fun l => [(f.d.toNat, ws.getD l 0)]) (r.next f) (some pre) [] []

/-! ### Prefetch, cache control, fences (R231, R232, R215, R216) -/

/-- A prefetch changes nothing a later load returns (R231); the pages of its lanes that translate are counted (R296,
R297). -/
def execPref (f : Fields) (s : State) : Host.Outcome State Fault Refusal :=
  issue 0 f (shapePref f) s fun s g r =>
    let addr := fun l => s.addr r f true l
    .done (s.countPages g r (s.activeLanes r f) (fun l => s.chkGlobal g.core (s.asidOf g r) (addr l) 1 1 Acc.load false) addr)
      (r.next f)

/-- CCTL waits until its action is done (CCTL_COMPLETION). The program of R232 has CCTL.ic act on bytes that a
fence has sent home: it waits behind a release marker (log 34: DEDUCED, unsafe). -/
def execCctlIc (f : Fields) (s : State) : Host.Outcome State Fault Refusal :=
  issue 0 f (shapeCctlIc f) s fun s _ r =>
    if r.outbox.any fun e => e.marker.isSome then .retry
    else .hold s { r with wait := .cctl 0 (s.gr r f.a.toNat).toNat (s.gr r f.b.toNat).toNat }

def execCctlView (f : Fields) (s : State) : Host.Outcome State Fault Refusal :=
  issue 0 f (shapeCctlView f) s fun s _ r => .hold s { r with wait := .cctl 1 0 0 }

def execCctlWb (f : Fields) (s : State) : Host.Outcome State Fault Refusal :=
  issue 0 f (shapeCctlWb f) s fun s _ r =>
    .hold s { r with wait := .cctl 2 (s.gr r f.a.toNat).toNat (s.gr r f.b.toNat).toNat }

/-- The marker a release of a scope appends (R214): 0 group, 1 crew, 2 sheaf, 3 device, 4 domain. A
marker that would be the oldest entry leaves at once (R213). -/
def relMarker (scope : Nat) (outbox : List Ent) : List Ent :=
  if scope = 0 || outbox.isEmpty then outbox else outbox ++ [{ marker := some (scope = 4) }]
/-- Whether an acquire of a scope empties the view (R214). -/
def acqEmpties (scope : Nat) : Bool := decide (2 ≤ scope)

def execFence (f : Fields) (s : State) : Host.Outcome State Fault Refusal :=
  issue 0 f (shapeFence f) s fun s g r =>
    let kind := f.fnBits 1 0
    let scope := f.fnBits 4 2
    let r' := if kind = 1 then r else { r with outbox := relMarker scope r.outbox }
    .done (if kind != 2 && acqEmpties scope then s.emptyView g.core else s) (r'.next f)

/-- FSC issues once its group's outbox is empty; it empties the view and waits for the tick (R216). -/
def execFsc (f : Fields) (s : State) : Host.Outcome State Fault Refusal :=
  issue 0 f (shapeFsc f) s fun s g r =>
    if r.outbox.isEmpty then .hold (s.emptyView g.core) { r with wait := .fsc } else .retry

end Sys2Proof.Machine
end

