-- ==== Sys2Proof/Machine/Home.lean ====
section
/-! DEFINITION. Writes at the home slice (R211, R213), compressible pages and their agent (R303, R304),
and the events of outboxes, views and remote accesses: DRAIN, EVICT, REMOTE_REPLY, CCTL_COMPLETION,
SLEEP_EXPIRY, YIELD_END, BACK_INVALIDATE; and a group's access that meets a link error. -/

namespace Sys2Proof.Machine

/-! ### Compressible pages (R303, R304) -/

/-- Every TLB drops the leaf that stands at an address (R307). -/
def State.dropLeaf (s : State) (ea : Nat) : State :=
  { s with cores := s.cores.map fun (e : Nat × Core) => (e.1, { e.2 with tlb := e.2.tlb.filter fun x => x.2.2.2 != ea }),
           dies := s.dies.map fun (e : Nat × Die) => (e.1, { e.2 with tlb := e.2.tlb.filter fun x => x.2.2.2 != ea }) }

/-- An outbox entry's cells follow a page that moves. -/
def Ent.moved (a b : Nat) (e : Ent) : Ent :=
  if e.space = .global then
    { e with cells := e.cells.map fun (c : Nat × Byte) => if a ≤ c.1 && c.1 < a + 4096 then (b + (c.1 - a), c.2) else c }
  else e

/-- So do the places of an atomic's or a future instruction's lanes that have still to step. -/
def Wait.moved (a b : Nat) : Wait → Wait
  | .futs todo ps => .futs todo (ps.map fun (p : Nat × Nat) => if p.2 = a then (p.1, b) else p)
  | .atom todo did => .atom (todo.map fun (t : Nat × Nat × Nat) =>
      if t.2.1 = 0 && a ≤ t.2.2 && t.2.2 < a + 4096 then (t.1, 0, b + (t.2.2 - a)) else t) did
  | w => w

/-- The place of an atomic's lane that is to be translated anew: its step waited for a replay (R299, R307). -/
def atomAnew : Nat := 2 ^ 63
/-- A wait that goes on after a replay: the lanes left of an atomic or a future instruction are translated anew. -/
def Wait.anew : Wait → Wait
  | .atom todo did => .atom (todo.map fun (t : Nat × Nat × Nat) => if t.2.1 = 0 then (t.1, 0, atomAnew) else t) did
  | .futs todo _ => .futs todo []
  | .units _ => .none
  | w => w

/-- A compressible page's image moves whole from one place to another, with all that names its bytes. -/
def State.movePage (s : State) (a b : Nat) : State :=
  if a = b then s else
  let bs := s.bytes a 4096
  let s := { s with mem := tclear s.mem a (a + 4096) }
  let s := if 2 ^ 62 ≤ b then s else s.store b bs
  let ok := if 2 ^ 62 ≤ a then true else tget false s.images (a / 4096)
  let imgs := tset false (tset false s.images (a / 4096) false) (b / 4096) (decide (b < 2 ^ 62) && ok)
  { s with images := imgs,
           groups := s.groups.map fun (e : Nat × Group) => (e.1, { e.2 with
             outbox := e.2.outbox.map (Ent.moved a b), wait := e.2.wait.moved a b, kept := e.2.kept.moved a b }),
           cores := s.cores.map fun (e : Nat × Core) => (e.1, { e.2 with view := tclear e.2.view (a / 64) (a / 64 + 64) }) }

/-- A leaf with SECT and CSZ replaced. -/
def setSect (e : W64) (sect csz : Nat) : W64 :=
  BitVec.ofNat 64 (e.toNat % 4096 + sect % 2 ^ 42 * 4096 + csz % 8 * 2 ^ 54 + e.toNat / 2 ^ 57 * 2 ^ 57)

/-- The sectors a page's image needs: none for a page of zeros (R303). (Log 12: DESIGN CHOICE, safe.) -/
def imageNeed (bs : List Byte) : Nat := if bs.all (· == 0) then 0 else max 1 (min 4 (Config.imageSectors bs))

/-- What a write at the home slice comes to. -/
inductive HomeWrite where
  | ok (s : State)
  /-- CAPF (R304). -/
  | capf (fr : FRec)
  /-- A write that met CAPF waits for the page: this one is not made ahead of it (R304). -/
  | busy

/-- Whether a write of another party to a page met CAPF and is not made yet. -/
def State.pageHeld (s : State) (me : Party) (asid vpn : Nat) : Bool :=
  let grp := fun (a : Nat) (r : Group) =>
    (me != .group r.uid && r.capf == some (asid, vpn)) ||
      (a == asid && r.outbox.any fun e => e.capf && e.vas.any fun v => v / 4096 == vpn)
  s.groups.any (fun e => grp (s.crewOf (keyGid e.1) e.2).asid e.2) ||
    s.saved.any (fun e => e.2.groups.any (fun x => grp e.2.crew.asid x.2) ||
      e.2.copies.any (fun x => x.2.capf == some (asid, vpn)) || e.2.ops.any fun x => x.2.capf == some (asid, vpn)) ||
    s.copies.any (fun e => me != .copy e.1 && e.2.capf == some (asid, vpn)) ||
    s.ops.any (fun e => me != .op e.1 && e.2.capf == some (asid, vpn)) ||
    s.pushes.any (fun e => me != .push e.1 && e.2.capf == some (asid, vpn)) ||
    s.launches.any (fun e => me != .launch e.1 && e.2.capf == some (asid, vpn)) ||
    s.lanes.any (fun e => me != .lane e.1 && e.2.capf == some (asid, vpn))

/-- A ring of frames (R303): WIDX, RIDX, 2^log entries of 8 bytes from +16. -/
def State.ringEntry (s : State) (base log i : Nat) : Nat := s.pword (base + 16 + 8 * (i % 2 ^ log)) 8

/-- Writes bytes of one 4 KiB page at home, through the compression agent where the page is compressible; a pinned
page among them meets CAPF as another does (log 105: DEDUCED, unsafe). `va` is an address in the page under `asid`;
`me` makes the write. -/
def State.homeWrite (s : State) (me : Party) (asid va : Nat) (cells : List (Nat × Byte)) : HomeWrite :=
  if cells.all fun c => plainKey c.1 then .ok (s.storeCells cells)
  else match s.walk asid va 4 (s.rootOf asid) with
    | .stop _ _ _ => .ok (s.storeCells cells)
    | .leaf e lvl ea =>
      if !bitOf e 7 then .ok (s.storeCells (cells.map fun c => (s.home (placeOf e lvl ea (va / 4096 * 4096 + c.1 % 4096)), c.2)))
      else if s.pageHeld me asid (va / 4096) then .busy
      else
        let a := placeOf e lvl ea (va / 4096 * 4096)
        let s1 := s.storeCells (cells.map fun c => (a + c.1 % 4096, c.2))
        let bs := s1.bytes a 4096
        let csz := bitsOf e 56 54
        let n := imageNeed bs
        if n ≤ csz then
          if n = csz then .ok s1
          else
            let e' := setSect e (bitsOf e 53 12) n
            .ok (((s1.movePage a (placeOf e' lvl ea (va / 4096 * 4096))).pstore ea 8 e'.toNat).dropLeaf ea)
        else
          let i := (s.cregion? asid va).getD 0
          let o := 0x3C00 + 32 * i
          let sp := bitsOf (s.ctlw (o + 16)) 51 12 * 4096
          let splog := bitsOf (s.ctlw (o + 16)) 4 0
          let rt := bitsOf (s.ctlw (o + 24)) 51 12 * 4096
          let rtlog := bitsOf (s.ctlw (o + 24)) 4 0
          let w := s.pword sp 8
          let rd := s.pword (sp + 8) 8
          let rw := s.pword rt 8
          -- rings or a frame on a peer that may not be accessed (R370, log 120: DESIGN CHOICE, unsafe)
          if !s.answers sp || !s.answers rt || !s.answers (s.ringEntry sp splog rd / 4096 * 4096) || w = rd || decide (2 ^ rtlog ≤ (rw + 2 ^ 64 - s.pword (rt + 8) 8) % 2 ^ 64) then
            .capf { code := Code.capf, acc := Acc.store, lvl := 1, asid := asid, va := BitVec.ofNat 64 va, pte := e,
                    need := n, creg := i }
          else
            let fr := s.ringEntry sp splog rd / 4096 % 2 ^ 40 * 4
            let e' := setSect e fr n
            let s2 := (s1.movePage a (placeOf e' lvl ea (va / 4096 * 4096))).pstore ea 8 e'.toNat
            let s3 := (s2.dropLeaf ea).pstore (sp + 8) 8 (rd + 1)
            let s4 := if csz = 0 then s3
              else (s3.pstore (rt + 16 + 8 * (rw % 2 ^ rtlog)) 8 (bitsOf e 53 12 * 1024 + csz)).pstore rt 8 (rw + 1)
            let c := s.ctlw (o + 8)
            .ok (s4.setCtl (o + 8) (BitVec.ofNat 64 (c.toNat % 2 ^ 32 + min (c.toNat / 2 ^ 32 + 1) 0xFFFFFFFF * 2 ^ 32)))

/-! ### Ended groups (R99, R100) -/

/-- A group that has ended leaves once its outbox is empty: its granules pass to the crew's free granules
and its slot frees. -/
def State.reap (s : State) (g : Gid) : State :=
  match s.group? g with
  | none => s
  | some r =>
    match r.kind with
    | .own =>
      if r.live = 0 && r.outbox.isEmpty && r.traps.isEmpty && r.wait = .none && !s.regsHeld r.uid 0 then
        ({ s with groups := tdel s.groups (gidKey g) } : State).addFree g.core r.crew r.gran
      else s
    | .packed _ _ => s.packedEnd g
    | .handler _ => s.endHandler g
    -- the kill follows (FATAL_HANDLER_START)
    | .fatal _ => s

/-! ### DRAIN and EVICT (R213) -/

/-- Older markers hold an entry back: one of all, or one of this device unless the entry is a peer's. -/
def Ent.heldBy (e o : Ent) : Bool :=
  match o.marker with
  | some all => all || e.space != .peer
  | none => o.space.same e.space && o.cells.any fun c => e.cells.any fun d => c.1 == d.1

def dropMarkers : List Ent → List Ent
  | [] => []
  | e :: t => if e.marker.isSome then dropMarkers t else e :: t

/-- Whether entry `k` may leave. -/
def Group.drainable (r : Group) (k : Nat) : Bool :=
  match r.outbox[k]? with
  | none => false
  | some e => (e.marker.isNone && !e.stall && !((r.outbox.take k).any fun o => e.heldBy o)) || (e.marker.isSome && k == 0)

/-- Pages of an entry's bytes: the cells by page of their virtual address. -/
def Ent.pages (e : Ent) : List (Nat × List (Nat × Byte)) :=
  (sortNat (e.vas.map (· / 4096))).map fun p =>
    (p * 4096, (List.range e.cells.length).filterMap fun i =>
      if e.vas.getD i 0 / 4096 = p then e.cells[i]? else none)

/-- Writes every page of an entry, or none where one takes CAPF. -/
def State.homeWrites (s : State) (me : Party) (asid : Nat) : List (Nat × List (Nat × Byte)) → HomeWrite
  | [] => .ok s
  | p :: t => match s.homeWrite me asid p.1 p.2 with
    | .capf fr => .capf fr
    | .busy => .busy
    | .ok s' => s'.homeWrites me asid t

/-- The lanes whose bytes lie on a page of an entry, and the lowest one's address (R305). -/
def Ent.faultLanes (e : Ent) (p : Nat) : W32 × Nat × Nat :=
  let xs := ((List.range e.vas.length).map fun i => (e.lanes.getD i 0, e.vas.getD i 0)).filter fun x => x.2 / 4096 = p / 4096
  let l := (xs.map (·.1)).foldl min ((xs.headD (0, p)).1)
  let va := ((xs.filter fun x => x.1 = l).map (·.2)).foldl min (2 ^ 64)
  (laneMask (xs.map (·.1)), l, if va = 2 ^ 64 then p else va)

/-- An entry of this device's memory translated anew, where its drain met CAPF or waited for one (R304, R307): the faults
that its bytes meet, those of a page that is gone, of a group's other stores, or of a register of the control block
(log 121: DESIGN CHOICE, unsafe); and the entry with its bytes where they lie now. -/
def State.placeAnew (s : State) (core asid : Nat) (e : Ent) : List FRec × Ent :=
  if !e.anew then ([], e) else
  let chk := fun (v : Nat) =>
    let a := BitVec.ofNat 64 v
    let c := s.chkGlobal core asid a 1 1 Acc.store true
    if c.reg?.isSome then addrvAt a Acc.store else c
  let cs := e.vas.map chk
  (cs.filterMap LChk.fault?, { e with cells := (List.range e.cells.length).map fun i =>
    let c := e.cells.getD i (0, 0)
    match cs[i]? with
    | some (.ok pa) => (pa, c.2)
    | _ => c })

/-- DRAIN of an entry for memory or scratch, or of a marker. Log 67: DEDUCED, unsafe. -/
def State.drain (s : State) (g : Gid) (k : Nat) : State :=
  match s.group? g with
  | none => s
  | some r =>
    if !r.drainable k then s else
    match r.outbox[k]? with
    | none => s
    | some e =>
      let rest := r.outbox.take k ++ r.outbox.drop (k + 1)
      let left := fun (s : State) =>
        (s.modGroup g fun x => { x with outbox := dropMarkers (x.outbox.take k ++ x.outbox.drop (k + 1)) }).reap g
      if e.marker.isSome then (s.putGroup g { r with outbox := dropMarkers rest }).reap g
      else match e.space with
        | .scratch uid =>
          let cs := e.cells.map fun (c : Nat × Byte) => (scrKey uid c.1, c.2)
          left { s with scratch := tsetMany 0 s.scratch cs }
        | .peer => left (s.storeCells (e.cells.filter fun c => !isBlockKey c.1))
        | .global =>
          let asid := (s.crewOf g r).asid
          let free := if e.capf then s.putGroup g { r with outbox := r.outbox.set k { e with capf := false } } else s
          let put := fun (e : Ent) => r.outbox.set k e
          let stop := fun (fr : FRec) (out : List Ent) =>
            let r' := { r with outbox := out }
            let s := s.putGroup g r'
            let x := e.faultLanes fr.va.toNat
            let fr := { fr with pc := e.pc, va := BitVec.ofNat 64 x.2.2, lanes := x.1, who := whoOf g r.crew x.2.1 }
            if r.inHandler || fr.code < 0x100 then s.crewFatal g r' fr else s.raise (s.partOf asid) fr
          let y := s.placeAnew g.core asid e
          match (y.1.find? fun fr => decide (fr.code < 0x100)) <|> y.1.head? with
          | some fr => stop fr (if fr.code < 0x100 then rest else put { e with stall := true, capf := false })
          | none => match free.homeWrites .other asid y.2.pages with
            | .ok s' =>
              let s' := if e.anew then s'.translatedAll g.core asid e.vas else s'
              left (s'.updateView g.core y.2.cells)
            | .busy => s.putGroup g { r with outbox := put { e with anew := true } }
            | .capf fr => stop fr (put { e with stall := true, capf := true, anew := true })

/-- The bytes of the control block that an entry stores to, as its drain finds it (R371). -/
def State.blockCells (s : State) (g : Gid) (k : Nat) : List (Nat × Byte) :=
  match s.group? g with
  | none => []
  | some r =>
    if !r.drainable k then []
    else match r.outbox[k]? with
      | none => []
      | some e => if e.space.same .peer then (e.cells.filter fun c => isBlockKey c.1).map fun c => (c.1 - blockKey, c.2) else []

def execEvict (core line : Nat) (s : State) : Host.Outcome State Fault Refusal := .next (s.dropLine core line)

/-! ### The ends of waits -/

/-- A waiting group's event: nothing happens to a group that is not in the wait, or whose result a posted
pass holds back (R182). -/
def State.onWait (s : State) (g : Gid) (k : Group → State) : Host.Outcome State Fault Refusal :=
  match s.group? g with
  | none => .next s
  | some r => .next (if r.waits && !s.writesHeld r (r.insSh.writes r.ins) then k r else s)

/-- What the after-completion sources of a remote access offer (R341): a FILL's none, an atomic's flags too. -/
def offered (kind width : Nat) (offers : List (Nat × W64 × Nat)) : List WSrc :=
  let at_ := fun l => ((offers.find? fun o => o.1 = l).map (·.2)).getD (0, 0)
  let ls := offers.map (·.1)
  if kind = 3 then []
  else { src := 2, lanes := ls, x := fun l => (at_ l).1, width := width } ::
    (if kind = 2 then
      [{ src := 4, lanes := ls, x := fun l => BitVec.ofNat 64 ((at_ l).2 % 32) },
       { src := 5, lanes := ls, x := fun l => BitVec.ofNat 64 ((at_ l).2 / 32 * 32) }]
    else [])

/-- A remote reply's effect (R83, R234): the destinations are written. -/
def State.remoteReply (s : State) (g : Gid) (r : Group) (wait : Wait) : State :=
  match wait with
  | .remote pend kind acq width offers =>
    let put := fun (s : State) (p : Pending) =>
      if p.lane = 32 then
        s.setG r ((p.dst.headD (0, 0)).1) ((p.dst.getLastD (0, 0)).2 ++ (p.dst.headD (0, 0)).2)
      else p.dst.foldl (fun t w => t.setV r w.1 p.lane w.2) s
    let s' := pend.foldl put s
    s.waitDone g r (if acq then s'.emptyView g.core else s') r (offered kind width offers) []
  | _ => s

def execSleepExpiry (g : Gid) (s : State) : Host.Outcome State Fault Refusal :=
  s.onWait g fun r => if r.wait = .sleep then s.waitDone g r s r [] [] else s

def execYieldEnd (g : Gid) (s : State) : Host.Outcome State Fault Refusal :=
  s.onWait g fun r => if r.wait = .yield then s.waitDone g r s r [] [] else s

/-- The cores of a partition. -/
def State.partCores (s : State) (p : Nat) : List Nat := (List.range 256).filter fun c => s.owns p c

/-- CCTL_COMPLETION (R232): the blocks or the view are dropped; a write-back changes no value. -/
def execCctlCompletion (g : Gid) (s : State) : Host.Outcome State Fault Refusal :=
  s.onWait g fun r =>
    match r.wait with
    | .cctl kind lo len =>
      let asid := (s.crewOf g r).asid
      let drop := fun (s : State) (core : Nat) => s.modCore core fun c => { c with
        icache := c.icache.filter fun x => !(decide (0 < len) && x.1 / 2 ^ 48 == asid &&
          decide (lo < x.1 % 2 ^ 48 + 32) && decide (x.1 % 2 ^ 48 < lo + len)) }
      let s' := if kind = 0 then
          ((s.partCores (s.partOf asid)).filter fun c => (tfind s.cores c).isSome).foldl drop s
        else if kind = 1 then s.emptyView g.core else s
      s.waitDone g r s' r [] []
    | _ => s

/-! ### Pool devices and links (R302, R370) -/

/-- A line leaves every view. -/
def State.dropEverywhere (s : State) (line : Nat) : State :=
  { s with cores := s.cores.map fun (e : Nat × Core) => (e.1, { e.2 with view := tdel e.2.view line }) }

/-- BACK_INVALIDATE: stores on their way to the line stand at home already; every view drops it. Which line a
pool device names is a free value (log 4: DESIGN CHOICE, safe). -/
def execBackInvalidate (s : State) : Host.Outcome State Fault Refusal :=
  let x := s.free
  .next (x.2.dropEverywhere x.1.toNat)

/-- Whether the fetch at `pc` reads memory over a link (R302, R370). -/
def State.fetchLinked (s : State) (core asid : Nat) (pc : BitVec 48) : Bool :=
  let b := pc.toNat - pc.toNat % 32
  (s.refetch || (tfind (s.core core).icache (asid * 2 ^ 48 + b)).isNone) &&
    match s.translate core asid b Acc.fetch false true with
    | .ok pa _ => overLink pa
    | _ => false

/-- A link error of a group's access (R302, R370): its pending remote access, or else its oldest entry for a
peer or a pool device, is ADDRV; or else its next access over a link will be. -/
def State.groupLink (s : State) (g : Gid) (r : Group) : State :=
  match r.wait with
  | .remote pend kind _ _ _ =>
    let l := (pend.map (·.lane)).headD 0 % 32
    let va := match kind with
      | 1 => s.src64 r false r.ins.ka r.ins.a l
      | 2 => s.addrPlain r r.ins true l
      | 3 => s.gr r r.ins.a.toNat
      | _ => s.addr r r.ins true l
    let acc := if kind = 2 then Acc.atomic else Acc.load
    let ls := laneMask ((pend.map (·.lane)).filter (· < 32))
    s.crewFatal g r { code := Code.addrv, acc := acc, va := va, lanes := ls, who := whoOf g r.crew l }
  | _ =>
    match r.outbox.find? fun e => e.marker.isNone && e.space.same .global && e.cells.any fun c => overLink c.1 with
    | none => s.putGroup g { r with linkBad := true }
    | some e =>
      let r' := { r with outbox := r.outbox.filter fun x => x != e }
      let x := e.faultLanes (e.vas.headD 0)
      (s.putGroup g r').crewFatal g r' { code := Code.addrv, acc := Acc.store, va := BitVec.ofNat 64 x.2.2, lanes := x.1,
                                         who := whoOf g r.crew x.2.1 }

end Sys2Proof.Machine
end

