-- ==== Sys2Proof/Machine/Atomic.lean ====
section
/-! DEFINITION. Atomics (R213, R233, R234): one step for each lane, in increasing lane order. -/

namespace Sys2Proof.Machine

/-- Bits of the operand. -/
def Fields.atomW (f : Fields) : Nat := if f.atomRegs = 2 then 64 else 32

/-- The new value of a unit, and the flags raised (R234). `x` is B(L), `c` is C(L). -/
def atomNew (opc w : Nat) (signed : Bool) (old x c : W64) : W64 × Nat :=
  let vo := valOf w signed old
  let vx := valOf w signed x
  match opc with
  | 0 => (narrow w false false (valOf w false old + valOf w false x), 0)
  | 1 => (if vx < vo then x else old, 0)
  | 2 => (if vo < vx then x else old, 0)
  | 3 => (old &&& x, 0)
  | 4 => (old ||| x, 0)
  | 5 => (old ^^^ x, 0)
  | 6 => (x, 0)
  | 7 => (if old = c then x else old, 0)
  | _ =>
    let y := toF32 0 (Num.add 0 (f32of (old.setWidth 32)) (f32of (x.setWidth 32)))
    (y.1.setWidth 64, y.2)

/-- The unit of an atomic: a space of the outbox and an address in it. -/
def atomSpace (w : Nat × Nat) : Space := if w.1 = 0 then (if isPeer w.2 then .peer else .global) else .scratch w.1

/-- The condition of a lane's step (R213, R234): no marker in the outbox and no entry that overlaps the
unit; with a release kind the outbox is empty. -/
def Group.atomReady (r : Group) (release : Bool) (n : Nat) (w : Nat × Nat) : Bool :=
  !(r.outbox.any fun e => e.marker.isSome || e.overlaps (atomSpace w) w.2 n) && (!release || r.outbox.isEmpty)

/-- The ordering kind: release, acquire, and whether it reaches beyond the crew (R233). -/
def Fields.atomRel (f : Fields) : Bool := [2, 3, 5, 6].contains (f.fnBits 8 6)
def Fields.atomAcq (f : Fields) (scratch : Bool) : Bool :=
  if scratch then [4, 6].contains (f.fnBits 8 6) else [1, 3, 4, 6].contains (f.fnBits 8 6)

/-- What an atomic's lanes have read: the registers they wrote, for the after-completion sources. -/
def oldSrcs (f : Fields) (did : List (Nat × Nat × W64 × Bool)) : List WSrc :=
  let at_ := fun l => (did.find? fun d => d.1 = l)
  let ls := did.map (·.1)
  [{ src := 2, lanes := ls, x := fun l => ((at_ l).map (·.2.2.1)).getD 0, width := Fields.atomW f },
   { src := 4, lanes := ls, x := fun l => BitVec.ofNat 64 (((at_ l).map (·.2.1)).getD 0 % 32) },
   { src := 5, lanes := ls, x := fun l => BitVec.ofNat 64 (((at_ l).map (·.2.1)).getD 0 / 32 * 32) }]

/-- One lane's step, then the end of the instruction or the wait for the next lane's step. -/
def State.atomLane (s : State) (g : Gid) (r : Group) (f : Fields) (sh : Shape) (scratch : Bool) (addr : Nat → W64)
    (pre : Option (List WMatch)) (traps : List TrapLane) (todo : List (Nat × Nat × Nat))
    (did : List (Nat × Nat × W64 × Bool)) : Res :=
  let w := Fields.atomW f
  let n := w / 8
  match todo with
  | [] => .ok s (r.next f) pre (oldSrcs f did) traps
  | (l, at_) :: rest =>
    if !r.atomReady (Fields.atomRel f) n at_ then
      (if did.isEmpty then .retry else .hold s { r with wait := .atom todo did })
    else
      let old : W64 := BitVec.ofNat 64
        (if at_.1 = 0 then s.word at_.2 n else leNat (s.sbytes at_.1 at_.2 n))
      let y := atomNew (f.fnBits 3 0) w (f.fnBits 4 4 == 0) old (s.srcW r w false f.kb f.b l) (s.srcW r w false f.kc f.c l)
      let bs := leBytes n y.1.toNat
      let cells := (List.range n).map fun i => (at_.2 + i, bs.getD i 0)
      let asid := s.asidOf g r
      match (if at_.1 = 0 then s.homeWrite (.group r.uid) asid (addr l).toNat cells
          else HomeWrite.ok (s.sstore at_.1 at_.2 bs)) with
      | .busy => (if did.isEmpty then .retry else .hold s { r with wait := .atom todo did })
      -- the lanes that have stepped keep their effect; the rest goes on after the replay (log 88: DEDUCED, unsafe)
      | .capf fr => .page { fr with acc := Acc.atomic, va := addr l, lanes := laneMask [l], who := whoOf g r.crew l }
      | .ok s1 =>
        let remote := at_.1 = 0 && isPeer at_.2
        let s2 := if at_.1 = 0 then s1.updateView g.core cells else s1
        let s3 := if remote then s2
          else s2.writeV r [l] fun _ => if w = 32 then [(f.d.toNat, old.setWidth 32)] else pieces f.d.toNat (halves old)
        let s4 := s3.setFpx r l (s.fpxOf r l ||| BitVec.ofNat 32 y.2)
        let fp := if y.2 &&& bitsOf (s.fpxOf r l) 23 16 != 0
          then [s.trapFrame r f sh l Code.fptrap 0 (BitVec.ofNat 32 y.2)] else []
        let did := did ++ [(l, y.2, old, remote)]
        if !rest.isEmpty then .wait s4 { r with wait := .atom rest did } pre (traps ++ fp)
        else
          let acq := Fields.atomAcq f scratch
          let away := did.filter fun d => d.2.2.2
          if !away.isEmpty then
            let dst := fun (x : W64) => if w = 32 then [(f.d.toNat, x.setWidth 32)] else pieces f.d.toNat (halves x)
            let pend := away.map fun d => ({ lane := d.1, dst := dst d.2.2.1 } : Pending)
            .wait s4 { r with wait := .remote pend 2 acq w (did.map fun d => (d.1, d.2.2.1, d.2.1)) } pre (traps ++ fp)
          else
            .ok (if acq then s4.emptyView g.core else s4) { r.next f with wait := .none } pre (oldSrcs f did) (traps ++ fp)

/-- An atomic goes on with the lanes left. -/
def State.atomOn (s : State) (g : Gid) (r : Group) (f : Fields) (sh : Shape) (scratch : Bool) (chk : Nat → LChk)
    (addr : Nat → W64) (todo : List (Nat × Nat × Nat)) (did : List (Nat × Nat × W64 × Bool)) : Res :=
  match todo with
  | (l, 0, p) :: rest =>
    if p != atomAnew then
      -- its step meets a link error (R302, R370)
      (if r.linkBad && overLink p then
        .fatal { code := Code.addrv, acc := Acc.atomic, va := addr l, who := whoOf g r.crew l, lanes := laneMask [l] }
      else s.atomLane g r f sh scratch addr (some []) [] todo did)
    else match chk l with
      | .ok pa => s.atomLane g r f sh scratch addr (some []) [] ((l, 0, pa) :: rest) did
      | c => match c.fault? with
        | some fr => if fr.code < 0x100 then .fatal { fr with who := whoOf g r.crew l, lanes := laneMask [l] } else .page fr
        | none => .retry
  | _ => s.atomLane g r f sh scratch addr (some []) [] todo did

/-- An atomic instruction: the checks of R226 over all lanes when it first issues, then its lanes' steps. -/
def State.atomRes (s : State) (g : Gid) (r : Group) (f : Fields) (sh : Shape) (scratch : Bool) (op : Nat)
    (chk : Nat → LChk) (addr : Nat → W64) : Res :=
  match r.wait with
  | .atom todo did => s.atomOn g r f sh scratch chk addr todo did
  | _ =>
    let n := Fields.atomW f / 8
    let ls := s.contrib r f
    if ls.any fun l => s.storeBlocked n (chk l) then .retry
    else match s.gate g r f sh ls chk addr (fun l => s.lockedAt g r n (chk l) (addr l))
        [{ src := 0, lanes := ls, x := addr }, { src := 1, lanes := ls, x := addr },
         { src := 3, lanes := ls, x := fun l => s.srcW r (8 * n) false f.kb f.b l, width := 8 * n }] with
      | .stop x => x.at_ (s.countPages g r ls chk addr)
      | .go pre go traps =>
        let at_ := fun l => match chk l with
          | .scr uid off _ _ => (uid, off)
          | .ok pa => (0, pa)
          | _ => (0, 0)
        let s1 := (s.countPages g r ls chk addr).trace g r op go addr
        s1.atomLane g r f sh scratch addr (some pre) traps (go.map fun l => (l, at_ l)) []

def execAtom (f : Fields) (s : State) : Host.Outcome State Fault Refusal :=
  issue 0 f (shapeAtom f) s fun s g r =>
    let n := Fields.atomW f / 8
    let addr := fun l => s.addrPlain r f true l
    s.atomRes g r f (shapeAtom f) false 0x80 
      (fun l => r.linked (addr l) Acc.atomic (s.chkGlobal g.core (s.asidOf g r) (addr l) n n Acc.atomic true)) addr

def execAtoms (f : Fields) (s : State) : Host.Outcome State Fault Refusal :=
  issue 0 f (shapeAtoms f) s fun s g r =>
    let n := Fields.atomW f / 8
    let addr := fun l => s.addrPlain r f false l
    s.atomRes g r f (shapeAtoms f) true 0x81 (fun l => s.chkScratch g r (addr l) n n Acc.atomic false) addr

end Sys2Proof.Machine
end

