-- ==== Sys2Proof/WellFormed.lean ====
section
/-! DEFINITION. Well-formed instructions: those whose words pass step 6 of R49. -/

namespace Sys2Proof

/-- The immediate fits its length: none in 64 bits, 32 bits in 96 (R44, R45). -/
def Fields.immFits (f : Fields) : Bool :=
  match f.len with
  | .w64 => f.imm == 0
  | .w96 => decide (f.imm.toNat < 2 ^ 32)
  | .w128 => true

def Form.legal (x : Form) : Bool := x.f.immFits && x.shape.legal x.f

/-- Well-formed: an instruction's fields have its shape. An event has no word to be ill-formed. -/
def Instr.wf (i : Instr) : Bool :=
  match i.form with
  | some x => x.legal
  | none => true

end Sys2Proof
end

