-- ==== Sys2Proof/Decode.lean ====
section
/-! DEFINITION. Decoding (R35, R39 to R48), total on any bytes, and the encoder. -/

namespace Sys2Proof

/-- Why bytes are no instruction. -/
inductive Reject where
  /-- Fewer bytes than the length says. -/
  | short
  /-- LEN is 0b11 (R35). -/
  | len
  /-- OP is unassigned, or illegal in the stream (R46, R48). -/
  | op
  /-- A field is illegal for the opcode (R40 to R45). -/
  | field
  deriving DecidableEq, Repr

/-! ### From a word -/

/-- The group stream (R46, R48): the row of an OP, and the variant of its fields. CPYO is 0x90 and CPYT 0x91
(R236; log 33: DEDUCED, unsafe). -/
def groupInstr (op : Nat) (f : Fields) : Option Instr :=
  match op with
  | 0x01 => some (.nop f)
  | 0x02 => some (.exit f)
  | 0x03 => some (.bra f)
  | 0x04 => some (.brx f)
  | 0x05 => if f.fnIs 0 then some (.call f) else some (.callI f)
  | 0x06 => some (.ret f)
  | 0x07 => some (.loop f)
  | 0x08 => if f.fnMax 1 then some (.dpush f) else if f.fnIs 2 then some (.delse f) else some (.dpop f)
  | 0x09 => some (.repack f)
  | 0x0A => some (.unpack f)
  | 0x0B => some (.setfmt f)
  | 0x0C => some (.yield f)
  | 0x0D => some (.sleep f)
  | 0x0E => if f.fnIs 0 then some (.movs f) else some (.movsw f)
  | 0x0F => some (.leader f)
  | 0x10 => if f.w64 then some (.mov f) else some (.movi f)
  | 0x11 => some (.sel f)
  | 0x12 => some (.iadd f)
  | 0x13 => some (.iaddc f)
  | 0x14 => some (.isub f)
  | 0x15 => some (.isubb f)
  | 0x16 => some (.imul f)
  | 0x17 => some (.imulh f)
  | 0x18 => some (.imad f)
  | 0x19 => some (.imadw f)
  | 0x1A => some (.iabs f)
  | 0x1B => some (.ineg f)
  | 0x1C => some (.imin f)
  | 0x1D => some (.imax f)
  | 0x1E => some (.icmp f)
  | 0x1F => some (.lea f)
  | 0x20 => some (.and f)
  | 0x21 => some (.or f)
  | 0x22 => some (.xor f)
  | 0x23 => some (.not f)
  | 0x24 => some (.btab f)
  | 0x25 => some (.shl f)
  | 0x26 => some (.shr f)
  | 0x27 => some (.sha f)
  | 0x28 => some (.rot f)
  | 0x29 => some (.bfx f)
  | 0x2A => some (.bfi f)
  | 0x2B => some (.popc f)
  | 0x2C => some (.clz f)
  | 0x2D => some (.brev f)
  | 0x2E => some (.bysel f)
  | 0x2F => some (.dot4 f)
  | 0x30 => some (.fadd f)
  | 0x31 => some (.fsub f)
  | 0x32 => some (.fmul f)
  | 0x33 => some (.ffma f)
  | 0x34 => some (.fmin f)
  | 0x35 => some (.fmax f)
  | 0x36 => some (.fcmp f)
  | 0x37 => some (.fdiv f)
  | 0x38 => some (.fsqrt f)
  | 0x39 => some (.frcp f)
  | 0x3A => some (.frsq f)
  | 0x3B => some (.fexp2 f)
  | 0x3C => some (.flog2 f)
  | 0x3D => some (.frnd f)
  | 0x3E => some (.fclass f)
  | 0x3F => some (.pfma f)
  | 0x40 => some (.f2f f)
  | 0x41 => some (.f2i f)
  | 0x42 => some (.i2f f)
  | 0x43 => some (.qblk f)
  | 0x44 => some (.dqblk f)
  | 0x50 => some (.lxch f)
  | 0x51 => some (.qswz f)
  | 0x52 => some (.qbcast f)
  | 0x53 => some (.qdiff f)
  | 0x54 => some (.pcoll f)
  | 0x55 => some (.redg f)
  | 0x56 => some (.scang f)
  | 0x57 => some (.bcastg f)
  | 0x58 => some (.matchg f)
  | 0x60 => some (.plop f)
  | 0x61 => some (.pmov f)
  | 0x62 => some (.qlop f)
  | 0x70 => some (.ld f)
  | 0x71 => some (.st f)
  | 0x72 => some (.lds f)
  | 0x73 => some (.sts f)
  | 0x74 => some (.ldc f)
  | 0x75 => some (.ldb f)
  | 0x76 => some (.stb f)
  | 0x77 => some (.spill f)
  | 0x78 => some (.fill f)
  | 0x79 => some (.pref f)
  | 0x7A => if f.fnIs 0 then some (.cctlIc f) else if f.fnIs 1 then some (.cctlView f) else some (.cctlWb f)
  | 0x80 => some (.atom f)
  | 0x81 => some (.atoms f)
  | 0x82 => some (.fence f)
  | 0x83 => some (.fsc f)
  | 0x90 => some (.cpyo f)
  | 0x91 => some (.cpyt f)
  | 0x92 => some (.cpyb f)
  | 0x93 => some (.binit f)
  | 0x94 => some (.barv f)
  | 0x95 => some (.bwait f)
  | 0x96 => some (.barw f)
  | 0x97 => some (.bexp f)
  | 0x98 => some (.btest f)
  | 0x99 => some (.sqcfg f)
  | 0x9A => some (.sqwait f)
  | 0x9B => some (.sqrel f)
  | 0xA0 => some (.jst f)
  | 0xA1 => some (.mst f)
  | 0xA2 => some (.tld f)
  | 0xA3 => some (.tldt f)
  | 0xA4 => some (.lpeek f)
  | 0xA5 => some (.ljoin f)
  | 0xA6 => some (.lcmp f)
  | 0xA7 => some (.lsync f)
  | 0xA8 => if f.fnIs 0 then some (.freg f) else some (.fregWait f)
  | 0xA9 => some (.fres f)
  | 0xAA => some (.fpois f)
  | 0xB0 => some (.spawn f)
  | 0xB1 => some (.tsub f)
  | 0xB2 => some (.qpop f)
  | 0xB3 => some (.qpush f)
  | 0xB4 => some (.claim f)
  | 0xB5 => some (.release f)
  | 0xB6 => some (.rgsur f)
  | 0xB7 => some (.rgclm f)
  | 0xB8 => some (.clqry f)
  | 0xB9 => if f.fnIs 0 then some (.helperOn f) else if f.fnIs 1 then some (.helperOff f) else some (.helperRd f)
  | 0xD0 => if f.fnIs 0 then some (.trap f) else if f.fnIs 1 then some (.trapHset f) else some (.trapFset f)
  | 0xD1 => if f.fnIs 0 then some (.tret f) else some (.tretWr f)
  | 0xD2 => if f.fnIs 0 then some (.bkpt f) else some (.bkptCrew f)
  | 0xD3 => some (.dump f)
  | 0xD4 => some (.errinj f)
  | 0xD5 => some (.wpset f)
  | 0xD6 => some (.wpclr f)
  | 0xD7 => some (.wprd f)
  | 0xD8 => some (.hrd f)
  | 0xD9 => some (.hwr f)
  | 0xDA => if f.fnIs 0 then some (.hstep f) else some (.hstepLane f)
  | 0xDB => if f.fnIs 0 then some (.hres f) else if f.fnIs 1 then some (.hresCrew f) else some (.hresSheaf f)
  | 0xDC => some (.snap f)
  | 0xDD => some (.probe f)
  | 0xDE => some (.trace f)
  | 0xDF => some (.heatrd f)
  | _ => none

/-- The matrix stream (R48). -/
def matrixInstr (op : Nat) (f : Fields) : Option Instr :=
  match op with
  | 0x02 => some (.seqExit f)
  | 0x03 => some (.seqBra f)
  | 0x07 => some (.seqLoop f)
  | 0x10 => some (.seqMovi f)
  | 0x12 => some (.seqIadd f)
  | 0x14 => some (.seqIsub f)
  | 0x1E => some (.seqIcmp f)
  | 0xC0 => some (.mma f)
  | 0xC1 => some (.mmas f)
  | 0xC2 => some (.mzero f)
  | 0xC3 => some (.mfill f)
  | 0xC4 => some (.mdrain f)
  | 0xC5 => if f.fnIs 0 then some (.mcpyOut f) else some (.mcpyIn f)
  | 0xC6 => some (.mtld f)
  | 0xC7 => if f.fnIs 0 then some (.mcfgFmt f) else if f.fnIs 1 then some (.mcfgFmtm f) else some (.mcfgGrp f)
  | 0xC8 => some (.msync f)
  | 0xC9 => if f.fnIs 0 then some (.mbarArv f) else some (.mbarWait f)
  | 0xCA => some (.mstat f)
  | _ => none

/-- The length a word's first byte gives (R35). -/
def lenOf (w : Nat) : Option Len :=
  match w % 4 with
  | 0 => some .w64
  | 1 => some .w96
  | 2 => some .w128
  | _ => none

/-- The guard (R41): unguarded, GNEG and GIDX are zero. -/
def guardOf (w : Nat) : Option Guard :=
  if w / 2 ^ 11 % 2 = 1 then some (.on (w / 2 ^ 12 % 2 == 1) (BitVec.ofNat 7 (w / 2 ^ 13 % 2 ^ 7)))
  else if w / 2 ^ 12 % 2 ^ 8 = 0 then some .always
  else none

/-- The immediate or extended word that follows the base word, by length. -/
def immOf (w : Nat) : Len → W64
  | .w64 => 0
  | .w96 => BitVec.ofNat 64 (w / 2 ^ 64 % 2 ^ 32)
  | .w128 => BitVec.ofNat 64 (w / 2 ^ 64 % 2 ^ 64)

/-- The fields of a word (R39). -/
def fieldsOf (w : Nat) (len : Len) (g : Guard) : Fields where
  len := len
  u := w / 2 ^ 2 % 2 == 1
  guard := g
  d := BitVec.ofNat 8 (w / 2 ^ 20 % 2 ^ 8)
  a := BitVec.ofNat 8 (w / 2 ^ 28 % 2 ^ 8)
  b := BitVec.ofNat 8 (w / 2 ^ 36 % 2 ^ 8)
  c := BitVec.ofNat 8 (w / 2 ^ 44 % 2 ^ 8)
  ka := w / 2 ^ 61 % 2 == 1
  kb := w / 2 ^ 62 % 2 == 1
  kc := w / 2 ^ 63 % 2 == 1
  fn := BitVec.ofNat 9 (w / 2 ^ 52 % 2 ^ 9)
  imm := immOf w len

/-- The instruction of a word whose bit 0 is the first byte's lowest bit; the bits above its length do not
matter. `matrix`: in a matrix stream. -/
def decodeWord (matrix : Bool) (w : Nat) : Except Reject Instr :=
  match lenOf w with
  | none => .error .len
  | some len =>
    match guardOf w with
    | none => .error .field
    | some g =>
      let op := w / 2 ^ 3 % 2 ^ 8
      let f := fieldsOf w len g
      match (if matrix then matrixInstr op f else groupInstr op f) with
      | none => .error .op
      | some i => if i.wf then .ok i else .error .field

/-! ### From bytes -/

/-- The number that bytes hold, the first lowest (R2). -/
def natOfBytes : List Byte → Nat
  | [] => 0
  | b :: t => b.toNat + 256 * natOfBytes t
def bytesOfNat : Nat → Nat → List Byte
  | 0, _ => []
  | n + 1, x => BitVec.ofNat 8 x :: bytesOfNat n (x / 256)

/-- Decodes the first instruction of a list of bytes: the instruction and the bytes that follow it. -/
def decode (matrix : Bool) (bs : List Byte) : Except Reject (Instr × List Byte) :=
  match bs with
  | [] => .error .short
  | b :: _ =>
    match lenOf b.toNat with
    | none => .error .len
    | some len =>
      if bs.length < len.bytes then .error .short
      else match decodeWord matrix (natOfBytes (bs.take len.bytes)) with
        | .error e => .error e
        | .ok i => .ok (i, bs.drop len.bytes)

/-! ### Encoding -/

def Len.code : Len → Nat
  | .w64 => 0
  | .w96 => 1
  | .w128 => 2

def Guard.code : Guard → Nat
  | .always => 0
  | .on neg idx => 1 + 2 * neg.toNat + 4 * idx.toNat

/-- The base word (R39). -/
def Fields.base (f : Fields) (op : Nat) : Nat :=
  f.len.code + 2 ^ 2 * f.u.toNat + 2 ^ 3 * op + 2 ^ 11 * f.guard.code + 2 ^ 20 * f.d.toNat + 2 ^ 28 * f.a.toNat +
    2 ^ 36 * f.b.toNat + 2 ^ 44 * f.c.toNat + 2 ^ 52 * f.fn.toNat + 2 ^ 61 * f.ka.toNat + 2 ^ 62 * f.kb.toNat + 2 ^ 63 * f.kc.toNat

/-- The whole word: the base word and, above it, the immediate or extended word. -/
def Form.word (x : Form) : Nat := x.f.base x.op + 2 ^ 64 * x.f.imm.toNat

/-- The bytes of an instruction; a device event has none. -/
def encode (i : Instr) : List Byte :=
  match i.form with
  | none => []
  | some x => bytesOfNat x.f.len.bytes x.word

/-! ### The opcode table's words -/

/-- The instruction that the decoder reads from a word numbered as the opcode table numbers it: in the group
stream, or else in the matrix stream. -/
def decodeTableWord (nbits w : Nat) : Option Instr :=
  let bs := bytesOfNat 16 (w % 2 ^ nbits)
  match decode false bs with
  | .ok (i, _) => some i
  | .error _ => match decode true bs with
    | .ok (i, _) => some i
    | .error _ => none

end Sys2Proof
end

