-- ==== Sys2Proof/Machine/Future.lean ====
section
/-! DEFINITION. Futures, join records and pushes (R221, R247 to R250), and the device queues: QPUSH, QPOP,
TSUB, PUSH (R116 to R119). -/

namespace Sys2Proof.Machine

/-! ### Accesses at home by address -/

/-- An agent that is no core looks translations up with no TLB. -/
def noCore : Nat := 256

/-- The home of `n` bytes on one page, for a party that meets lattice pages with ADDRV (R263). -/
def State.homeOf (s : State) (core asid va n acc : Nat) (write : Bool) : Except FRec Nat :=
  match s.translate core asid va acc write false with
  | .ok pa e =>
    if (!write || readsToo acc) && core != noCore && s.leafError e pa n then
      .error { code := Code.memerr, acc := acc, asid := asid, va := BitVec.ofNat 64 va }
    else .ok pa
  | .lattice _ _ => .error { code := Code.addrv, acc := acc, asid := asid, va := BitVec.ofNat 64 va }
  | .fault fr => .error fr

/-- No fault: a write behind one that met CAPF on its page, which is not made yet (R304). -/
def busyFr : FRec := { code := 0 }
def FRec.busy (fr : FRec) : Bool := fr.code == 0

/-- A core's view after a write of its own at home (R213); an agent that is no core has none. -/
def State.seen (s : State) (core : Nat) (cs : List (Nat × Byte)) : State :=
  if core = noCore then s else s.updateView core cs

/-- Writes bytes that lie on one page, at home; CAPF is a fault of the access. The core's view follows (R223). -/
def State.homePut (s : State) (me : Party) (core asid va pa acc : Nat) (bs : List Byte) : Except FRec State :=
  let cells := (List.range bs.length).map fun i => (pa + i, bs.getD i 0)
  match s.homeWrite me asid va cells with
  | .ok s' => .ok (s'.seen core cells)
  | .busy => .error busyFr
  | .capf fr => .error { fr with acc := acc, va := BitVec.ofNat 64 va }

/-- Whether an access is one over a link (R302, R370). -/
def State.placeLinked (s : State) (core asid va n acc : Nat) (write : Bool) : Bool :=
  match s.homeOf core asid va n acc write with
  | .ok pa => overLink pa
  | .error _ => false

/-- Translates and writes. -/
def State.homeStore (s : State) (me : Party) (core asid va acc : Nat) (bs : List Byte) : Except FRec State :=
  match s.homeOf core asid va bs.length acc true with
  | .ok pa => s.homePut me core asid va pa acc bs
  | .error fr => .error fr
/-- Translates and reads. -/
def State.homeLoad (s : State) (core asid va n acc : Nat) : Except FRec Nat :=
  match s.homeOf core asid va n acc false with
  | .ok pa => .ok (s.word pa n)
  | .error fr => .error fr

def FRec.replayable (fr : FRec) : Bool := decide (0x300 ≤ fr.code) && decide (fr.code < 0x400)
/-- The page of a write that met CAPF. -/
def FRec.capfPage (fr : FRec) (asid : Nat) : Option (Nat × Nat) :=
  if fr.code = Code.capf then some (asid, fr.va.toNat / 4096) else none

/-! ### The translations of a future instruction (R296) -/

/-- The pages that one instruction has translated, each with its place: all its lanes use the same translation. -/
abbrev Pages := List (Nat × Nat)

/-- The pages of the addresses given that translate for a future's step. -/
def State.futPages (s : State) (core asid : Nat) (vas : List Nat) : Pages :=
  (sortNat (vas.map (· / 4096))).filterMap fun p => match s.translate core asid (p * 4096) Acc.future true false with
    | .ok pa _ => some (p, pa)
    | _ => none

/-- The home of 16 bytes that a future's step acts on: as the instruction translated their page, or as they translate
now. -/
def State.futHome (s : State) (ps : Pages) (core asid va : Nat) : Except FRec Nat :=
  match ps.find? fun p => p.1 = va / 4096 with
  | some p => .ok (p.2 + va % 4096)
  | none => s.homeOf core asid va 16 Acc.future true

/-! ### Join records (R248) -/

/-- Decrements the COUNT of a join record, with POIS where the future is poisoned; a zero enables a Push. -/
def State.joinDec (s : State) (me : Party) (ps : Pages) (core asid ja : Nat) (poison : Bool) : Except FRec State :=
  match s.futHome ps core asid ja with
  | .error fr => .error fr
  | .ok pa =>
    let n := s.word pa 4
    let p := s.word (pa + 4) 4
    let p' := if poison then p ||| 1 else p
    match s.homePut me core asid ja pa Acc.future (leBytes 4 (n - 1) ++ leBytes 4 p') with
    | .error fr => .error fr
    | .ok s1 =>
      if n = 1 then
        let (id, s2) := s1.fresh
        .ok { s2 with pushes := tput s2.pushes id { task := s.word (pa + 8) 8, asid := asid } }
      else .ok s1

/-! ### A future's unit (R247, R250) -/

/-- What a step on a future comes to. -/
inductive FutStep where
  | ok (s : State)
  | fault (fr : FRec)
  | regconf
  | dblres

def futWord (st jrec : Nat) : Nat := st * 2 ^ 62 + jrec % 2 ^ 48

def State.futPut (s : State) (me : Party) (core asid va pa st jrec value : Nat) : Except FRec State :=
  s.homePut me core asid va pa Acc.future (leBytes 8 (futWord st jrec) ++ leBytes 4 value ++ leBytes 4 0)

/-- FREG on one future: the join record at `ja`. -/
def State.futReg (s : State) (me : Party) (ps : Pages) (core asid va ja : Nat) : FutStep :=
  match s.futHome ps core asid va with
  | .error fr => .fault fr
  | .ok pa =>
    let w := s.word pa 8
    match w / 2 ^ 62 with
    | 0 => match s.futPut me core asid va pa 1 (ja / 16) (s.word (pa + 8) 4) with
      | .ok s' => .ok s'
      | .error fr => .fault fr
    | 1 => .regconf
    | k => match s.joinDec me ps core asid ja (k == 3) with
      | .ok s' => .ok s'
      | .error fr => .fault fr

/-- FRES (st 2) or FPOIS (st 3) on one future. -/
def State.futRes (s : State) (me : Party) (ps : Pages) (core asid va st value : Nat) : FutStep :=
  match s.futHome ps core asid va with
  | .error fr => .fault fr
  | .ok pa =>
    let w := s.word pa 8
    let k := w / 2 ^ 62
    if k = 2 || k = 3 then .dblres
    else
      match (if k = 1 then s.joinDec me ps core asid (w % 2 ^ 48 * 16) (st == 3) else .ok s) with
      | .error fr => .fault fr
      | .ok s1 => match s1.futPut me core asid va pa st (w % 2 ^ 48) value with
        | .ok s2 => .ok s2
        | .error fr => .fault fr

/-! ### FREG, FRES, FPOIS (R249) -/

/-- A multiple of `n`, 48 bits. -/
def goodAddr (a : W64) (n : Nat) : Bool := decide (a.toNat < 2 ^ 48) && a.toNat % n == 0

/-- The record that a registered future names. -/
def State.futJoin (s : State) (core asid : Nat) (a : W64) : Option W64 :=
  match s.homeOf core asid a.toNat 16 Acc.future true with
  | .ok pa =>
    let w := s.word pa 8
    if w / 2 ^ 62 = 1 then some (BitVec.ofNat 64 (w % 2 ^ 48 * 16)) else none
  | .error _ => none

/-- A translation's failure, where it fails. -/
def failure {α : Type} (x : Except FRec α) : Option FRec := match x with | .error fr => some fr | .ok _ => none

/-- A future's step that would meet a link error (R302, R370): its page is reached over a link. -/
def State.futLinked (s : State) (r : Group) (core asid : Nat) (a : W64) : Option FRec :=
  match s.translate core asid a.toNat Acc.future false false with
  | .ok pa _ => if r.linkBad && overLink pa then some { code := Code.addrv, acc := Acc.future, va := a } else none
  | _ => none

/-- The checks of one lane before any lane steps, in R226's order over the future's unit and the record named or
joined: range and alignment, then the translations, ADDRV before a replayable fault. -/
def State.futCheck (s : State) (r : Group) (core asid : Nat) (a : W64) (join : Option W64) (write : Bool) : Option FRec :=
  let j := join <|> (if write then s.futJoin core asid a else none)
  let badAt := fun (x : W64) => some ({ code := Code.addrv, acc := Acc.future, va := x } : FRec)
  if !goodAddr a 16 then badAt a
  else match j.filter fun j => !goodAddr j 32 with
    | some j => badAt j
    | none =>
      let fs := (failure (s.homeOf core asid a.toNat 16 Acc.future write)).toList ++
        (j.bind fun j => failure (s.homeOf core asid j.toNat 16 Acc.future true)).toList
      match fs.find? (fun fr => !fr.replayable) with
      | some fr => some fr
      | none => match fs with
        | fr :: _ => some fr
        | [] => s.futLinked r core asid a <|> j.bind (s.futLinked r core asid)

/-- The outcome of the checks of all lanes (R226): the faults of the lowest lane, ADDRV first. -/
def checkLanes (g : Gid) (r : Group) (ls : List Nat) (chk : Nat → Option FRec) : Option Res :=
  let bad := ls.filterMap fun l => (chk l).map fun fr => (l, fr)
  let hard := bad.filter fun x => !x.2.replayable
  match hard, bad with
  | x :: _, _ => some (.fatal { x.2 with who := whoOf g r.crew x.1, lanes := laneMask (hard.map (·.1)) })
  | [], x :: _ => some (.page { x.2 with who := whoOf g r.crew x.1, lanes := laneMask (bad.map (·.1)) })
  | [], [] => none

/-- One lane's step, then the next lane's or the end. `offer`: the value a DBLRES trap reports; `pre`: the
predicates matched before the first step. (Log 76: DEDUCED, unsafe.) -/
def State.futLane (s : State) (g : Gid) (r : Group) (f : Fields) (sh : Shape) (addr : Nat → W64)
    (step : State → Nat → FutStep) (ready : Nat → Bool) (offer : Nat → W32) (first : Bool)
    (pre : List WMatch) (ps : Pages) (todo : List Nat) : Res :=
  let later : Res := if first then .retry else .hold s { r with wait := .futs todo ps }
  match todo with
  | [] => .ok s { r.next f with wait := .none } (some pre) [] []
  | l :: rest =>
    if !ready l then later
    else
      let go := fun (s : State) (ts : List TrapLane) =>
        if rest.isEmpty then Res.ok s { r.next f with wait := .none } (some pre) [] ts
        else .wait s { r with wait := .futs rest ps } (some pre) ts
      match step s l with
      | .ok s' => go s' []
      | .dblres => go s [s.trapFrame r f sh l Code.dblres (addr l) (offer l)]
      | .regconf => .gone (s.crewFatal g r { code := Code.regconf, acc := Acc.future, va := addr l, who := whoOf g r.crew l, lanes := laneMask [l] })
      | .fault fr =>
        let fr := { fr with who := whoOf g r.crew l, lanes := laneMask [l] }
        if fr.busy then later else if fr.replayable then .page fr else .fatal fr

/-- The predicates at the PC of a future instruction, before its access (R341, R343): a halt; or the
matches, and the lanes that go on. -/
def State.pcGate (s : State) (g : Gid) (r : Group) (f : Fields) (ls : List Nat) : Except Res (List WMatch × List Nat) :=
  let pre := if s.skipsWatch r f then [] else s.watchMatches g r [pcSrc r]
  match haltMatch pre with
  | some _ => .error (.halt pre)
  | none =>
    let wl := (trapMatch pre).map (·.1)
    .ok (pre, ls.filter fun l => !wl.contains l)

/-- What the pages of a future instruction leave in the TLBs, counted (R296, R297). -/
def State.futTranslated (s : State) (core asid : Nat) (ps : Pages) : State :=
  s.translatedAll core asid (ps.map fun p => p.1 * 4096)

/-- FREG, FRES and FPOIS: the checks of all lanes, the predicates, then the lanes' steps under the translations that
the checks made; after a replay under new ones. `vas` are the addresses of a lane. A range lock is none of its checks
(log 130: DESIGN CHOICE, unsafe). -/
def State.futRun (s : State) (g : Gid) (r : Group) (f : Fields) (sh : Shape) (a : Nat → W64) (join : Option W64)
    (vas : Nat → List Nat) (step : Pages → State → Nat → FutStep) (ready : Pages → Nat → Bool) (offer : Nat → W32) : Res :=
  let asid := s.asidOf g r
  match r.wait with
  | .futs todo ps =>
    match todo.head?.bind fun l => ((vas l).findSome? fun v => s.futLinked r g.core asid (BitVec.ofNat 64 v)).map fun fr => (l, fr) with
    | some (l, fr) => .fatal { fr with who := whoOf g r.crew l, lanes := laneMask [l] }
    | none =>
    let new := if ps.isEmpty then s.futPages g.core asid (todo.flatMap vas) else []
    let ps := ps ++ new
    (s.futTranslated g.core asid new).futLane g r f sh a (step ps) (ready ps) offer false [] ps todo
  | _ =>
    let ls := s.contrib r f
    let ps := s.futPages g.core asid (ls.flatMap vas)
    let s1 := s.futTranslated g.core asid ps
    match checkLanes g r ls fun l => s.futCheck r g.core asid (a l) join true with
    | some x => x.at_ s1
    | none => match s.pcGate g r f ls with
      | .error x => x.at_ s1
      | .ok (pre, go) => s1.futLane g r f sh a (step ps) (ready ps) offer true pre ps go

def execFreg (f : Fields) (s : State) : Host.Outcome State Fault Refusal :=
  issue 0 f (shapeFreg f) s fun s g r =>
    let asid := s.asidOf g r
    let a := fun l => s.src64 r false f.ka f.a l
    let j := s.gr r f.b.toNat
    s.futRun g r f (shapeFreg f) a (some j) (fun l => [(a l).toNat, j.toNat])
      (fun ps s l => s.futReg (.group r.uid) ps g.core asid (a l).toNat j.toNat)
      -- the outbox holds no entry to the unit (R221), and no marker, which a future step waits for (R215)
      (fun ps l => match s.futHome ps g.core asid (a l).toNat with
        | .ok pa => !(r.outbox.any fun e => e.marker.isSome || e.overlaps (if isPeer pa then .peer else .global) pa 16)
        | .error _ => true)
      fun _ => 0

/-- FRES and FPOIS: the outbox is empty, which is release at device scope (R221). -/
def State.resolveRes (s : State) (g : Gid) (r : Group) (f : Fields) (st : Nat) : Res :=
  let asid := s.asidOf g r
  let a := fun l => s.src64 r false f.ka f.a l
  let v := fun l => if f.w96 then f.i32 else s.src32 r false f.kb f.b l
  s.futRun g r f (shapeFres f) a none
    (fun l => (a l).toNat :: (s.futJoin g.core asid (a l)).toList.map (·.toNat))
    (fun ps s l => s.futRes (.group r.uid) ps g.core asid (a l).toNat st (v l).toNat)
    (fun _ _ => r.outbox.isEmpty) v

def execFres (f : Fields) (s : State) : Host.Outcome State Fault Refusal :=
  issue 0 f (shapeFres f) s fun s g r => s.resolveRes g r f 2

def execFpois (f : Fields) (s : State) : Host.Outcome State Fault Refusal :=
  issue 0 f (shapeFres f) s fun s g r => s.resolveRes g r f 3

/-! ### FREG.wait (R250) -/

/-- The state and value of a lane's future. -/
def State.futRead (s : State) (core asid : Nat) (a : W64) : Option (Nat × W32) :=
  match s.homeOf core asid a.toNat 16 Acc.future false with
  | .ok pa => some (s.word pa 8 / 2 ^ 62, BitVec.ofNat 32 (s.word (pa + 8) 4))
  | .error _ => none

/-- The return of FREG.wait, if the future of every lane of `ls` is resolved or poisoned: the values, the
predicates, the view emptied. -/
def State.futReturn (s : State) (g : Gid) (r : Group) (f : Fields) (ls : List Nat) : Option State :=
  let rd := fun l => s.futRead g.core (s.asidOf g r) (s.src64 r false f.ka f.a l)
  if ls.all fun l => match rd l with | some (k, _) => decide (2 ≤ k) | none => false then
    let s1 := s.writeV r ls fun l => [(f.d.toNat, ((rd l).map (·.2)).getD 0)]
    let s2 := s1.writeP r ls f.c.toNat fun l => ((rd l).map (·.1)).getD 0 == 3
    some (s2.emptyView g.core)
  else none

/-- A range lock is none of its checks (log 130: DESIGN CHOICE, unsafe). -/
def execFregWait (f : Fields) (s : State) : Host.Outcome State Fault Refusal :=
  issue 0 f (shapeFregWait f) s fun s g r =>
    let a := fun l => s.src64 r false f.ka f.a l
    let ls := s.contrib r f
    let good := ls.filter fun l => (s.futRead g.core (s.asidOf g r) (a l)).isSome
    let s1 := s.translatedAll g.core (s.asidOf g r) (good.map fun l => (a l).toNat)
    match checkLanes g r ls fun l => s.futCheck r g.core (s.asidOf g r) (a l) none false with
    | some x => x.at_ s1
    | none => match s.pcGate g r f ls with
      | .error x => x.at_ s1
      | .ok (pre, go) =>
        let s := s1
        match s.futReturn g r f go with
        | some s' => .ok s' (r.next f) (some pre) [] []
        | none => .wait s { r with wait := .future go } (some pre) []

/-- FUTURE_WAIT_RETURN. -/
def execFutureWaitReturn (g : Gid) (s : State) : Host.Outcome State Fault Refusal :=
  s.onWait g fun r =>
    match r.wait with
    | .future ls => match s.futReturn g r r.ins ls with
      | some s' => s.waitDone g r s' r [] []
      | none => s
    | _ => s

/-! ### Resolutions by copies and the dispatcher (R221, R250) -/

/-- A resolution by work that is no group: it is made; or a replayable fault holds it; or it faults; a
future already resolved or poisoned leaves a DBLRES record, with the PC of the copy or 0 (R305). -/
def State.workResolve (s : State) (me : Party) (asid va st value : Nat) (pc : BitVec 48) : Except FRec State :=
  match s.futRes me [] noCore asid va st value with
  | .ok s' => .ok s'
  | .dblres | .regconf =>
    .ok (s.raise (s.partOf asid) { code := Code.dblres, acc := Acc.future, asid := asid, va := BitVec.ofNat 64 va, pc := pc,
                                   b2c := BitVec.ofNat 32 value, b30 := BitVec.ofNat 64 va })
  | .fault fr => .error fr

/-! ### Device queues (R116) -/

/-- A queue's descriptor, read at home. -/
structure QDesc where
  pa : Nat
  ring : Nat
  logn : Nat
  widx : Nat
  ridx : Nat
  seqb : Nat

def State.qdesc (s : State) (core asid : Nat) (da : W64) (acc : Nat) : Except FRec QDesc :=
  if !goodAddr da 64 then .error { code := Code.addrv, acc := acc, asid := asid, va := da }
  else match failure (s.homeOf core asid da.toNat 64 acc false), s.homeOf core asid da.toNat 64 acc true with
    -- it is read and written (R304)
    | some fr, _ => .error fr
    | _, .error fr => .error fr
    | none, .ok pa =>
      let q : QDesc := { pa := pa, ring := s.word pa 8 / 64 % 2 ^ 42 * 64, logn := s.word (pa + 8) 8 % 32,
                         widx := s.word (pa + 16) 8, ridx := s.word (pa + 24) 8,
                         seqb := s.word (pa + 32) 8 / 8 % 2 ^ 45 * 8 }
      if q.logn < 4 || 20 < q.logn then .error { code := Code.addrv, acc := acc, asid := asid, va := da }
      else .ok q

def QDesc.slot (q : QDesc) (i : Nat) : Nat := q.ring + 64 * (i % 2 ^ q.logn)
def QDesc.seq (q : QDesc) (i : Nat) : Nat := q.seqb + 8 * (i % 2 ^ q.logn)
/-- Entries in the queue, modulo 2^64. -/
def QDesc.used (q : QDesc) : Nat := (q.widx + 2 ^ 64 - q.ridx) % 2 ^ 64

/-- What a step of a queue operation comes to. -/
inductive QStep where
  /-- Step 1: an index is reserved or taken. -/
  | took (s : State) (i : Nat)
  /-- Full, or empty. -/
  | none
  /-- SEQ(i) does not read as awaited. -/
  | wait
  | done (s : State) (data : List Byte)
  | fault (fr : FRec)

def QStep.of (x : Except FRec State) (data : List Byte) : QStep :=
  match x with
  | .ok s => .done s data
  | .error fr => .fault fr

/-- R117 step 1. -/
def State.qReserve (s : State) (me : Party) (core asid : Nat) (da : W64) (acc : Nat) : QStep :=
  match s.qdesc core asid da acc with
  | .error fr => .fault fr
  | .ok q =>
    if q.used < 2 ^ q.logn then
      match s.homePut me core asid da.toNat (q.pa + 16) acc (leBytes 8 (q.widx + 1)) with
      | .ok s' => .took s' q.widx
      | .error fr => .fault fr
    else .none

/-- R117's later steps on entry `i`: SEQ(i) = i, then the 64 bytes and SEQ(i) := i + 1. (Log 48: DEDUCED, unsafe.) -/
def State.qFill (s : State) (me : Party) (core asid : Nat) (da : W64) (acc i : Nat) (data : List Byte) : QStep :=
  match s.qdesc core asid da acc with
  | .error fr => .fault fr
  | .ok q =>
    match s.homeLoad core asid (q.seq i) 8 acc with
    | .error fr => .fault fr
    | .ok x =>
      if x != i then .wait
      else match s.homeStore me core asid (q.slot i) acc data with
        | .error fr => .fault fr
        | .ok s1 => .of (s1.homeStore me core asid (q.seq i) acc (leBytes 8 (i + 1))) []

/-- R118 step 1. -/
def State.qTake (s : State) (me : Party) (core asid : Nat) (da : W64) (acc : Nat) : QStep :=
  match s.qdesc core asid da acc with
  | .error fr => .fault fr
  | .ok q =>
    if q.ridx < q.widx then
      match s.homePut me core asid da.toNat (q.pa + 24) acc (leBytes 8 (q.ridx + 1)) with
      | .ok s' => .took s' q.ridx
      | .error fr => .fault fr
    else .none

/-- R118's later steps on entry `i`: SEQ(i) = i + 1, then the 64 bytes read and SEQ(i) := i + 2^LOGN. -/
def State.qEmpty (s : State) (me : Party) (core asid : Nat) (da : W64) (acc i : Nat) : QStep :=
  match s.qdesc core asid da acc with
  | .error fr => .fault fr
  | .ok q =>
    match s.homeLoad core asid (q.seq i) 8 acc with
    | .error fr => .fault fr
    | .ok x =>
      if x != (i + 1) % 2 ^ 64 then .wait
      else match s.homeOf core asid (q.slot i) 64 acc false with
        | .error fr => .fault fr
        | .ok pa => .of (s.homeStore me core asid (q.seq i) acc (leBytes 8 (i + 2 ^ q.logn))) (s.bytes pa 64)

/-- A fault of a queue instruction's step. -/
def qFault (fr : FRec) : Res := if fr.busy then .retry else if fr.replayable then .page fr else .fatal fr

/-- The condition of an atomic step on the descriptor (R213). -/
def State.qAtomReady (s : State) (g : Gid) (r : Group) (asid : Nat) (da : W64) : Bool :=
  match s.homeOf g.core asid da.toNat 64 Acc.queue true with
  | .ok pa => !(r.outbox.any fun e => e.marker.isSome || e.overlaps (if isPeer pa then .peer else .global) pa 64)
  | .error _ => true

/-- The pages of a queue operation's descriptor and of its entry `i` that translate, counted once for the instruction
(R296, R297); `seen` are those counted before. -/
def State.queueTranslated (s : State) (core asid : Nat) (da : W64) (i : Option Nat) (acc : Nat) (seen : List Nat) :
    State × List Nat :=
  let vas := da.toNat :: match i, s.qdesc core asid da acc with
    | some i, .ok q => [q.slot i, q.seq i]
    | _, _ => []
  let ok := fun (p : Nat) => match s.translate core asid (p * 4096) acc false false with
    | .ok _ _ => true
    | _ => false
  let new := (sortNat (vas.map (· / 4096))).filter fun p => ok p && !seen.contains p
  (s.translatedAll core asid (new.map (· * 4096)), seen ++ new)

/-- A link error that a queue operation meets (R302, R370): its descriptor, an entry or its SEQ is reached over a
link. -/
def State.queueLinked (s : State) (r : Group) (core asid : Nat) (da : W64) (i : Option Nat) (acc : Nat) : Option FRec :=
  if !r.linkBad then none
  else
    let vas := match s.qdesc core asid da acc with
      | .ok q => da.toNat :: (i.map fun i => [q.slot i, q.seq i]).getD []
      | .error _ => []
    (vas.find? fun a => match s.translate core asid a acc false false with
      | .ok pa _ => overLink pa
      | _ => false).map fun a => { code := Code.addrv, acc := acc, asid := asid, va := BitVec.ofNat 64 a }

/-- Whether a trap at the PC withholds the access of a group-wide instruction: it takes every lane that source 7
considers (R343, log 108: DESIGN CHOICE, unsafe). -/
def State.pcWithheld (s : State) (g : Gid) (r : Group) : Bool :=
  let wl := if r.wskip then [] else (trapMatch (s.watchMatches g r [pcSrc r])).map (·.1)
  !wl.isEmpty && (maskLanes r.exec).all fun l => r.hlp.getLsbD l || wl.contains l

/-- QPUSH and TSUB (R117, R119): `data` are the entry's bytes; `after` runs once the entry is published. The pages are
counted whatever the step comes to. -/
def State.pushRes (s : State) (g : Gid) (r : Group) (f : Fields) (asid : Nat) (da : W64)
    (data : List Byte) (after : State → Nat → State) : Res :=
  match r.wait with
  | .qpush i got seen =>
    match s.queueLinked r g.core asid da (some i) Acc.push with
    | some fr => .fatal fr
    | none =>
      -- SEQ(i) is written with release at device scope
      if !r.outbox.isEmpty then .retry
      else
        let t := s.queueTranslated g.core asid da (some i) Acc.push seen
        match t.1.qFill (.group r.uid) g.core asid da Acc.push i data with
        | .done s' _ => .done (after s' i) { r.next f with wait := .none, q := setBit r.q f.d.toNat true }
        | .fault fr => if fr.busy then .retry else (qFault fr).at_ t.1
        | _ => if t.2 = seen then .retry else .hold t.1 { r with wait := .qpush i got t.2 }
  | _ =>
    if s.pcWithheld g r then .done s (r.next f)
    else if !s.qAtomReady g r asid da then .retry
    else match s.queueLinked r g.core asid da none Acc.push with
    | some fr => .fatal fr
    | none =>
      let t := s.queueTranslated g.core asid da none Acc.push []
      match t.1.qReserve (.group r.uid) g.core asid da Acc.push with
      | .took s' i => .hold s' { r with wait := .qpush i [] t.2 }
      | .fault fr => if fr.busy then .retry else (qFault fr).at_ t.1
      | _ => .done t.1 { r.next f with q := setBit r.q f.d.toNat false }

/-- DLQD (R119) of a partition. -/
def State.dlqd (s : State) (p : Nat) : W64 := s.partReg p 0x08
/-- Log 44: DEDUCED, unsafe. -/
def State.dlqDesc (s : State) (p : Nat) : W64 := BitVec.ofNat 64 (bitsOf (s.dlqd p) 47 6 * 64)
/-- The ASID that made an entry of a device launch queue (R291). -/
def State.noteDlq (s : State) (p asid i : Nat) : State :=
  { s with dev := { s.dev with dlqAsid := tput s.dev.dlqAsid (p * 2 ^ 64 + i) asid } }

/-- Whether a queue that a group names is its partition's launch queue: one descriptor at home. -/
def State.isDlq (s : State) (g : Gid) (r : Group) (da : W64) : Bool :=
  let asid := s.asidOf g r
  match s.homeOf g.core asid da.toNat 64 Acc.push true, s.homeOf g.core asid (s.dlqDesc (s.partOf asid)).toNat 64 Acc.push true with
  | .ok x, .ok y => x == y
  | _, _ => false

/-- A task record that a crew pushes onto its launch queue is that crew's, as one of TSUB is (R64, R291). -/
def execQpush (f : Fields) (s : State) : Host.Outcome State Fault Refusal :=
  issue 0 f (shapeQpush f) s fun s g r =>
    let asid := s.asidOf g r
    let mine := s.isDlq g r (s.gr r f.a.toNat)
    s.pushRes g r f asid (s.gr r f.a.toNat)
      ((List.range 8).flatMap fun i => leBytes 8 (s.gr r (f.b.toNat + i)).toNat)
      fun s i => if mine then s.noteDlq (s.partOf asid) asid i else s

/-- What a step that reads a unit of a 64-byte record comes to. -/
inductive UnitRead where
  | ok (s : State) (got : Tab (List Byte)) (seen : List Nat)
  | fault (fr : FRec)
  | retry

/-- Reads one more of the four units of a 64-byte record of a group (R209): an outbox entry that meets the record is
awaited (R213); `seen` are the pages that the instruction has translated (R296). -/
def State.unitRead (s : State) (g : Gid) (r : Group) (a : W64) (acc : Nat) (got : Tab (List Byte)) (seen : List Nat) :
    UnitRead :=
  let asid := s.asidOf g r
  match s.homeOf g.core asid a.toNat 64 acc false with
  | .error fr => .fault fr
  | .ok pa =>
    if r.linkBad && overLink pa then .fault { code := Code.addrv, acc := acc, va := a }
    else if r.outbox.any fun e => e.overlaps (if isPeer pa then .peer else .global) pa 64 then .retry
    else
      let x := s.pick ((List.range 4).filter fun i => (tfind got i).isNone)
      let p := a.toNat / 4096
      let s1 := if seen.contains p then x.2 else x.2.translated g.core asid (p * 4096)
      .ok (s1.readHome g.core [pa]) (tput got x.1 (s.bytes (pa + 16 * x.1) 16)) (if seen.contains p then seen else seen ++ [p])

/-- The bytes of a record whose units have been read. -/
def unitBytes (n : Nat) (got : Tab (List Byte)) : List Byte := (List.range n).flatMap fun i => (tfind got i).getD []

/-- The steps of R117, the record read, unit by unit (R209), where QPUSH reads its registers: a fault of that read is met
only there. -/
def execTsub (f : Fields) (s : State) : Host.Outcome State Fault Refusal :=
  issue 0 f (shapeTsub f) s fun s g r =>
    let asid := s.asidOf g r
    let p := s.partOf asid
    let a := s.gr r f.a.toNat
    let bad : FRec := { code := Code.addrv, acc := Acc.queue, va := a }
    if a.toNat % 64 != 0 then .fatal bad
    else if r.wait = .none && !bitOf (s.dlqd p) 0 then .done s { r.next f with q := setBit r.q f.d.toNat false }
    else match r.wait with
      | .qpush i got seen =>
        let push := fun (got : Tab (List Byte)) => s.pushRes g r f asid (s.dlqDesc p) (unitBytes 4 got) fun s i => s.noteDlq p asid i
        if got.length = 4 then push got
        else match s.unitRead g r a Acc.queue got seen with
          | .ok s' got' seen' => .hold s' { r with wait := .qpush i got' seen' }
          | .fault fr => qFault fr
          | .retry => .retry
      | _ => s.pushRes g r f asid (s.dlqDesc p) [] fun s _ => s

def execQpop (f : Fields) (s : State) : Host.Outcome State Fault Refusal :=
  issue 0 f (shapeQpop f) s fun s g r =>
    let asid := s.asidOf g r
    let da := s.gr r f.a.toNat
    let nb := f.fnIs 1
    match r.wait with
    | .qpop (some i) seen =>
      match s.queueLinked r g.core asid da (some i) Acc.queue with
      | some fr => .fatal fr
      | none =>
      let t := s.queueTranslated g.core asid da (some i) Acc.queue seen
      match t.1.qEmpty (.group r.uid) g.core asid da Acc.queue i with
      | .done s' bs =>
        let s1 := (List.range 8).foldl (fun s k =>
          s.setG r (f.d.toNat + k) (BitVec.ofNat 64 (leNat ((bs.drop (8 * k)).take 8)))) (s'.emptyView g.core)
        .done s1 { r.next f with wait := .none, q := if nb then setBit r.q f.c.toNat true else r.q }
      | .fault fr => if fr.busy then .retry else (qFault fr).at_ t.1
      | _ => if t.2 = seen then .retry else .hold t.1 { r with wait := .qpop (some i) t.2 }
    | w =>
      let seen := match w with | .qpop _ seen => seen | _ => []
      if r.wait = .none && s.pcWithheld g r then .done s (r.next f)
      else if !s.qAtomReady g r asid da then .retry
      else match s.queueLinked r g.core asid da none Acc.queue with
      | some fr => .fatal fr
      | none =>
        let t := s.queueTranslated g.core asid da none Acc.queue seen
        match t.1.qTake (.group r.uid) g.core asid da Acc.queue with
        | .took s' i => .hold s' { r with wait := .qpop (some i) t.2 }
        | .fault fr => if fr.busy then .retry else (qFault fr).at_ t.1
        | _ =>
          if nb then .done t.1 { r.next f with q := setBit r.q f.c.toNat false }
          else .hold t.1 { r with wait := .qpop none t.2 }

/-! ### PUSH (R221, R248) -/

/-- A TASKINV record (R64, R316). -/
def State.taskInv (s : State) (part asid cond : Nat) (addr : Nat) : State :=
  s.raise part { code := Code.taskinv, acc := Acc.queue, asid := asid, va := BitVec.ofNat 64 addr,
                 b2c := BitVec.ofNat 32 cond, b30 := BitVec.ofNat 64 addr }

/-- A link error of a push's access to its task record or its queue: ADDRV, and the push is dropped (R302, R370). -/
def State.pushLink (s : State) (k : Nat) : State :=
  match tfind s.pushes k with
  | none => s
  | some p =>
    let part := s.partOf p.asid
    if p.stall.isNone && (s.placeLinked noCore p.asid p.task 64 Acc.push false ||
        s.placeLinked noCore p.asid (s.dlqDesc part).toNat 64 Acc.push true) then
      ({ s with pushes := tdel s.pushes k } : State).taskInv part p.asid 6 p.task
    else s

/-- One step of the home-slice agent on a push. -/
def execPush (k : Nat) (s : State) : Host.Outcome State Fault Refusal :=
  match tfind s.pushes k with
  | none => .next s
  | some p =>
    let part := s.partOf p.asid
    let drop := fun (s : State) => { s with pushes := tdel s.pushes k }
    let put := fun (s : State) (p : Push) => { s with pushes := tput s.pushes k p }
    let fault := fun (fr : FRec) =>
      if fr.replayable then
        (put s { p with stall := some (p.asid, fr.va.toNat / 4096), capf := fr.capfPage p.asid }).raise part
          { fr with asid := p.asid, acc := Acc.push }
      else if fr.busy then s
      else drop (s.taskInv part p.asid 6 p.task)
    if p.stall.isSome then .next s
    else if !bitOf (s.dlqd part) 0 then .next (drop (s.taskInv part p.asid 5 p.task))
    else if p.task % 64 != 0 || 2 ^ 48 ≤ p.task then .next (drop (s.taskInv part p.asid 6 p.task))
    else match s.homeOf noCore p.asid p.task 64 Acc.push false with
      | .error fr => .next (fault fr)
      | .ok pa =>
        match p.taken with
        | none =>
          match s.qReserve (.push k) noCore p.asid (s.dlqDesc part) Acc.push with
          | .took s' i => .next (put s' { p with taken := some i, capf := none })
          | .fault fr => .next (fault fr)
          | _ => .next s
        | some i =>
          match s.qFill (.push k) noCore p.asid (s.dlqDesc part) Acc.push i (s.bytes pa 64) with
          | .done s' _ => .next (drop ((s'.noteDlq part p.asid i).readElsewhere pa 64))
          | .fault fr => .next (fault fr)
          | _ => .next s

end Sys2Proof.Machine
end

