-- ==== Sys2Proof/Machine/Copy.lean ====
section
/-! DEFINITION. Copies: CPYO, CPYT, CPYB and their steps COPY_ISSUE, BEAT, COPY_COMPLETION (R217, R218,
R236 to R240). -/

namespace Sys2Proof.Machine

/-! ### The operands of a copy, as captured at issue -/

/-- A tensor layout record and coordinates (R239). -/
structure Box where
  base : Nat
  dims : List Nat
  strs : List Int
  box : List Nat
  es : Nat
  fill : Option W32
  rank : Nat
  c : List Int

/-- CPYT's operands are its scratch address, the record's eight words, and the two coordinate words (R239). The strides
are two's complement and an element's address is not reduced modulo 2^64 (log 114: DEDUCED, unsafe). -/
def boxOf (ops : List W64) : Box :=
  let w := fun i => ops.getD (i + 1) 0
  let at_ := fun i j => bitsOf (w i) (32 * j + 31) (32 * j)
  let fl := at_ 6 1
  { base := (w 0).toNat,
    dims := [at_ 1 0, at_ 1 1, at_ 2 0, at_ 2 1],
    strs := [0, (w 3).toInt, (w 4).toInt, (w 5).toInt],
    box := (List.range 4).map fun k => bitsOf (w 6) (8 * k + 7) (8 * k) + 1,
    es := 2 ^ (fl % 8), fill := if fl.testBit 8 then some (BitVec.ofNat 32 (at_ 7 0)) else none,
    rank := fl / 16 % 4 + 1,
    c := (List.range 4).map fun k => (BitVec.ofNat 32 (bitsOf (ops.getD (9 + k / 2) 0) (32 * (k % 2) + 31) (32 * (k % 2)))).toInt }

/-- Bytes of a row. -/
def Box.row (b : Box) : Nat := b.box.getD 0 1 * b.es
/-- Bytes of the box. -/
def Box.bytes (b : Box) : Nat := b.row * b.box.getD 1 1 * b.box.getD 2 1 * b.box.getD 3 1
/-- A coordinate; those at or above the rank are ignored. -/
def Box.coord (b : Box) (k : Nat) : Int := if k < b.rank then b.c.getD k 0 else 0

/-- The rules of R239 on a record and its coordinates. -/
def Box.ok (b : Box) (ops : List W64) : Bool :=
  let w := fun i => ops.getD (i + 1) 0
  let fl := bitsOf (w 6) 63 32
  b.base % 16 == 0 && fl / 512 == 0 && fl / 64 % 4 == 0 && fl / 8 % 2 == 0 && decide (fl % 8 ≤ 4) &&
    bitsOf (w 7) 63 32 == 0 &&
    ((List.range 4).all fun k => b.dims.getD k 0 != 0 && (k < b.rank || b.dims.getD k 0 == 1) &&
      (k < b.rank || b.box.getD k 0 == 1)) &&
    (b.strs.all fun x => x % 16 == 0) &&
    b.row % 16 == 0 && (b.coord 0 * b.es) % 16 == 0 && (ops.getD 0 0).toNat % 16 == 0

/-- The global address of byte `o` of the box, and whether its element is in bounds. -/
def Box.at (b : Box) (o : Nat) : Int × Bool :=
  let r := o / b.row
  let x := [o % b.row / b.es, r % b.box.getD 1 1, r / b.box.getD 1 1 % b.box.getD 2 1, r / b.box.getD 1 1 / b.box.getD 2 1]
  let p := fun k => b.coord k + x.getD k 0
  ((b.base : Int) + p 0 * b.es + p 1 * b.strs.getD 1 0 + p 2 * b.strs.getD 2 0 + p 3 * b.strs.getD 3 0 + (o % b.es : Nat),
   (List.range b.rank).all fun k => decide (0 ≤ p k) && decide (p k < b.dims.getD k 0))

/-- The lowest in-bounds byte's address, and the one after the highest; none without an in-bounds element. -/
def Box.ends (b : Box) : Option (Int × Int) :=
  let ext := (List.range 4).map fun k =>
    let lo := max 0 (b.coord k)
    let hi := min ((b.dims.getD k 1 : Int) - 1) (b.coord k + b.box.getD k 1 - 1)
    (lo, hi)
  if (List.range b.rank).any fun k => (ext.getD k (0, 0)).2 < (ext.getD k (0, 0)).1 then none
  else
    let str := fun k => if k = 0 then (b.es : Int) else b.strs.getD k 0
    let e := fun k => if k < b.rank then ext.getD k (0, 0) else (0, 0)
    let lo := (List.range 4).foldl (fun a k => a + min ((e k).1 * str k) ((e k).2 * str k)) (b.base : Int)
    let hi := (List.range 4).foldl (fun a k => a + max ((e k).1 * str k) ((e k).2 * str k)) (b.base : Int) + b.es
    some (lo, hi)
/-- The global range of the in-bounds elements, widened to 16-byte units. -/
def Box.span (b : Box) : Option (Nat × Nat) := b.ends.map fun e => (e.1.toNat / 16 * 16, (e.2.toNat + 15) / 16 * 16)

/-- Whether the source, and the destination, is scratch. -/
def copyDir (kind : Nat) (f : Fields) : Bool × Bool :=
  match kind with
  | 0 => (f.fnBits 1 0 == 0 || f.fnBits 1 0 == 3, f.fnBits 1 0 == 1 || f.fnBits 1 0 == 3)
  | 1 => (f.fnBits 0 0 == 0, f.fnBits 0 0 == 1)
  | _ => (f.fnBits 7 7 == 0, f.fnBits 7 7 == 1)

/-- COUNT. -/
def Fields.count (f : Fields) : Nat := f.immBits 31 0

/-- Beats and bytes of a copy. -/
def copyBeats (kind : Nat) (f : Fields) (ops : List W64) : Nat × Nat :=
  match kind with
  | 0 => (Fields.count f / 16, Fields.count f)
  | 1 => let n := (boxOf ops).bytes; (n / 16, n)
  | _ => (Fields.count f, Fields.count f * (f.gb + 1))

/-- A copy's ranges, all of them: source and destination. -/
def copyRanges (kind : Nat) (f : Fields) (ops : List W64) : List Range :=
  let d := copyDir kind f
  let o := fun i => (ops.getD i 0).toNat
  match kind with
  | 0 => [{ lo := o 1, hi := o 1 + Fields.count f, scratch := d.1, dst := false },
          { lo := o 0, hi := o 0 + Fields.count f, scratch := d.2, dst := true }]
  | 1 =>
    let b := boxOf ops
    let s : Range := { lo := o 0, hi := o 0 + b.bytes, scratch := true, dst := d.2 }
    match b.span with
    | some (lo, hi) => [s, { lo := lo, hi := hi, scratch := false, dst := !d.2 }]
    | none => [s]
  | _ =>
    let n := Fields.count f
    [{ lo := o 2, hi := o 2 + n * f.gb, scratch := d.1, dst := false },
     { lo := o 3, hi := o 3 + n, scratch := d.1, dst := false },
     { lo := o 0, hi := o 0 + n * f.gb, scratch := d.2, dst := true },
     { lo := o 1, hi := o 1 + n, scratch := d.2, dst := true }]

/-- The bytes of beat `k`: (source address or a fill byte, destination address). -/
def copyBeat (kind : Nat) (f : Fields) (ops : List W64) (k : Nat) : List (Sum Nat Byte × Nat) :=
  let o := fun i => (ops.getD i 0).toNat
  match kind with
  | 0 => (List.range 16).map fun i => (.inl (o 1 + 16 * k + i), o 0 + 16 * k + i)
  | 1 =>
    let b := boxOf ops
    let toScratch := (copyDir 1 f).2
    (List.range 16).filterMap fun i =>
      let p := b.at (16 * k + i)
      let s := o 0 + 16 * k + i
      if toScratch then
        some (if p.2 then .inl (if p.1 < 0 then 2 ^ 48 else p.1.toNat)
              else .inr (BitVec.ofNat 8 ((b.fill.getD 0).toNat / 2 ^ (8 * (s % 4)))), s)
      else if p.2 then some (.inl s, if p.1 < 0 then 2 ^ 48 else p.1.toNat) else none
  | _ =>
    (List.range f.gb).map (fun i => (.inl (o 2 + k * f.gb + i), o 0 + k * f.gb + i)) ++
      [(.inl (o 3 + k), o 1 + k)]

/-! ### Issue (R237) -/

/-- Steps 1 and 2 of R237: a channel is held, the barrier is initialised, the future's address is aligned. -/
def State.copyCheck2 (s : State) (g : Gid) (r : Group) (f : Fields) : Option FRec :=
  let c := s.crewOf g r
  if c.hold.ch = 0 then some { code := Code.claimx }
  else if f.immBits 36 36 == 1 && !(c.bar (f.immBits 35 32)).init then some { code := Code.barx }
  else if f.immBits 37 37 == 1 && (s.gr r (f.immBits 45 40)).toNat % 16 != 0 then
    some { code := Code.addrv, acc := Acc.future, va := s.gr r (f.immBits 45 40) }
  else none

/-- The checks of one lane's copy (R237), the first failure decides. -/
def State.copyCheck (s : State) (g : Gid) (r : Group) (f : Fields) (kind : Nat) (ops : List W64) : Option FRec :=
  let c := s.crewOf g r
  let bad : FRec := { code := Code.addrv, acc := Acc.cpyRead, va := ops.getD 1 0 }
  let rs := copyRanges kind f ops
  let o := fun i => (ops.getD i 0).toNat
  match s.copyCheck2 g r f with
  | some fr => some fr
  | none =>
  if (rs.any fun x => x.scratch && c.hold.sg * 16384 < x.hi) || rs.any (fun x => !x.scratch && 2 ^ 48 < x.hi) ||
      -- an element below address 0 is none that translates, as one from 2^48 on is
      (kind == 1 && (boxOf ops).ends.any fun e => decide (e.1 < 0)) then some bad
  else
    let n := Fields.count f
    let ok := match kind with
      | 0 => o 0 % 16 == 0 && o 1 % 16 == 0 && n % 16 == 0 && n != 0 &&
          !(f.fnBits 1 0 == 3 && decide (o 0 < o 1 + n) && decide (o 1 < o 0 + n))
      | 1 => (boxOf ops).ok ops
      | _ => o 0 % min f.gb 16 == 0 && o 2 % min f.gb 16 == 0 && decide (1 ≤ n) && decide (n ≤ 2 ^ 20)
    if ok then none else some bad

/-- A copy instruction: every lane's copy is checked, then the group waits while they issue. -/
def State.copyRes (s : State) (g : Gid) (r : Group) (f : Fields) (sh : Shape) (kind : Nat) (ops : Nat → List W64)
    (src dst : Nat → W64) : Res :=
  let ls := s.contrib r f
  let chk := fun l => match s.copyCheck g r f kind (ops l) with
    | some fr => LChk.bad fr
    | none => .lat 0 0
  match s.gate g r f sh ls chk src (fun _ => false)
      [{ src := 0, lanes := ls, x := src }, { src := 1, lanes := ls, x := dst }] with
  | .stop x => x
  | .go pre go traps =>
    if go.isEmpty then .ok s { r.next f with wait := .none } (some pre) [] traps
    else .wait s { r with wait := .copy (go.map fun l => (l, ops l)) } (some pre) traps

def execCpyo (f : Fields) (s : State) : Host.Outcome State Fault Refusal :=
  issue 0 f (shapeCpyo f) s fun s g r =>
    match r.wait with
    | .copy _ => .retry
    | _ =>
      let a := fun l => s.src64 r false f.ka f.a l
      let b := fun l => s.src64 r false f.kb f.b l
      s.copyRes g r f (shapeCpyo f) 0 (fun l => [a l, b l]) b a

def execCpyb (f : Fields) (s : State) : Host.Outcome State Fault Refusal :=
  issue 0 f (shapeCpyb f) s fun s g r =>
    match r.wait with
    | .copy _ => .retry
    | _ =>
      let b := fun l => s.src64 r false f.kb f.b l
      let d := s.gr r f.d.toNat
      s.copyRes g r f (shapeCpyb f) 2
        (fun l => [d, s.src64 r false f.ka f.a l, b l, s.src64 r false f.kc f.c l]) b fun _ => d

/-- The checks of a lane of CPYT before its record is read (R226, R237): the scratch address lies in the holding and is a
multiple of 16, as the record's is of 64; then the record translates, and meets no link error (R302). -/
def State.cpytCheck (s : State) (g : Gid) (r : Group) (f : Fields) (a : W64) : LChk :=
  let ra := s.gr r f.b.toNat
  match s.copyCheck2 g r f with
  | some fr => .bad fr
  | none =>
    if (s.crewOf g r).hold.sg * 16384 ≤ a.toNat || a.toNat % 16 != 0 then addrvAt a (if (copyDir 1 f).2 then Acc.cpyWrite else Acc.cpyRead)
    else if !goodAddr ra 64 then addrvAt ra Acc.load
    else match s.homeOf g.core (s.asidOf g r) ra.toNat 64 Acc.load false with
      | .error fr => .bad { fr with va := ra }
      | .ok pa => r.linked ra Acc.load (.ok pa)

/-- CPYT reads its layout record when it issues (R239), a unit a step (R209), whatever range is locked (log 130: DESIGN
CHOICE, unsafe); then its copies are checked. -/
def execCpyt (f : Fields) (s : State) : Host.Outcome State Fault Refusal :=
  issue 0 f (shapeCpyt f) s fun s g r =>
    match r.wait with
    | .copy _ => .retry
    | w =>
      let got := match w with | .units got => got | _ => []
      let ra := s.gr r f.b.toNat
      let a := fun l => s.src64 r false f.ka f.a l
      let c := [s.gr r f.c.toNat, s.gr r (f.c.toNat + 1)]
      let ls := s.contrib r f
      if ls.isEmpty then .done s { r.next f with wait := .none }
      else match s.gate g { r with wskip := true } f (shapeCpyt f) ls (fun l => s.cpytCheck g r f (a l)) a (fun _ => false) [] with
      | .stop x => x
      | .go _ _ _ =>
        match s.unitRead g r ra Acc.load got (if got.isEmpty then [] else [ra.toNat / 4096]) with
        | .fault fr => .fatal fr
        | .retry => .retry
        | .ok s1 got' _ =>
          if got'.length < 4 then .wait s1 { r with wait := .units got' } (some []) []
          else
            let bs := unitBytes 4 got'
            let rec_ := (List.range 8).map fun i => BitVec.ofNat 64 (leNat ((bs.drop (8 * i)).take 8))
            let glob := rec_.headD 0
            let toScr := (copyDir 1 f).2
            (s1.copyRes g r f (shapeCpyt f) 1 (fun l => a l :: rec_ ++ c)
              (fun l => if toScr then glob else a l) fun l => if toScr then a l else glob).at_ s1

/-! ### COPY_ISSUE (R217, R237) -/

def Range.meets (x y : Range) : Bool := x.scratch == y.scratch && decide (x.lo < y.hi) && decide (y.lo < x.hi)

/-- Whether an outbox entry holds a copy back: a marker, or bytes of one of its ranges (R217). -/
def Ent.blocksCopy (e : Ent) (uid : Nat) (rs : List Range) : Bool :=
  e.marker.isSome ||
  rs.any fun x =>
    if x.scratch then e.space == .scratch uid && e.cells.any fun c => decide (x.lo ≤ c.1) && decide (c.1 < x.hi)
    else (e.space == .global || e.space == .peer) && e.vas.any fun v => decide (x.lo ≤ v) && decide (v < x.hi)

/-- Whether an entry waits to reach bytes of global memory that a copy's beat reads or writes. -/
def Ent.meetsBeat (e : Ent) (globals : List Nat) : Bool := e.space.same .global && e.vas.any globals.contains

/-- Whether a lane's copy may issue now: its channel, or none; it waits too where the core's 32 range-scoreboard
entries do not hold its destination (log 91: DESIGN CHOICE, unsafe). -/
def State.copyChannel (s : State) (g : Gid) (r : Group) (rs : List Range) : Option Nat :=
  let c := s.crewOf g r
  let mine := s.copies.filter fun e => e.2.core = g.core
  let own := mine.filter fun e => e.2.uid = c.uid
  let clash := mine.any fun e => !e.2.arrived && e.2.ranges.any fun x =>
    rs.any fun y => x.meets y && (x.dst || y.dst) && (if x.scratch then e.2.uid == c.uid else e.2.asid == c.asid)
  if c.hold.ch ≤ own.length || clash || decide (32 < s.scoreEntries g.core + (rs.filter fun y => y.scratch && y.dst).length) || r.outbox.any (fun e => e.blocksCopy c.uid rs) then none
  else (List.range 8).find? fun n => !(mine.any fun e => e.2.chan = n)

def kindOf (ops : List W64) : Nat := if ops.length = 2 then 0 else if ops.length = 4 then 2 else 1

/-- The lowest lane whose copy may issue takes the copy-issue step; the group goes on after the last. -/
def execCopyIssue (g : Gid) (s : State) : Host.Outcome State Fault Refusal :=
  s.onWait g fun r =>
    match r.wait with
    | .copy todo =>
      let f := r.ins
      let c := s.crewOf g r
      match todo.findSome? fun x => (s.copyChannel g r (copyRanges (kindOf x.2) f x.2)).map fun ch => (x, ch) with
      | none => s
      | some (x, ch) =>
        let kind := kindOf x.2
        let rs := (copyRanges kind f x.2).filter fun y => !y.scratch || y.dst
        let nb := copyBeats kind f x.2
        let (id, s) := s.fresh
        let bar := if f.immBits 36 36 == 1 then some (f.immBits 35 32) else none
        let fut := if f.immBits 37 37 == 1 then some (s.gr r (f.immBits 45 40)).toNat else none
        let s := { s with copies := tput s.copies id {
          core := g.core, crew := r.crew, uid := c.uid, asid := c.asid, pc := r.pc, fields := f, kind := kind,
          ops := x.2, chan := ch, ranges := rs, n := nb.1, bytes := nb.2, bar := bar, fut := fut } }
        let rest := todo.filter fun y => y.1 != x.1
        if rest.isEmpty then s.waitDone g r s r [] [] else s.putGroup g { r with wait := .copy rest }
    | _ => s

/-! ### BEAT (R217, R237) -/

/-- One byte's source, read at home, in scratch or in the local replica. -/
def State.copyRead (s : State) (core uid hold asid : Nat) (scratch : Bool) (a : Nat) (acc : Nat) : Except FRec Byte :=
  if scratch then
    (if a < hold then .ok (s.sbyte uid a) else .error { code := Code.addrv, acc := acc, asid := asid, va := BitVec.ofNat 64 a })
  else match s.translate core asid a acc false false with
    | .ok pa e =>
      if s.leafError e pa 1 then .error { code := Code.memerr, acc := acc, asid := asid, va := BitVec.ofNat 64 a }
      else .ok (s.byte pa)
    | .lattice d o => .ok ((s.regionOf d).byte (dieOf core) o)
    | .fault fr => .error fr

/-- The places of a list of destination bytes: the first fault decides. -/
def State.copyPlaces (s : State) (core uid hold asid : Nat) (scratch : Bool) (acc : Nat) :
    List Nat → Except FRec (List Nat)
  | [] => .ok []
  | a :: t =>
    let here : Except FRec Nat :=
      if scratch then
        (if a < hold then .ok (scrKey uid a) else .error { code := Code.addrv, acc := acc, asid := asid, va := BitVec.ofNat 64 a })
      else match s.translate core asid a acc true false with
        | .ok pa _ => .ok pa
        | .lattice _ _ => .error { code := Code.nonmono, acc := acc, asid := asid, va := BitVec.ofNat 64 a }
        | .fault fr => .error fr
    match here with
    | .error fr => .error fr
    | .ok p => match s.copyPlaces core uid hold asid scratch acc t with
      | .ok ps => .ok (p :: ps)
      | .error fr => .error fr

def exceptAll {α : Type} : List (Except FRec α) → Except FRec (List α)
  | [] => .ok []
  | .error e :: _ => .error e
  | .ok x :: t => match exceptAll t with
    | .ok xs => .ok (x :: xs)
    | .error e => .error e

/-- Writes bytes at virtual places at home, page by page, and drops the issuing core's view lines. -/
def State.workWrite (s : State) (me : Party) (core asid : Nat) (cells : List (Nat × Nat × Byte)) : HomeWrite :=
  let pages := (sortNat (cells.map fun c => c.1 / 4096)).map fun p =>
    (p * 4096, (cells.filter fun c => c.1 / 4096 = p).map fun c => c.2)
  match s.homeWrites me asid pages with
  | .capf fr =>
    -- the record names the first byte that it would write on the page
    let p := fr.va.toNat / 4096
    let vas := (cells.map (·.1)).filter fun v => v / 4096 = p
    .capf { fr with va := BitVec.ofNat 64 (vas.foldl min (vas.headD (p * 4096))) }
  | .busy => .busy
  | .ok s' => .ok ((sortNat (cells.map fun c => c.2.1 / 64)).foldl (fun s l => s.dropLine core l) s')

/-- The copy's work stops: the beats written stand, no arrival or resolution is made, and the crew stops
with the code at the copy's PC (R237). -/
def State.copyFault (s : State) (id : Nat) (c : Copy) (fr : FRec) : State :=
  if fr.busy then s
  else if fr.replayable then
    let c := { c with stall := some (c.asid, fr.va.toNat / 4096), capf := fr.capfPage c.asid }
    ({ s with copies := tput s.copies id c } : State).raise
      (s.partOf c.asid) { fr with asid := c.asid, pc := c.pc }
  else
    let s := s.stopCrew c.core c.crew none { fr with asid := c.asid, pc := c.pc }
    { s with copies := tdel s.copies id }

/-- An entry is posted (R182). -/
def State.post (s : State) (o : Op) : State :=
  let (id, s) := s.fresh
  { s with ops := tput s.ops id o }

/-- The crew that owns a piece of work, if it is still resident. -/
def State.crewByUid (s : State) (core slot uid : Nat) : Option Crew :=
  match s.crew? core slot with
  | some c => if c.uid = uid then some c else none
  | none => none

/-- Whether a store to a locked range whose issue step came before the copy's is still to reach bytes of a beat
(R252: one that comes after is RANGELK). Scratch holds no range lock: there only the issuing group's stores are in
place before the copy (R217). -/
def State.beatAhead (s : State) (c : Copy) (globals : List Nat) : Bool :=
  s.groups.any fun e => (keyGid e.1).core == c.core && (s.crewOf (keyGid e.1) e.2).asid == c.asid &&
    e.2.outbox.any fun x => x.meetsBeat globals

/-- The page of a write that met CAPF, once a write to it is made. -/
def capfDone (capf : Option (Nat × Nat)) (asid : Nat) (vas : List Nat) : Option (Nat × Nat) :=
  if vas.any fun v => capf == some (asid, v / 4096) then none else capf

/-- A beat of a copy. -/
def State.copyStep (s : State) (id k : Nat) (c : Copy) : State :=
    if c.arrived || c.stall.isSome || decide (c.n ≤ k) || c.did.contains k then s
    else
      let hold := ((s.crewByUid c.core c.crew c.uid).map fun x => x.hold.sg * 16384).getD 0
      let d := copyDir c.kind c.fields
      let b := copyBeat c.kind c.fields c.ops k
      let src := b.filterMap fun x => match x.1 with | .inl a => some a | _ => none
      let dst := b.map (·.2)
      if s.beatAhead c ((if d.1 then [] else src) ++ (if d.2 then [] else dst)) then s else
      let rd := exceptAll (b.map fun x => match x.1 with
        | .inl a => s.copyRead c.core c.uid hold c.asid d.1 a Acc.cpyRead
        | .inr v => .ok v)
      match rd, s.copyPlaces c.core c.uid hold c.asid d.2 Acc.cpyWrite dst with
      | .error fr, _ => s.copyFault id c fr
      | _, .error fr => s.copyFault id c fr
      | .ok bs, .ok ps =>
        let cells := (List.range b.length).map fun i => ((b.getD i (.inr 0, 0)).2, ps.getD i 0, bs.getD i 0)
        let w := if d.2 then HomeWrite.ok { s with scratch := tsetMany 0 s.scratch (cells.map (·.2)) }
          else s.workWrite (.copy id) c.core c.asid cells
        match w with
        | .busy => s
        | .capf fr => s.copyFault id c { fr with acc := Acc.cpyWrite }
        | .ok s1 =>
          let vas := (if d.1 then [] else src) ++ (if d.2 then [] else dst)
          let new := (sortNat (vas.map (· / 4096))).filter fun p => !c.seen.contains p
          let s2 := s1.translatedAll c.core c.asid (new.map (· * 4096))
          { s2 with copies := tput s2.copies id { c with
            did := insertNat k c.did, seen := c.seen ++ new, capf := if d.2 then c.capf else capfDone c.capf c.asid dst } }

/-! ### COPY_COMPLETION (R217, R250) -/

/-- A link error of a copy that reaches a peer or a pool device (R302, R370): it stops as on ADDRV. -/
def State.copyLink (s : State) (id : Nat) : State :=
  match tfind s.copies id with
  | none => s
  | some c =>
    let d := copyDir c.kind c.fields
    let side := fun (scratch : Bool) (write : Bool) (a : Nat) =>
      if scratch then none
      else match s.translate c.core c.asid a Acc.cpyRead write false with
        | .ok pa _ => if overLink pa then some a else none
        | _ => none
    let hit := (List.range c.n).findSome? fun k =>
      if c.did.contains k then none
      else (copyBeat c.kind c.fields c.ops k).findSome? fun x =>
        match (match x.1 with | .inl a => side d.1 false a | _ => none) with
        | some a => some (a, Acc.cpyRead)
        | none => (side d.2 true x.2).map fun a => (a, Acc.cpyWrite)
    match hit with
    | some (a, acc) => s.copyFault id c { code := Code.addrv, acc := acc, asid := c.asid, va := BitVec.ofNat 64 a }
    | none => match c.fut with
      -- the resolution, and the join record that it names
      | some a => match (a :: ((s.futJoin noCore c.asid (BitVec.ofNat 64 a)).toList.map (·.toNat))).find? fun a =>
            s.placeLinked noCore c.asid a 16 Acc.future true with
        | some x => s.copyFault id c { code := Code.addrv, acc := Acc.future, asid := c.asid, va := BitVec.ofNat 64 x }
        | none => s
      | none => s

def execCopyCompletion (id : Nat) (s : State) : Host.Outcome State Fault Refusal :=
  match tfind s.copies id with
  | none => .next s
  | some c =>
    if c.stall.isSome || c.did.length != c.n then .next s
    else
      let s := if c.arrived then s
        else
          let s := { s with copies := tput s.copies id { c with arrived := true, ranges := [] } }
          match c.bar with
          | some n => s.workArrive c.core c.crew n c.bytes c.pc
          | none => s
      let drop := fun (s : State) => { s with copies := tdel s.copies id }
      match c.fut with
      | none => .next (drop s)
      | some a =>
        match s.workResolve (.copy id) c.asid a 2 c.bytes c.pc with
        | .ok s' => .next (drop s')
        | .error fr => .next (s.copyFault id { c with arrived := true, ranges := [] } { fr with acc := Acc.future })

end Sys2Proof.Machine
end

