-- ==== Sys2Proof/Machine/Launch.lean ====
section
/-! DEFINITION. Task records (R63, R64), the replay windows they travel through (R90, R91), dispatch and
admission (R65 to R71), crews' ends and grid completion (R89), spawning (R80 to R82, R114, R115). -/

namespace Sys2Proof.Machine

/-! ### Task records -/

/-- The fields of a record (R63). -/
def taskOf (ws : List W64) : TaskRec :=
  let w := fun i => ws.getD i 0
  { kcode := w 0, entry := (w 1).setWidth 32,
    cv := bitOf (w 1) 36, fv := bitOf (w 1) 35, prio := bitsOf (w 1) 34 32,
    nsheaf := bitsOf (w 2) 31 0, sk := bitsOf (w 2) 44 40, sh := bitsOf (w 2) 39 36, sw := bitsOf (w 2) 35 32,
    scrg := bitsOf (w 3) 14 9, gpg := bitsOf (w 3) 8 5, ngrp := bitsOf (w 3) 4 0,
    max := { ms := bitsOf (w 3) 54 52, ch := bitsOf (w 3) 51 48, sg := bitsOf (w 3) 45 40, rg := bitsOf (w 3) 38 32 },
    argp := w 4, futa := w 5, cmpa := w 6, cmpv := w 7 }

def inRange (x lo hi : Nat) : Bool := decide (lo ≤ x) && decide (x ≤ hi)

/-- Every field within R63's limits. -/
def TaskRec.fieldsOk (t : TaskRec) : Bool :=
  t.kcode.toNat % 32 == 0 && t.entry.toNat % 4 == 0 && t.nsheaf != 0 && inRange t.sk 1 16 && inRange t.sh 1 8 &&
    inRange t.sw 1 8 && decide (t.scrg ≤ 32) && inRange t.gpg 1 8 && inRange t.ngrp 1 16 && decide (t.max.ms ≤ 4) &&
    decide (t.max.ch ≤ 8) && decide (t.max.sg ≤ 32) && inRange t.max.rg 1 120 &&
    (!t.fv || t.futa.toNat % 16 == 0) && (!t.cv || t.cmpa.toNat % 8 == 0)
/-- Every must-be-zero bit is zero. -/
def taskZero (ws : List W64) : Bool :=
  let w := fun i => ws.getD i 0
  bitsOf (w 1) 63 37 == 0 && bitsOf (w 2) 63 45 == 0 && bitsOf (w 3) 31 15 == 0 && bitsOf (w 3) 63 55 == 0 &&
    bitsOf (w 3) 47 46 == 0 && bitsOf (w 3) 39 39 == 0
/-- The products of R64. -/
def TaskRec.productsOk (t : TaskRec) : Bool :=
  decide (t.ngrp * t.gpg ≤ t.max.rg) && decide (t.scrg ≤ t.max.sg) && decide (t.sw * t.sh * t.sk ≤ 24) &&
    decide (t.sk * t.ngrp ≤ 32) && decide (t.sk * t.ngrp * t.gpg ≤ 120) && decide (t.sk * t.scrg ≤ 32)

/-- The cores of a rectangle from its top-left core, row by row; none where it leaves the die. -/
def rectCores (t sw sh : Nat) : Option (List Nat) :=
  if colOf t + sw ≤ 8 && rowOf t + sh ≤ 8 && t < 256 then
    some ((List.range sh).flatMap fun i => (List.range sw).map fun j => t + 8 * i + j)
  else none
/-- A die's rectangles of a partition's cores, by top-left core (R68). -/
def State.rects (s : State) (part die sw sh : Nat) : List (Nat × List Nat) :=
  (List.range 64).filterMap fun i =>
    let t := 64 * die + i
    match rectCores t sw sh with
    | some cs => if cs.all (s.owns part) then some (t, cs) else none
    | none => none

/-- The condition of R64 a record fails, in its order: 1 a field, 2 a zero bit, 3 a product, 4 no rectangle. (Log 45:
DEDUCED, unsafe.) -/
def State.taskFault (s : State) (part : Nat) (ws : List W64) : Option Nat :=
  let t := taskOf ws
  if !t.fieldsOk then some 1
  else if !taskZero ws then some 2
  else if !t.productsOk then some 3
  else if (List.range 4).all fun d => (s.rects part d t.sw t.sh).isEmpty then some 4
  else none

/-! ### Replay windows (R90, R91). Link d, 0 to 3, leads from the Thresher to the dispatcher of die d. -/

def State.link (s : State) (n : Nat) : Link := (tfind s.links n).getD {}
def State.putLink (s : State) (n : Nat) (l : Link) : State := { s with links := tput s.links n l }
def State.die (s : State) (d : Nat) : Die := (tfind s.dies d).getD {}
def State.putDie (s : State) (d : Nat) (x : Die) : State := { s with dies := tput s.dies d x }

/-- The sender sends entries while its window of 16 has room. -/
def Link.pump : Nat → Link → Link
  | 0, l => l
  | n + 1, l =>
    match l.waiting with
    | [] => l
    | x :: t =>
      if 16 ≤ l.sent.length || l.backoff.isSome then l
      else Link.pump n { l with waiting := t, next := (l.next + 1) % 256, sent := l.sent ++ [(l.next, x)],
                                transit := l.transit ++ [(l.next, x)] }
def Link.send (l : Link) (x : Nat) : Link := Link.pump 16 { l with waiting := l.waiting ++ [x] }

/-- QUEUE_ENTRY_RECEIPT: the entry expected is accepted, or refused when the queue is full; any other is
dropped. -/
def execQueueEntryReceipt (n : Nat) (full : Bool) (s : State) : Host.Outcome State Fault Refusal :=
  let l := s.link n
  match l.transit with
  | [] => .next s
  | (k, x) :: t =>
    let l := { l with transit := t }
    if k != l.expected then .next (s.putLink n l)
    else if full then .next (s.putLink n { l with replies := l.replies ++ [(k, false)] })
    else
      let s := s.putLink n { l with expected := (k + 1) % 256, replies := l.replies ++ [(k, true)] }
      let d := s.die n
      .next (s.putDie n { d with arrivals := d.arrivals ++ [x] })

/-- ACKNOWLEDGEMENT: the entry's place is free again. -/
def execAcknowledgement (n : Nat) (s : State) : Host.Outcome State Fault Refusal :=
  let l := s.link n
  match l.replies with
  | (k, true) :: t =>
    .next (s.putLink n (Link.pump 16 { l with replies := t, sent := l.sent.filter (fun e => e.1 != k), nacks := 0 }))
  | _ => .next s

/-- NEGATIVE_ACKNOWLEDGEMENT: the sender waits its back-off time. -/
def execNegativeAcknowledgement (n : Nat) (s : State) : Host.Outcome State Fault Refusal :=
  let l := s.link n
  match l.replies with
  | (k, false) :: t => .next (s.putLink n { l with replies := t, backoff := some k, nacks := l.nacks + 1 })
  | _ => .next s

/-- Entries from number `k` onward, in order. -/
def sentFrom (k : Nat) : List (Nat × Nat) → List (Nat × Nat)
  | [] => []
  | e :: t => if e.1 = k then e :: t else sentFrom k t

/-- BACKOFF_EXPIRY: every unacknowledged entry from the refused number is sent again. -/
def execBackoffExpiry (n : Nat) (s : State) : Host.Outcome State Fault Refusal :=
  let l := s.link n
  match l.backoff with
  | none => .next s
  | some k => .next (s.putLink n (Link.pump 16 { l with backoff := none, transit := l.transit ++ sentFrom k l.sent }))

/-- The dies on which a launch could be placed, by its record (R65, R68); all, where none could. -/
def State.launchDies (s : State) (ws : List W64) (asid : Nat) : List Nat :=
  let t := taskOf ws
  let ds := (List.range 4).filter fun d => !(s.rects (s.partOf asid) d t.sw t.sh).isEmpty
  if ds.isEmpty then List.range 4 else ds

/-- A launch is made from a record and sent to a dispatcher; to which of those whose die could place it is a
free choice (log 24: DESIGN CHOICE, safe). -/
def State.newLaunch (s : State) (ws : List W64) (addr asid priv queue : Nat) : Nat × State :=
  let (id, s) := s.fresh
  let (x, s) := s.free
  let ds := s.launchDies ws asid
  let d := ds.getD (x.toNat % ds.length) 0
  (id, ({ s with launches := tput s.launches id { words := ws, addr := addr, asid := asid, priv := priv, queue := queue } } : State).putLink
    d ((s.link d).send id))

/-! ### Host queues' ends (R379) -/

def hqdOff (n k : Nat) : Nat := 0x1000 + 64 * n + 8 * k
def State.hqd (s : State) (n k : Nat) : W64 := s.ctlw (hqdOff n k)
def State.lane (s : State) (n : Nat) : Lane := (tfind s.lanes n).getD {}
def State.putLane (s : State) (n : Nat) (l : Lane) : State := { s with lanes := tput s.lanes n l }
def State.laneAsid (s : State) (n : Nat) : Nat := bitsOf (s.hqd n 0) 11 0
def State.lanePart (s : State) (n : Nat) : Nat := bitsOf (s.hqd n 0) 53 48

/-- The queue stops: STOP, ERRCODE, ERRPTR, vector 2. Its packet and buffers are given up. -/
def State.stopQueue (s : State) (n code : Nat) : State :=
  let l := s.lane n
  let s := s.setCtl (hqdOff n 0) (setBit (s.hqd n 0) 59 true)
  let s := s.setCtl (hqdOff n 3) (BitVec.ofNat 64 code)
  let s := s.setCtl (hqdOff n 4) (BitVec.ofNat 64 l.addr)
  (s.putLane n { l with pkt := none, ib := [], passed := false, stall := none }).vector 2

/-- A queue error: the queue stops, and an IBERR record is written. -/
def State.queueError (s : State) (n code : Nat) : State :=
  let l := s.lane n
  (s.stopQueue n code).raise (s.lanePart n)
    { code := Code.iberr, acc := Acc.queue, asid := s.laneAsid n, va := BitVec.ofNat 64 l.addr }

/-- Where a lane's ring lies. -/
def State.ringAddr (s : State) (n : Nat) : Nat := (s.hqd n 1).toNat / 128 * 128
def State.ringHost (s : State) (n : Nat) : Bool := bitOf (s.hqd n 0) 56
def State.ringWord (s : State) (n a k : Nat) : Nat := if s.ringHost n then s.hword a k else s.pword a k
/-- Whether a lane's ring may be accessed: a peer's memory only where the domain's map says so (R370). -/
def State.ringOk (s : State) (n : Nat) : Bool :=
  s.ringHost n || !isPeer (s.ringAddr n) || s.peerOk (s.ringAddr n)
def State.setRidx (s : State) (n x : Nat) : State :=
  let a := s.ringAddr n + 64
  if s.ringHost n then s.hstore a (leBytes 8 x) else if s.ringOk n then s.store (s.home a) (leBytes 8 x) else s
def State.ridx (s : State) (n : Nat) : Nat := s.ringWord n (s.ringAddr n + 64) 8

/-- Buffers whose packets have all been taken close, and the caller goes on. -/
def closeBuffers : List (Nat × Nat × Nat) → List (Nat × Nat × Nat)
  | [] => []
  | (a, i, n) :: t => if i < n then (a, i, n) :: t else closeBuffers t

/-- The packet in hand has been taken: the next one of the buffer follows, or RIDX rises (R375). A packet
in a buffer is one of the slot that led to it. -/
def State.packetTaken (s : State) (n : Nat) : State :=
  let l := s.lane n
  let ib := closeBuffers l.ib
  let s := s.putLane n { l with pkt := none, passed := false, ib := ib }
  if ib.isEmpty then s.setRidx n (s.ridx n + 1) else s

/-! ### Residency (R68, R70, R76) -/

/-- Group slots of a core in use: by groups, by fatal handler groups (R326), by parked participants. A
lane-level handler group takes none (R70). -/
def State.usedSlots (s : State) (core : Nat) : List Nat :=
  (s.groups.filterMap fun e => if (keyGid e.1).core = core &&
      (match e.2.kind with | .handler _ => false | _ => true) then some (keyGid e.1).slot else none) ++
    s.crews.flatMap fun e => if e.1 / 16 = core then e.2.parts.map (·.1) else []
def State.freeSlots (s : State) (core : Nat) : List Nat :=
  let u := s.usedSlots core
  (List.range 32).filter fun n => !u.contains n
/-- Group slots that the tentative crews of a core will take. (Log 49: DEDUCED, safe.) -/
def State.tentSlots (s : State) (core : Nat) : Nat :=
  (s.crews.map fun e => if e.1 / 16 = core && e.2.tentative
    then ((tfind s.launches e.2.launch).map fun x => x.task.ngrp).getD 0 else 0).sum
def State.freeCrewSlots (s : State) (core : Nat) : List Nat :=
  (List.range 16).filter fun n => (s.crew? core n).isNone

/-- The test of R76 on crews presented to a core, with the slots they need (R68). -/
def State.admits (s : State) (core : Nat) (cs : List Crew) (nslots : Nat) : Bool :=
  let free := s.freeCrewSlots core
  let rs := s.residents core
  let sum := cs.foldl (fun (a : Claim) (c : Crew) => a.add c.hold) {}
  decide (cs.length ≤ free.length) && decide (nslots + s.tentSlots core ≤ (s.freeSlots core).length) &&
    !((s.engine (clusterIx core)).unusable && cs.any (fun c => c.max.ms != 0)) &&
    sum.le (s.avail core) && s.safe core (rs ++ (List.range cs.length).map fun i => (free.getD i 16, cs.getD i { uid := 0 }))

/-- A crew of a launch as it starts (R63, R71). -/
def crewOfLaunch (id : Nat) (x : Launch) (index uid : Nat) : Crew :=
  let t := x.task
  { uid := uid, launch := id, index := index, asid := x.asid, priv := x.priv, prio := t.prio,
    kcode := t.kcode, argp := t.argp, max := t.max, hold := { rg := t.ngrp * t.gpg, sg := t.scrg },
    tentative := true, seqr := { exists_ := t.max.ms != 0, running := t.max.ms != 0, mpc := t.kcode.setWidth 48 } }

/-! ### Dispatch (R65 to R69) -/

/-- Effective priority (R66). -/
def effPrio (prio age : Nat) : Nat := if age < 64 then prio else 7
/-- The order of R65: priority, age, arrival. -/
def rankLt (a b : Nat × Nat × Nat) : Bool :=
  decide (b.1 < a.1) || (a.1 == b.1 && (decide (b.2.1 < a.2.1) || (a.2.1 == b.2.1 && decide (a.2.2 < b.2.2))))
def insertRank (x : Nat × Nat × Nat) : List (Nat × Nat × Nat) → List (Nat × Nat × Nat)
  | [] => [x]
  | y :: t => if rankLt x y then x :: y :: t else y :: insertRank x t

/-- Whether a launch is eligible on a die (R65). -/
def State.eligible (s : State) (die : Nat) (x : Launch) : Bool :=
  x.valid && decide (x.placed < x.task.nsheaf) && x.code.isNone &&
    !(s.rects (s.partOf x.asid) die x.task.sw x.task.sh).isEmpty
/-- The launches eligible on a die, in order: (priority, age, number). -/
def State.ranked (s : State) (die : Nat) : List (Nat × Nat × Nat) :=
  (s.launches.filterMap fun e =>
    if s.eligible die e.2 then some (effPrio e.2.task.prio e.2.age, e.2.age, e.1) else none).foldr insertRank []

/-- Cores that a reservation of the die keeps from a launch, or from a saved sheaf (R67, R86); the two are
named by identifiers that differ. -/
def State.keptCores (s : State) (die id : Nat) : List Nat :=
  match (s.die die).reservation with
  | some (l, cs) => if l = id then [] else cs
  | none => []

/-- How many dispatchers have a sheaf of a launch in flight. -/
def State.sheafsInFlight (s : State) (id : Nat) : Nat :=
  ((List.range 4).filter fun k => match (s.die k).admission with | some (l, _, _) => l == id | none => false).length

/-- The next rectangle to try in this decision: (launch, top-left core, cores). A sheaf in flight on another
die is left to that die. -/
def State.nextRect (s : State) (die : Nat) : Option (Nat × Nat × List Nat) :=
  (s.ranked die).findSome? fun e =>
    match tfind s.launches e.2.2 with
    | none => none
    | some x =>
      let kept := s.keptCores die e.2.2
      if x.task.nsheaf ≤ x.placed + s.sheafsInFlight e.2.2 then none else
      ((s.rects (s.partOf x.asid) die x.task.sw x.task.sh).find? fun r =>
        !((s.die die).tried.contains (e.2.2, r.1)) && !(r.2.any kept.contains)).map fun r => (e.2.2, r.1, r.2)

/-- A core records a launch's crews as resident, tentatively, if its test passes (R69). `k` is the core's
place in the rectangle. -/
def State.reserve (s : State) (id : Nat) (x : Launch) (core k : Nat) : State × Bool :=
  let t := x.task
  let cs := (List.range t.sk).map fun i => crewOfLaunch id x (k * t.sk + i) (s.nextId + i)
  if s.admits core cs (t.sk * t.ngrp) then
    let free := s.freeCrewSlots core
    ((List.range t.sk).foldl (fun s i => s.putCrew core (free.getD i 16) (cs.getD i { uid := 0 }))
      { s with nextId := s.nextId + t.sk }, true)
  else (s, false)

/-- The next try of a decision: tentative reservations on each core of the rectangle. Where every
rectangle has been tried, the decision begins anew. -/
def State.decide_ (s : State) (die : Nat) : State :=
  match s.nextRect die with
  | none => s.putDie die { s.die die with tried := [] }
  | some (id, t, cs) =>
    match tfind s.launches id with
    | none => s
    | some x =>
      let y := (List.range cs.length).foldl (fun (a : State × Bool) k =>
        let b := a.1.reserve id x (cs.getD k 0) k
        (b.1, a.2 && b.2)) (s, true)
      let d := y.1.die die
      y.1.putDie die { d with admission := some (id, cs, y.2), tried := d.tried ++ [(id, t)] }

/-- Starts a group of a crew in a free slot (R52, R71, R113): every register reads as zero but G0, G1. -/
def State.startGroup (s : State) (core slot : Nat) (c : Crew) (gslot grp gran : Nat) (entry : W32) (arg argp : W64)
    (spawned : Bool) : State :=
  let (uid, s) := s.fresh
  let r : Group := { crew := slot, uid := uid, grp := grp, gran := gran, spawned := spawned }
  let r := r.goto (c.kcode + entry.setWidth 64)
  let s := (s.setG r 0 argp).setG r 1 arg
  s.putGroup { core := core, slot := gslot } r

/-- A tentative crew starts, of the sheaf now placed, with its groups in the lowest free slots (R68, R69, R71).
Its core's view is emptied, as for a continuation (R221). -/
def State.startCrew (s : State) (core slot : Nat) (t : TaskRec) (sheaf : Nat) : State :=
  match s.crew? core slot with
  | none => s
  | some c =>
    let c := { c with tentative := false, sheaf := sheaf }
    let free := s.freeSlots core
    (List.range t.ngrp).foldl (fun s i => s.startGroup core slot c (free.getD i 32) i t.gpg t.entry 0 c.argp false)
      ((s.putCrew core slot c).emptyView core)

/-- The tentative crews of a launch on some cores. -/
def State.tentative (s : State) (id : Nat) (cs : List Nat) : List (Nat × Nat) :=
  s.crews.filterMap fun e =>
    if e.2.tentative && e.2.launch = id && cs.contains (e.1 / 16) then some (e.1 / 16, e.1 % 16) else none

/-- The crews of the sheaf of a saved crew. -/
def State.savedSheaf (s : State) (sv : Saved) : List (Nat × Saved) :=
  s.saved.filter fun e => e.2.crew.launch = sv.crew.launch && e.2.crew.sheaf = sv.crew.sheaf
/-- What names a saved sheaf: the lowest identifier of its crews. -/
def State.sheafId (s : State) (sv : Saved) : Nat := ((s.savedSheaf sv).headD (0, sv)).1
/-- The task of a crew's launch. -/
def State.taskOfCrew (s : State) (c : Crew) : TaskRec := ((tfind s.launches c.launch).map fun x => x.task).getD {}
/-- Whether the partition of a saved sheaf owns a rectangle for it on a die (R65, R86). -/
def State.savedFits (s : State) (die : Nat) (sv : Saved) : Bool :=
  let t := s.taskOfCrew sv.crew
  !(s.rects (s.partOf sv.crew.asid) die t.sw t.sh).isEmpty

/-- A saved sheaf ages as a launch does (R86): one crew of it. -/
def State.savedUp (s : State) (die : Nat) (e : Nat × Saved) : State :=
  if !s.savedFits die e.2 then s
  else
    let age := e.2.age + 1
    if age = 128 then
      let (n, s) := s.fresh
      { s with saved := tput s.saved e.1 { e.2 with age := age, aged := n } }
    else { s with saved := tput s.saved e.1 { e.2 with age := age } }

/-- Ages after a decision that placed a sheaf of launch `id` on a die, or restored one (R66, R86). A launch or a
saved sheaf that reaches 128 is noted. (Log 50: DEDUCED, unsafe.) -/
def State.ageing (s : State) (die id : Nat) : State :=
  let up := fun (s : State) (e : Nat × Launch) =>
    if e.1 = id then { s with launches := tput s.launches id { e.2 with age := 0, aged := 0 } }
    else if s.eligible die e.2 then
      let age := e.2.age + 1
      if age = 128 then
        let (n, s) := s.fresh
        { s with launches := tput s.launches e.1 { e.2 with age := age, aged := n } }
      else { s with launches := tput s.launches e.1 { e.2 with age := age } }
    else s
  let s := s.launches.foldl up s
  s.saved.foldl (fun s e => s.savedUp die e) s

/-- Reservations of cores for a launch or a saved sheaf end on every die: nothing of it is left to place
(R67, log 49: DEDUCED, safe). -/
def State.endReservation (s : State) (id : Nat) : State :=
  { s with dies := s.dies.map fun (e : Nat × Die) => (e.1, { e.2 with
      reservation := e.2.reservation.filter fun x => x.1 != id }) }

/-- ADMISSION_COMMIT (R69): the crews start, and ages change. -/
def execAdmissionCommit (die : Nat) (s : State) : Host.Outcome State Fault Refusal :=
  let d := s.die die
  match d.admission with
  | some (id, cs, true) =>
    match tfind s.launches id with
    | none => .next s
    | some x =>
      if x.code.isSome then .next s
      else
        let s := (s.tentative id cs).foldl (fun s k => s.startCrew k.1 k.2 x.task x.placed) s
        let t := x.task
        let s := { s with launches := tput s.launches id { x with placed := x.placed + 1, crewsLeft := x.crewsLeft + t.sw * t.sh * t.sk } }
        let s := s.putDie die { d with admission := none, tried := [],
                                       reservation := if d.reservation = some (id, cs) then none else d.reservation }
        let s := if x.placed + 1 < t.nsheaf then s else s.endReservation id
        .next (s.ageing die id)
  | _ => .next s

/-- ADMISSION_RELEASE (R69): the tentative holdings return, and deferred requests are tested again. -/
def execAdmissionRelease (die : Nat) (s : State) : Host.Outcome State Fault Refusal :=
  let d := s.die die
  match d.admission with
  | some (id, cs, ok) =>
    let dead := match tfind s.launches id with | some x => x.code.isSome | none => true
    if ok && !dead then .next s
    else
      let ts := s.tentative id cs
      let s := { s with crews := s.crews.filter fun e => !(ts.contains (e.1 / 16, e.1 % 16)) }
      let s := s.putDie die { d with admission := none }
      .next ((sortNat (ts.map (·.1))).foldl State.retest s)
  | none => .next s

/-! ### Completion (R89, R326) -/

/-- Drops a launch that has signalled completion: fences of its queue see it, and its reservation ends. -/
def State.endLaunch (s : State) (id : Nat) : State :=
  ({ s with launches := tdel s.launches id,
            lanes := s.lanes.map fun (e : Nat × Lane) => (e.1, { e.2 with outstanding := e.2.outstanding.filter (· != id) })
            } : State).endReservation id

/-- A completion's write at `va` meets a link error that awaits it (R370). -/
def State.completionLink (s : State) (x : Launch) (va n acc : Nat) (go : Except FRec State) : Except FRec State :=
  if x.linkBad && s.placeLinked noCore x.asid va n acc true then
    .error { code := Code.addrv, acc := acc, asid := x.asid, va := BitVec.ofNat 64 va }
  else go

/-- The future's part of a completion. -/
def State.completeFuture (s : State) (id : Nat) (x : Launch) : State :=
  let part := s.partOf x.asid
  if !x.task.fv then s.endLaunch id
  else
    let r := match x.code with
      | some c => s.workResolve (.launch id) x.asid x.task.futa.toNat 3 c 0
      | none => s.workResolve (.launch id) x.asid x.task.futa.toNat 2 0 0
    match s.completionLink x x.task.futa.toNat 16 Acc.future r with
    | .ok s' => s'.endLaunch id
    | .error fr =>
      if fr.busy then { s with launches := tput s.launches id { x with phase := 2, stall := none } } else
      let s := s.raise part { fr with asid := x.asid, acc := Acc.future }
      if fr.replayable then { s with launches := tput s.launches id { x with
        phase := 2, stall := some (x.asid, fr.va.toNat / 4096), capf := fr.capfPage x.asid } }
      else s.endLaunch id

/-- The write's part, then the future's. (Log 77: DEDUCED, unsafe.) -/
def State.completeWrite (s : State) (id : Nat) (x : Launch) : State :=
  let part := s.partOf x.asid
  if !x.task.cv then s.completeFuture id { x with phase := 2, capf := none }
  else
    let v : Nat := match x.code with
      | some c => 0xFFFFFFFF00000000 + c
      | none => x.task.cmpv.toNat
    match s.completionLink x x.task.cmpa.toNat 8 Acc.store
        (s.homeStore (.launch id) noCore x.asid x.task.cmpa.toNat Acc.store (leBytes 8 v)) with
    | .ok s' => s'.completeFuture id { x with phase := 2, capf := none }
    | .error fr =>
      if fr.busy then { s with launches := tput s.launches id { x with phase := 1, stall := none } } else
      let s := s.raise part { fr with asid := x.asid }
      if fr.replayable then { s with launches := tput s.launches id { x with
        phase := 1, stall := some (x.asid, fr.va.toNat / 4096), capf := fr.capfPage x.asid } }
      else s.completeFuture id { x with phase := 2, capf := none, linkBad := false }

/-- A completion that another party's write held back may go on (R304). -/
def State.completable (s : State) : Option Nat :=
  (s.launches.find? fun e => e.2.phase != 0 && e.2.stall.isNone).map (·.1)

/-- Goes on with a completion from where it stands. -/
def State.completion (s : State) (id : Nat) : State :=
  match tfind s.launches id with
  | none => s
  | some x => if x.phase = 2 then s.completeFuture id { x with stall := none } else s.completeWrite id { x with stall := none }

/-! ### TASK_RECORD_VALIDATION (R64) -/

def execTaskRecordValidation (die : Nat) (s : State) : Host.Outcome State Fault Refusal :=
  let d := s.die die
  match d.arrivals with
  | [] => .next s
  | id :: rest =>
    let s := s.putDie die { d with arrivals := rest }
    match tfind s.launches id with
    | none => .next s
    | some x =>
      let part := s.partOf x.asid
      match s.taskFault part x.words with
      | none =>
        let s := { s with launches := tput s.launches id { x with task := taskOf x.words, valid := true } }
        if x.queue < 64 then
          let l := s.lane x.queue
          .next ((s.putLane x.queue { l with outstanding := l.outstanding ++ [id] }).packetTaken x.queue)
        else .next s
      | some cond =>
        let t := taskOf x.words
        let s := s.taskInv part x.asid cond x.addr
        -- the future is poisoned as by FPOIS with the code 0 (R250), after its replay where it faults (R300)
        let fut := t.fv && t.futa.toNat % 16 == 0
        let s := s.completeFuture id { x with task := { t with fv := fut }, code := some 0, phase := 2 }
        .next (if x.queue < 64 then s.stopQueue x.queue 6 else s)

/-! ### Crews' ends (R89) -/

/-- A crew of the launch is gone: the grid completes once every sheaf is placed, or none may be any more,
and no crew is left. -/
def State.crewGone (s : State) (id : Nat) : State :=
  match tfind s.launches id with
  | none => s
  | some x =>
    let n := x.crewsLeft - 1
    let s := { s with launches := tput s.launches id { x with crewsLeft := n } }
    if n = 0 && (x.placed = x.task.nsheaf || x.code.isSome) then s.completion id else s

/-- A crew leaves its core: its groups, work and requests go with it, its watch and locks with them. -/
def State.removeCrew (s : State) (core slot : Nat) : State :=
  match s.crew? core slot with
  | none => s
  | some c =>
    let s := { s with
      groups := s.groups.filter fun e => !((keyGid e.1).core == core && e.2.crew == slot),
      crews := tdel s.crews (crewKey core slot),
      copies := s.copies.filter fun e => e.2.uid != c.uid,
      ops := s.ops.filter fun e => e.2.uid != c.uid }
    s.modCore core fun x => { x with
      pool := (x.strip c.uid slot).pool, ring := (x.strip c.uid slot).ring, ringR := (x.strip c.uid slot).ringR,
      deferred := (x.strip c.uid slot).deferred,
      test := match x.test with | some (q, b) => if q.crew = slot then none else some (q, b) | none => none,
      sheafHalts := x.sheafHalts.filter (· != slot) }

/-- A crew leaves its core, and its holdings return to the grant unit (R77, R78). -/
def State.dropCrew (s : State) (core slot : Nat) : State :=
  match s.crew? core slot with
  | none => s
  | some _ => (s.removeCrew core slot).retest core

/-! ### Spawning (R80 to R82, R114, R115) -/

/-- SPOVF of a partition (R81): the ring's first byte, and SEGLOG, 0 where it disables the ring. -/
def State.spovf (s : State) (part : Nat) : Nat × Nat :=
  let w := s.partReg part 0
  let l := bitsOf w 4 0
  (bitsOf w 47 12 * 4096, if 4 ≤ l && l ≤ 16 then l else 0)
/-- A core's rank within its partition. -/
def State.coreRank (s : State) (part core : Nat) : Nat := ((List.range core).filter (s.owns part)).length
/-- The address of record `i` of a core's segment. -/
def State.ringSlot (s : State) (part core i : Nat) : Nat :=
  let v := s.spovf part
  v.1 + s.coreRank part core * 64 * 2 ^ v.2 + 64 * (i % 2 ^ v.2)
/-- The partition of a core. -/
def State.partOfCore (s : State) (core : Nat) : Option Nat := (List.range 64).find? fun p => s.owns p core

/-- The bytes of a spawn record (R115). -/
def SpawnRec.bytes (r : SpawnRec) : List Byte :=
  leBytes 4 r.entry.toNat ++ leBytes 4 (r.gran + r.crewSlot * 256) ++ leBytes 8 r.arg.toNat ++ leBytes 8 r.argp.toNat ++
    List.replicate 40 0
/-- The record that 64 bytes give, of the crew `uid`. -/
def SpawnRec.ofBytes (bs : List Byte) (uid : Nat) : SpawnRec :=
  let w := fun o n => leNat ((bs.drop o).take n)
  { entry := BitVec.ofNat 32 (w 0 4), gran := w 4 4 % 16, crewSlot := w 4 4 / 256 % 16, arg := BitVec.ofNat 64 (w 8 8),
    argp := BitVec.ofNat 64 (w 16 8), crewUid := uid }
/-- A record read back from a segment, of the crew `uid`. -/
def State.ringRec (s : State) (part core i uid : Nat) : Except FRec SpawnRec :=
  match s.homeOf noCore (s.fasid part) (s.ringSlot part core i) 64 Acc.spawn false with
  | .error fr => .error fr
  | .ok pa => .ok (SpawnRec.ofBytes (s.bytes pa 64) uid)

/-- What placing a record comes to. -/
inductive Place where
  | ok (s : State)
  /-- A full pool with the ring disabled, or a full segment: SPAWN waits (R82). -/
  | full
  | fault (fr : FRec)

/-- Places a spawn record in the pool, or in the core's segment of the overflow ring (R80, R82). -/
def State.placeSpawn (s : State) (me : Party) (part core : Nat) (rec_ : SpawnRec) : Place :=
  let c := s.core core
  let v := s.spovf part
  if c.pool.length < 64 && c.ring.isEmpty then .ok (s.putCore core { c with pool := c.pool ++ [rec_] })
  else if v.2 = 0 || decide (2 ^ v.2 ≤ (c.ringW - c.ringR).toNat) then .full
  else match s.homeStore me noCore (s.fasid part) (s.ringSlot part core c.ringW.toNat) Acc.spawn rec_.bytes with
    | .error fr => .fault fr
    | .ok s' => .ok (s'.modCore core fun c => { c with ringW := c.ringW + 1, ring := c.ring ++ [(c.ringW.toNat, rec_.crewUid)] })

/-- A slot of the segment that a record would take, where it lies over a link (R302). -/
def State.spawnLinked (s : State) (part core : Nat) : Option Nat :=
  let c := s.core core
  let v := s.spovf part
  let a := s.ringSlot part core c.ringW.toNat
  if (c.pool.length < 64 && c.ring.isEmpty) || v.2 = 0 || decide (2 ^ v.2 ≤ (c.ringW - c.ringR).toNat) then none
  else if s.placeLinked noCore (s.fasid part) a 64 Acc.spawn true then some a else none

def execSpawn (f : Fields) (s : State) : Host.Outcome State Fault Refusal :=
  issue 0 f (shapeSpawn f) s fun s g r =>
    let c := s.crewOf g r
    let k := f.fn.toNat + 1
    if r.isPacked then .fatal { code := Code.repackx }
    else if c.max.rg < k then .fatal { code := Code.claimx }
    else match (if r.linkBad then s.spawnLinked (s.partOf c.asid) g.core else none) with
    | some a => .fatal { code := Code.addrv, acc := Acc.spawn, va := BitVec.ofNat 64 a }
    | none => match s.placeSpawn (.group r.uid) (s.partOf c.asid) g.core { entry := f.i32, crewSlot := r.crew, gran := k, arg := s.gr r f.a.toNat, argp := c.argp, crewUid := c.uid } with
      | .ok s' => .done s' { r.next f with wait := .none }
      | .full => if r.wait = .spawn then .retry else .hold s { r with wait := .spawn }
      | .fault fr => qFault fr

/-- OVERFLOW_RING_MOVE: the oldest record of the segment moves to the pool; void places are passed over. -/
def execOverflowRingMove (core : Nat) (s : State) : Host.Outcome State Fault Refusal :=
  let c := s.core core
  match s.partOfCore core, c.ring with
  | some part, (i, uid) :: rest =>
    if 64 ≤ c.pool.length then .next s
    else match s.ringRec part core i uid with
      | .error _ => .next s
      | .ok rec_ =>
        let s := match s.homeOf noCore (s.fasid part) (s.ringSlot part core i) 64 Acc.spawn false with
          | .ok pa => s.readElsewhere pa 64
          | .error _ => s
        let c := { c with pool := c.pool ++ [rec_], ring := rest, ringR := if rest.isEmpty then c.ringW else BitVec.ofNat 32 (i + 1) }
        .next (s.putCore core c)
  | _, _ => .next s

/-- The lowest group index free in a crew (R113). -/
def State.freeGrp (s : State) (core slot : Nat) (c : Crew) : Nat :=
  let used := (s.crewGroups core slot).filterMap fun e => if e.1.hnd then none else some e.2.grp
  let used := used ++ c.parts.map fun e => e.2.grp
  ((List.range 16).find? fun n => !used.contains n).getD 16
/-- Groups of a crew, as R80 counts them. -/
def State.groupCount (s : State) (core slot : Nat) (c : Crew) : Nat :=
  if c.parts.isEmpty then ((s.crewGroups core slot).filter fun e => !e.1.hnd).length
  else ((s.crewGroups core slot).filter fun e => !e.1.hnd && !e.2.isPacked).length + c.parts.length

/-- SPAWN_RECORD_START (R80): the oldest record of its crew starts, after the waiting RGCLMs that can be served
(R125). -/
def execSpawnRecordStart (core k : Nat) (s : State) : Host.Outcome State Fault Refusal :=
  let co := s.core core
  match co.pool[k]? with
  | none => .next s
  | some rec_ =>
    match s.crewByUid core rec_.crewSlot rec_.crewUid, s.freeSlots core with
    | some c, gs :: _ =>
      if (co.pool.take k).any (fun x => x.crewUid == rec_.crewUid) || c.stop.isSome || c.saving ||
          decide ((s.freeSlots core).length ≤ s.tentSlots core) || decide (16 ≤ s.groupCount core rec_.crewSlot c) ||
          c.rgclmDue || decide (c.free < rec_.gran) then .next s
      else
        let s := s.putCore core { co with pool := co.pool.eraseIdx k }
        let s := s.modCrew core rec_.crewSlot fun c => { c with free := c.free - rec_.gran }
        .next (s.startGroup core rec_.crewSlot c gs (s.freeGrp core rec_.crewSlot c) rec_.gran rec_.entry rec_.arg rec_.argp true)
    | _, _ => .next s

/-! ### CREW_RETIRE (R89) -/

/-- Whether a crew has nothing left to run: no group, no spawn record, no copy, no operation. -/
def State.retirable (s : State) (core slot : Nat) (c : Crew) : Bool :=
  let co := s.core core
  !(c.tentative || c.stop.isSome || !(s.crewGroups core slot).isEmpty || !c.parts.isEmpty ||
    (co.pool.any fun r => r.crewUid == c.uid) || (co.ring.any fun r => r.2 == c.uid) ||
    (s.copies.any fun e => e.2.uid == c.uid) || s.ops.any fun e => e.2.uid == c.uid)

def execCrewRetire (core slot : Nat) (s : State) : Host.Outcome State Fault Refusal :=
  match s.crew? core slot with
  | none => .next s
  | some c => if s.retirable core slot c then .next ((s.dropCrew core slot).crewGone c.launch) else .next s

end Sys2Proof.Machine
end

