-- ==== Sys2Proof/Machine/Frame.lean ====
section
/-! DEFINITION. The bytes of saved groups, stacks, barriers, scratch and silo, as a dump and a context frame
hold them (R329, R332), and what a restore reads from a frame (R333). -/

namespace Sys2Proof.Machine

/-- A stack entry's 16 bytes (R101). -/
def SEntry.bytes (e : SEntry) : List Byte :=
  leBytes 16 (e.exec.toNat + e.els.toNat * 2 ^ 32 + e.rejoin.toNat * 2 ^ 64 + e.elseDone.toNat * 2 ^ 110 +
    e.isSealed.toNat * 2 ^ 111 + e.fmt.toNat * 2 ^ 112)

/-- The entry that 16 bytes give. -/
def SEntry.ofBytes (bs : List Byte) : SEntry :=
  let x := BitVec.ofNat 128 (leNat bs)
  { exec := x.extractLsb' 0 32, els := x.extractLsb' 32 32, rejoin := x.extractLsb' 64 46, elseDone := x.getLsbD 110,
    isSealed := x.getLsbD 111, fmt := x.extractLsb' 112 16 }

/-- The head of a group's record, up to Q0 to Q15: 34 bytes. -/
def Group.head (r : Group) (slot flags : Nat) : List Byte :=
  leBytes 8 r.pc.toNat ++ [BitVec.ofNat 8 slot, BitVec.ofNat 8 r.grp, BitVec.ofNat 8 r.gran, BitVec.ofNat 8 r.depth,
    BitVec.ofNat 8 r.skid, BitVec.ofNat 8 flags, 0, 0] ++ leBytes 4 r.exec.toNat ++ leBytes 4 r.live.toNat ++
    leBytes 4 r.hlp.toNat ++ leBytes 2 r.fmt.toNat ++ [r.ccByte, 0] ++ leBytes 2 r.q.toNat

/-- G0 to G63, P0 to P127, `%fpx`: 1,152 bytes. -/
def State.fixedRegs (s : State) (r : Group) : List Byte :=
  ((List.range 64).flatMap fun n => leBytes 8 (s.gr r n).toNat) ++
    ((List.range 128).flatMap fun n => leBytes 4 (laneMask (allLanes.filter fun l => s.p r n l)).toNat) ++
    (allLanes.flatMap fun l => leBytes 4 (s.fpxOf r l).toNat)

/-- A group record of section 1 of a dump: the group's own registers and its lanes' home rows. -/
def State.groupRecord (s : State) (slot flags : Nat) (r : Group) : List Byte :=
  r.head slot flags ++ List.replicate 94 0 ++ s.fixedRegs r ++
    ((List.range (32 * r.gran)).flatMap fun n => allLanes.flatMap fun l => leBytes 4 (s.v r n l).toNat)

/-- A group's divergence stack; entries at or above Depth are zero. -/
def Group.stackBytes (r : Group) : List Byte :=
  (List.range 16).flatMap fun i => (if i < r.depth then r.stack.getD i {} else {}).bytes

/-- B0 to B15 and SQS: 272 bytes. -/
def Crew.barBytes (c : Crew) : List Byte :=
  ((List.range 16).flatMap fun n => let b := c.bar n; leBytes 8 b.word.toNat ++ leBytes 2 b.amask.toNat ++ List.replicate 6 0) ++
    leBytes 2 (c.sqsDepth + c.sqsBase * 16) ++ List.replicate 14 0

/-- A block of 384 silo rows of a crew. -/
def State.siloBlock (s : State) (uid b : Nat) : List Byte :=
  let row := fun i => 384 * b + i
  (List.range 64).map (fun j => BitVec.ofNat 8 ((List.range 8).foldl (fun a i =>
    a + if 8 * j + i < 384 && tget false s.poison (uid * 2048 + row (8 * j + i)) then 2 ^ i else 0) 0)) ++
    (List.range 384).flatMap fun i => (List.range 128).flatMap fun k => leBytes 4 (tget 0 s.silo (siloKey uid (row i) k)).toNat

/-! ### Frames (R331, R332) -/

/-- A piece of a chain: bytes; bytes that are not written; the way to the next multiple of 64. -/
inductive Piece where
  | bytes (bs : List Byte)
  | skip (n : Nat)
  | align
  deriving DecidableEq, Repr

/-- Bytes of a frame behind its header. -/
def framePayload : Nat := 2097152 - 128
/-- `n` rounded up to a multiple of 64. -/
def align64 (n : Nat) : Nat := (n + 63) / 64 * 64

/-- The place of byte `off` of a chain, a physical address; none beyond its frames. -/
def framePlace (fs : List Nat) (off : Nat) : Option Nat :=
  (fs[off / framePayload]?).map fun a => a + 128 + off % framePayload

/-- `n` bytes of a part that holds the values given, in the device's own layout (log 15: DESIGN CHOICE, unsafe). -/
def laidOut (part n : Nat) (vals : List Nat) : List Byte := (List.range n).map (Config.frameLayout part vals)
/-- The values of such a part, as a restore reads its bytes: those that were written, where the bytes are what they
were laid out as (log 15: DESIGN CHOICE, unsafe). -/
def readBack (part : Nat) (bs : List Byte) (vals : List Nat) : List Nat :=
  if bs = laidOut part bs.length vals then vals else (List.range vals.length).map (Config.frameRead part bs)

/-- The bytes to write, by offset in the chain; those of the padding are free, numbered from `ctr`. -/
def pieceCells : List Piece → Nat → Nat → List (Nat × Byte)
  | [], _, _ => []
  | .bytes bs :: t, off, ctr => ((List.range bs.length).map fun i => (off + i, bs.getD i 0)) ++ pieceCells t (off + bs.length) ctr
  | .skip n :: t, off, ctr => pieceCells t (off + n) ctr
  | .align :: t, off, ctr =>
    ((List.range (align64 off - off)).map fun i => (off + i, (Config.freeValue (ctr + i)).setWidth 8)) ++
      pieceCells t (align64 off) (ctr + (align64 off - off))

/-- The group records of a saved crew, by slot: the group that issues there, then a parked participant (true).
(Log 52: DEDUCED, unsafe.) -/
def Saved.records (sv : Saved) : List (Nat × Bool × Group) :=
  (List.range 32).flatMap fun k =>
    ((sv.groups.filter fun e => e.1 = k).map fun e => (k, false, e.2)) ++
    (sv.crew.parts.filter fun e => e.1 = k).map fun e => (k, true, e.2)

/-- What a saved group waits in: its kind, and the index it names. -/
def Wait.vals : Wait → List Nat
  | .bar uid n par st => [1, uid, n, par.toNat, st.toNat]
  | .repack n v => [2, n, v]
  | .unpack n => [3, n]
  | .grant => [4]
  | .qpop i _ => 5 :: i.toList
  | .qpush i _ _ => [6, i]
  | .spawn => [7]
  | .remote _ kind _ width _ => [8, kind, width]
  | .thresh timed => [9, timed.toNat]
  | .future ls => 10 :: ls.length :: ls
  | .page asid vpn => [11, asid, vpn]
  | .rgclm n => [12, n]
  | _ => [0]
/-- A wait with what a frame gives of it; its kind is that of the instruction at the group's PC. -/
def Wait.ofVals (w : Wait) (vs : List Nat) : Wait :=
  let v := fun i => vs.getD i 0
  match w with
  | .bar _ _ _ _ => .bar (v 1) (v 2) (v 3 != 0) (v 4 != 0)
  | .repack _ _ => .repack (v 1) (v 2)
  | .unpack _ => .unpack (v 1)
  | .qpop i _ => .qpop (i.map fun _ => v 1) []
  | .qpush _ _ _ => .qpush (v 1) [] []
  | .remote p _ a _ o => .remote p (v 1) a (v 2) o
  | .thresh _ => .thresh (v 1 != 0)
  | .future _ => .future ((vs.drop 2).take (v 1))
  | .page _ _ => .page (v 1) (v 2)
  | .rgclm _ => .rgclm (v 1)
  | w => w
/-- A group's part of its crew's wake condition (R332): what it waits in, and the operands that give the address and the
value. -/
def State.wakeVals (s : State) (slot : Nat) (r : Group) : List Nat :=
  slot :: r.wait.vals ++ if r.wait = .none then [] else
    (s.gr r r.ins.a.toNat).toNat :: allLanes.flatMap fun l =>
      [(s.src64 r false r.ins.ka r.ins.a l).toNat, (s.src64 r false r.ins.kc r.ins.c l).toNat]

/-- The rest of a group's header: what it waits in, and its SEALED bits. -/
def Group.waitVals (r : Group) : List Nat := r.wait.vals ++ (r.stack.take r.depth).map fun e => e.isSealed.toNat

/-- A group's record: its vector registers stand per granule, a format block before 32 slots in the forms of
R147. Where in the rest of its header SEALED bits and the index it waits on stand is open. -/
def State.recordPieces (s : State) (slot : Nat) (part : Bool) (r : Group) : List Piece :=
  let flags := if part then 2 else (if r.traps.isEmpty then 0 else 2) + (match r.kind with | .packed _ _ => 4 | _ => 0)
  .bytes (r.head slot flags) :: .bytes (laidOut 4 94 r.waitVals) ::
    .bytes (s.fixedRegs r) :: (List.range r.gran).flatMap fun q =>
    let forms := (List.range 32).map fun n => spillForm (allLanes.map fun l => s.v r (32 * q + n) l)
    .bytes (forms.map (fun x => BitVec.ofNat 8 x.1) ++ List.replicate 32 0) ::
      forms.flatMap fun x => [.bytes x.2, .skip (128 - x.2.length)]

/-- Bytes that the manual names and gives no size: the barriers' owed members, participant records, the
sequencer's state and kept entries. -/
def Saved.owed (sv : Saved) : Nat := Config.frameBytes 0 * sv.copies.length
def Saved.partBytes (sv : Saved) : Nat := Config.frameBytes 1 * sv.crew.parts.length
def Saved.seqBytes (sv : Saved) : Nat :=
  (if sv.crew.seqr.exists_ then Config.frameBytes 2 else 0) + Config.frameBytes 3 * sv.ops.length

/-- Members of barriers that copies owe (R332). -/
def Saved.owedVals (sv : Saved) : List Nat := sv.copies.filterMap fun e => e.2.bar
/-- A participant's record (R105): its lanes' homes stand with the new groups. -/
def Group.partVals (r : Group) : List Nat :=
  [r.exec.toNat, r.fmt.toNat, r.depth, r.q.toNat, r.cc.toNat] ++ (List.range 16).map fun i => leNat (r.stack.getD i {}).bytes
def Group.ofPartVals (r : Group) (vs : List Nat) : Group :=
  let v := fun i => vs.getD i 0
  { r with exec := BitVec.ofNat 32 (v 0), fmt := BitVec.ofNat 16 (v 1), depth := min 16 (v 2), q := BitVec.ofNat 16 (v 3),
           cc := BitVec.ofNat 4 (v 4), stack := (List.range 16).map fun i => SEntry.ofBytes (leBytes 16 (v (5 + i))) }
/-- The home threads of a group's lanes. -/
def Group.homeVals (r : Group) : List Nat := r.homes.flatMap fun h => [h.1, h.2]
def Group.ofHomeVals (r : Group) (vs : List Nat) : Group :=
  { r with homes := (List.range r.homes.length).map fun i => (vs.getD (2 * i) 0, vs.getD (2 * i + 1) 0) }
/-- The sequencer's state (R174). -/
def Seqr.vals (q : Seqr) : List Nat :=
  [q.running.toNat, q.halted.toNat, q.mpc.toNat, q.mcc.toNat, q.mfmt.toNat, q.mgrp.toNat, q.sticky.toNat] ++
    (List.range 16).map fun i => (q.m.getD i 0).toNat
def Seqr.ofVals (q : Seqr) (vs : List Nat) : Seqr :=
  let v := fun i => vs.getD i 0
  { q with running := v 0 != 0, halted := v 1 != 0, mpc := BitVec.ofNat 48 (v 2), mcc := BitVec.ofNat 4 (v 3),
           mfmt := BitVec.ofNat 16 (v 4), mgrp := BitVec.ofNat 16 (v 5), sticky := BitVec.ofNat 9 (v 6),
           m := (List.range 16).map fun i => BitVec.ofNat 64 (v (7 + i)) }
/-- The fields that an instruction's two words give. -/
def fieldsOfWords (f : Fields) (base ext : Nat) : Fields :=
  let w := base + 2 ^ 64 * ext
  match lenOf w, guardOf w with
  | some len, some g => fieldsOf w len g
  | _, _ => f
/-- A kept entry of the reservation table (R184): its instruction's words, what posting captured, and its segment. -/
def Op.vals (o : Op) : List Nat :=
  [o.pc.toNat, o.kind, o.fields.base (if o.kind = 6 then 0xC5 else 0xC0 + o.kind), o.fields.imm.toNat, o.mfmt.toNat, o.pos] ++
    o.ops.map (·.toNat)
def Op.ofVals (o : Op) (vs : List Nat) : Op :=
  let v := fun i => vs.getD i 0
  { o with pc := BitVec.ofNat 48 (v 0), kind := v 1, fields := fieldsOfWords o.fields (v 2) (v 3), mfmt := BitVec.ofNat 16 (v 4),
           pos := v 5, ops := (List.range o.ops.length).map fun i => BitVec.ofNat 64 (v (6 + i)) }
/-- A copy's progress record (R332): its instruction's words and operands, the map of the beats that remain, its barrier
and future. -/
def Copy.vals (c : Copy) : List Nat :=
  [c.pc.toNat, c.kind, c.fields.base (0x90 + c.kind), c.fields.imm.toNat,
    ((List.range c.n).map fun k => if c.did.contains k then 0 else 2 ^ k).sum, c.bar.getD 0, c.fut.getD 0] ++ c.ops.map (·.toNat)
def Copy.ofVals (c : Copy) (vs : List Nat) : Copy :=
  let v := fun i => vs.getD i 0
  { c with pc := BitVec.ofNat 48 (v 0), kind := v 1, fields := fieldsOfWords c.fields (v 2) (v 3),
           did := (List.range c.n).filter fun k => !(v 4).testBit k, bar := c.bar.map fun _ => v 5, fut := c.fut.map fun _ => v 6,
           ops := (List.range c.ops.length).map fun i => BitVec.ofNat 64 (v (7 + i)) }

/-- Where the parts of a saved crew begin: the stacks, the barriers, the participants' records, the sequencer's state,
scratch, the silo, the spawn records, the copies. -/
def Saved.atStacks (sv : Saved) : Nat := (sv.records.map fun e => 1280 + 4160 * e.2.2.gran).sum
def Saved.atBars (sv : Saved) : Nat := sv.atStacks + 256 * sv.records.length
def Saved.atParts (sv : Saved) : Nat := align64 (sv.atBars + 272 + sv.owed)
def Saved.atSeqr (sv : Saved) : Nat := align64 (sv.atParts + sv.partBytes)
def Saved.atScratch (sv : Saved) : Nat := align64 (sv.atSeqr + sv.seqBytes)
def Saved.atSilo (sv : Saved) : Nat := sv.atScratch + 16384 * sv.crew.hold.sg
def Saved.atSpawns (sv : Saved) : Nat := sv.atSilo + sv.crew.hold.ms * (64 + 384 * 512)
def Saved.atCopies (sv : Saved) : Nat := sv.atSpawns + 64 * sv.spawns.length
/-- Bytes of a saved crew's parts. -/
def Saved.size (sv : Saved) : Nat := sv.atCopies + 64 * sv.copies.length

/-- The values of the participants' part: their records, then the homes of the new groups' lanes. -/
def Saved.partVals (sv : Saved) : List Nat :=
  sv.crew.parts.flatMap (fun e => e.1 :: e.2.partVals) ++ sv.groups.flatMap fun e => e.2.homeVals
/-- The values of the sequencer's part: its state, then the kept entries. -/
def Saved.seqVals (sv : Saved) : List Nat := sv.crew.seqr.vals ++ sv.ops.flatMap fun e => e.2.vals

/-- The parts of a saved crew, in order (R332). -/
def State.framePieces (s : State) (sv : Saved) : List Piece :=
  sv.records.flatMap (fun e => s.recordPieces e.1 e.2.1 e.2.2) ++
  sv.records.map (fun e => .bytes e.2.2.stackBytes) ++
  [.bytes sv.crew.barBytes, .bytes (laidOut 1 sv.owed sv.owedVals), .align,
    .bytes (laidOut 2 sv.partBytes sv.partVals), .align, .bytes (laidOut 3 sv.seqBytes sv.seqVals), .align,
    .bytes (s.sbytes sv.crew.uid 0 (sv.crew.hold.sg * 16384))] ++
  (List.range sv.crew.hold.ms).map (fun b => .bytes (s.siloBlock sv.crew.uid b)) ++
  sv.spawns.map (fun r => .bytes r.bytes) ++ sv.copies.map (fun e => .bytes (laidOut 5 64 e.2.vals))

/-- The values of frame `j`'s header (R332): the ASID, the launch's PRIO, HENT, HARG, FENT and FARG; the next frame of
the chain or 0; SW, SH, SK and the sheaf position; where each part begins; the links of the sheaf's chains; the wake
condition. -/
def State.headVals (s : State) (sv : Saved) (j : Nat) : List Nat :=
  let c := sv.crew
  let t := s.taskOfCrew c
  [c.asid, c.prio, c.hent.toNat, c.harg.toNat, c.fent.toNat, c.farg.toNat, sv.frames.getD (j + 1) 0] ++
    [t.sw, t.sh, t.sk, c.launch, c.sheaf, c.index] ++
    [sv.atStacks, sv.atBars, sv.atParts, sv.atSeqr, sv.atScratch, sv.atSilo, sv.atSpawns, sv.atCopies, sv.size] ++
    sv.links ++ sv.groups.flatMap fun e => s.wakeVals e.1 e.2
/-- The crew as a header gives it. -/
def Crew.ofHead (c : Crew) (vs : List Nat) : Crew :=
  let v := fun i => vs.getD i 0
  { c with asid := v 0, prio := v 1, hent := BitVec.ofNat 32 (v 2), harg := BitVec.ofNat 64 (v 3), fent := BitVec.ofNat 32 (v 4),
           farg := BitVec.ofNat 64 (v 5) }

/-- Writes a saved crew into its frames, each behind its header of 128 bytes. -/
def State.writeFrames (s : State) (sv : Saved) : State :=
  let heads := sv.frames.flatMap fun a => (List.range 128).map fun i => a + i
  let n := heads.length
  let bytes := (List.range sv.frames.length).flatMap fun j => laidOut 0 128 (s.headVals sv j)
  let cells := (pieceCells (s.framePieces sv) 0 s.freeCtr).filterMap fun e =>
    (framePlace sv.frames e.1).map fun a => (s.home a, e.2)
  { s.storeCells (((List.range n).map fun i => (s.home (heads.getD i 0), bytes.getD i 0)) ++ cells) with freeCtr := s.freeCtr + sv.size }

/-! ### What a restore reads (R333) -/

/-- Bytes of a chain. -/
def State.frameBytes (s : State) (fs : List Nat) (off n : Nat) : List Byte :=
  (List.range n).map fun i => ((framePlace fs (off + i)).map fun a => s.byte (s.home a)).getD 0
/-- A frame's header. -/
def State.frameHead (s : State) (a : Nat) : List Byte := (List.range 128).map fun i => s.byte (s.home (a + i))
/-- What a restore reads of the header of frame `j` of a saved crew, which stands at `a`. -/
def State.headRead (s : State) (sv : Saved) (j a : Nat) : List Nat := readBack 0 (s.frameHead a) (s.headVals sv j)
/-- The chain of a saved crew: each header names the next frame. -/
def State.chainOf (s : State) (sv : Saved) : List Nat :=
  (List.range (sv.frames.length - 1)).foldl (fun fs j => fs ++ [(s.headRead sv j (fs.getLastD 0)).getD 6 0])
    (sv.frames.take 1)
/-- What it reads of a part of the chain whose layout is the device's own. -/
def State.partRead (s : State) (sv : Saved) (part off n : Nat) (vals : List Nat) : List Nat :=
  readBack part (s.frameBytes sv.frames off n) vals

/-- Where a group's record begins, and which it is. -/
def Saved.recordAt (sv : Saved) (slot : Nat) (part : Bool) : Nat × Nat :=
  let before := sv.records.takeWhile fun e => !(e.1 == slot && e.2.1 == part)
  ((before.map fun e => 1280 + 4160 * e.2.2.gran).sum, before.length)

/-- Whether every format byte is one of R147's. -/
def State.formatsOk (s : State) (sv : Saved) : Bool :=
  sv.records.all fun e => (List.range e.2.2.gran).all fun q =>
    (s.frameBytes sv.frames ((sv.recordAt e.1 e.2.1).1 + 1280 + 4160 * q) 32).all fun b => decide (b.toNat < 3)

/-- A group as its record gives it. -/
def State.rebuildGroup (s : State) (sv : Saved) (slot : Nat) (part : Bool) (r : Group) : Group :=
  let x := sv.recordAt slot part
  let w := fun o n => leNat (s.frameBytes sv.frames (x.1 + o) n)
  { r with wait := r.wait.ofVals (s.partRead sv 4 (x.1 + 34) 94 r.waitVals),
           pc := BitVec.ofNat 48 (w 0 8), grp := w 9 1, gran := w 10 1, depth := min 16 (w 11 1), exec := BitVec.ofNat 32 (w 16 4),
           live := BitVec.ofNat 32 (w 20 4), hlp := BitVec.ofNat 32 (w 24 4), fmt := BitVec.ofNat 16 (w 28 2),
           cc := BitVec.ofNat 4 (w 30 1), q := BitVec.ofNat 16 (w 32 2),
           stack := (List.range 16).map fun i =>
             SEntry.ofBytes (s.frameBytes sv.frames (sv.atStacks + 256 * x.2 + 16 * i) 16) }

/-- The registers of a group's record. -/
def State.rebuildRegs (s : State) (sv : Saved) (e : Nat × Bool × Group) : State :=
  let r := e.2.2
  let at_ := (sv.recordAt e.1 e.2.1).1
  let w := fun o n => leNat (s.frameBytes sv.frames (at_ + o) n)
  let s1 := (List.range 64).foldl (fun (t : State) n => t.setG r n (BitVec.ofNat 64 (w (128 + 8 * n) 8))) s
  let s2 := (List.range 128).foldl (fun (t : State) n =>
    let m := BitVec.ofNat 32 (w (640 + 4 * n) 4)
    allLanes.foldl (fun (t : State) l => t.setP r n l (m.getLsbD l)) t) s1
  let s3 := allLanes.foldl (fun (t : State) l => t.setFpx r l (BitVec.ofNat 32 (w (1152 + 4 * l) 4))) s2
  (List.range (32 * r.gran)).foldl (fun (t : State) n =>
    let o := 1280 + 4160 * (n / 32)
    let fb := w (o + n % 32) 1
    let xs := unspill fb (s.frameBytes sv.frames (at_ + o + 64 + 128 * (n % 32)) ((spillLen fb).getD 128))
    allLanes.foldl (fun (t : State) l => t.setV r n l (xs.getD l 0)) t) s3

/-- A barrier as its 16 bytes give it. -/
def Bar.ofBytes (b : Bar) (bs : List Byte) : Bar :=
  let x := BitVec.ofNat 128 (leNat bs)
  { b with exp := (x.extractLsb' 0 12).toNat, arr := (x.extractLsb' 12 12).toNat, shf := x.getLsbD 29, init := x.getLsbD 30,
           phase := x.getLsbD 31, pend := x.extractLsb' 32 32, amask := x.extractLsb' 64 16 }

/-- The silo rows of a block. -/
def State.rebuildSilo (s : State) (sv : Saved) (b : Nat) : State :=
  let o := sv.atSilo + b * (64 + 384 * 512)
  let uid := sv.crew.uid
  (List.range 384).foldl (fun (t : State) i =>
    let m := (s.frameBytes sv.frames (o + i / 8) 1).headD 0
    { t with poison := tset false t.poison (uid * 2048 + 384 * b + i) (m.getLsbD (i % 8)),
             silo := tsetMany 0 t.silo ((List.range 128).map fun k => (siloKey uid (384 * b + i) k,
               BitVec.ofNat 32 (leNat (s.frameBytes sv.frames (o + 64 + 512 * i + 4 * k) 4)))) }) s

/-- The crew as its frames give it: the header, the groups' records and stacks, the barriers, the participants'
records and the homes of the new groups' lanes, the sequencer's state and the kept entries, scratch, silo, spawn
records, the copies' progress records. -/
def State.rebuild (s : State) (sv : Saved) : State × Saved :=
  let sv := { sv with frames := s.chainOf sv }
  let c := sv.crew.ofHead (s.headRead sv 0 (sv.frames.headD 0))
  let pv := s.partRead sv 2 sv.atParts sv.partBytes sv.partVals
  let homes := pv.drop (22 * c.parts.length)
  let qv := s.partRead sv 3 sv.atSeqr sv.seqBytes sv.seqVals
  let sqs := leNat (s.frameBytes sv.frames (sv.atBars + 256) 2)
  let c' := { c with
    parts := (List.range c.parts.length).filterMap fun i => (c.parts[i]?).map fun (e : Nat × Group) =>
      (pv.getD (22 * i) 0, (s.rebuildGroup sv e.1 true e.2).ofPartVals (pv.drop (22 * i + 1)))
    seqr := c.seqr.ofVals qv
    bars := (List.range 16).map fun n => (c.bar n).ofBytes (s.frameBytes sv.frames (sv.atBars + 16 * n) 16)
    sqsDepth := sqs % 16, sqsBase := sqs / 16 % 16 }
  let groups := (List.range sv.groups.length).filterMap fun i => (sv.groups[i]?).map fun (e : Nat × Group) =>
    (e.1, (s.rebuildGroup sv e.1 false e.2).ofHomeVals
      (homes.drop (2 * ((sv.groups.take i).map fun x => x.2.homes.length).sum)))
  let ops := (List.range sv.ops.length).filterMap fun i => (sv.ops[i]?).map fun (e : Nat × Op) =>
    (e.1, e.2.ofVals (qv.drop (23 + ((sv.ops.take i).map fun x => x.2.vals.length).sum)))
  let copies := (List.range sv.copies.length).filterMap fun i => (sv.copies[i]?).map fun (e : Nat × Copy) =>
    (e.1, e.2.ofVals (s.partRead sv 5 (sv.atCopies + 64 * i) 64 e.2.vals))
  let s1 := sv.records.foldl (fun (t : State) e => t.rebuildRegs sv e) s
  let s2 := s1.sstore c.uid 0 (s.frameBytes sv.frames sv.atScratch (c.hold.sg * 16384))
  ((List.range c.hold.ms).foldl (fun (t : State) b => t.rebuildSilo sv b) s2, { sv with
    crew := c', groups := groups, ops := ops, copies := copies,
    spawns := (List.range sv.spawns.length).map fun i => SpawnRec.ofBytes (s.frameBytes sv.frames (sv.atSpawns + 64 * i) 64) c.uid })

end Sys2Proof.Machine
end

