-- ==== Sys2Proof/Machine/Lattice.lean ====
section
/-! DEFINITION. Lattice regions: registration (R253 to R256), types, orders and joins (R257, R258), the
exchange between replicas (R259 to R262), and JST, MST, TLD, TLDT, LPEEK, LJOIN, LCMP, LSYNC (R266 to
R273). A cell's value is its bytes read as a natural. -/

namespace Sys2Proof.Machine

/-! ### Orders and joins (R257, R258) -/

/-- Fkey of an F32 encoding that is no NaN. -/
def fkey (x : Nat) : Nat := if x < 2 ^ 31 then x + 2 ^ 31 else 2 ^ 32 - 1 - x
/-- A 32-bit natural as INT32, moved up by 2^31: the order of the signed values. -/
def ikey (x : Nat) : Nat := if x < 2 ^ 31 then x + 2 ^ 31 else x - 2 ^ 31
/-- Slot d of a GCNT cell. -/
def slotOf (x d : Nat) : Nat := x / 2 ^ (32 * d) % 2 ^ 32
def ofSlots (f : Nat → Nat) : Nat := f 0 + f 1 * 2 ^ 32 + f 2 * 2 ^ 64 + f 3 * 2 ^ 96
/-- The value of a GCNT cell. -/
def slotSum (x : Nat) : Nat := slotOf x 0 + slotOf x 1 + slotOf x 2 + slotOf x 3

/-- Leq_T. -/
def latLeq (typ a b : Nat) : Bool :=
  match typ with
  | 2 => decide (ikey a ≤ ikey b)
  | 3 => decide (b ≤ a)
  | 4 => decide (ikey b ≤ ikey a)
  | 5 => a ||| b == b
  | 8 => decide (fkey a ≤ fkey b)
  | 9 => (List.range 4).all fun d => decide (slotOf a d ≤ slotOf b d)
  | _ => decide (a ≤ b)

/-- Join_T. -/
def latJoin (typ a b : Nat) : Nat :=
  match typ with
  | 5 => a ||| b
  | 9 => ofSlots fun d => max (slotOf a d) (slotOf b d)
  | _ => if latLeq typ a b then b else a

/-- A NaN under MAXF32. -/
def latNan (typ x : Nat) : Bool := typ == 8 && (f32of (BitVec.ofNat 32 x)).isNan

/-! ### Joins of cells (R259) -/

/-- A key of a die's line or byte. -/
def dieKey (die n : Nat) : Nat := die * 2 ^ 40 + n
/-- The other dies. -/
def otherDies (die : Nat) : BitVec 4 := setBit (0xF : BitVec 4) die false
def Region.cell (x : Region) (die off n : Nat) : Nat := leNat (x.bytes die off n)

/-- A join step's write of one cell: the touched line is owed to every other die, whose replicas lack it. -/
def Region.joined (x : Region) (die off n v : Nat) : Region :=
  let k := dieKey die (off / 64)
  let y := x.setBytes die off (leBytes n v)
  { y with owed := tset 0 y.owed k (otherDies die), lacks := tset 0 y.lacks k (otherDies die) }

/-- The partner of a die in a phase (R260). -/
def partner (phase die : Nat) : Nat := die ^^^ (phase % 3 + 1)

/-- The line's cells joined with the sender's (R222). -/
def Region.exchangeCells (x : Region) (src dst line : Nat) : Region :=
  let n := cellBytes x.typ
  (List.range (64 / n)).foldl (fun x i =>
    let o := 64 * line + n * i
    x.setBytes dst o (leBytes n (latJoin x.typ (x.cell dst o n) (x.cell src o n)))) x

/-- The receiver's incorporated set gains the sender's, for every die's joins on the line. -/
def Region.gain (x : Region) (src dst line : Nat) : Region :=
  (List.range 4).foldl (fun x o =>
    let m := tget 0 x.lacks (dieKey o line)
    if m.getLsbD src then x else { x with lacks := tset 0 x.lacks (dieKey o line) (setBit m dst false) }) x

/-- The waits of LSYNC see an exchange of a line: a replica that receives from one which has the joins
has them too. -/
def State.syncGain (s : State) (desc src dst line : Nat) : State :=
  let one := fun (e : Nat × Nat × BitVec 4) =>
    if e.1 = desc && e.2.1 = line && !e.2.2.getLsbD src then (desc, line, setBit e.2.2 dst false) else e
  { s with groups := s.groups.map fun (e : Nat × Group) => match e.2.wait with
      | .lsync l => (e.1, { e.2 with wait := .lsync (l.map one) })
      | _ => e }

/-- EXCHANGE (R222, R260): the Gleaner of `src` sends a line owed to its partner of the phase. -/
def execExchange (desc src line : Nat) (s : State) : Host.Outcome State Fault Refusal :=
  match tfind s.regions desc with
  | none => .next s
  | some x =>
    let dst := partner x.phase src
    let k := dieKey src line
    let m := tget 0 x.owed k
    if !m.getLsbD dst then .next s
    else
      let y := (x.exchangeCells src dst line).gain src dst line
      let y := { y with owed := tset 0 y.owed k (setBit m dst false), due := tset false y.due k false,
                        released := tset false y.released (dieKey dst line)
                          (tget false y.released (dieKey dst line) || tget false y.released k) }
      .next (({ s with regions := tput s.regions desc y } : State).syncGain desc src dst line)

/-! ### Registration (R253 to R256) -/

/-- LDESC's words. -/
def ldescOff (desc k : Nat) : Nat := 0x3800 + 16 * desc + 8 * k
/-- A LATDESC record (R254, R316). -/
def State.latDesc (s : State) (desc asid cond : Nat) : State :=
  s.raise (s.partOf asid) { code := Code.latdesc, asid := asid, b2c := BitVec.ofNat 32 desc, b30 := BitVec.ofNat 64 cond }

/-- The pages of the lattice store in use: (first, number). (Log 22: DESIGN CHOICE, unsafe.) -/
def State.latRuns (s : State) : List (Nat × Nat) := s.regions.flatMap fun e => e.2.runs.map fun p => (p, e.2.lines / 64)
/-- The first free run of `n` pages among `used`, out of `total`: it starts at 0 or where a run ends. -/
def freeRun (total n : Nat) (used : List (Nat × Nat)) : Option Nat :=
  (sortNat (0 :: used.map fun u => u.1 + u.2)).find? fun p =>
    decide (p + n ≤ total) && used.all fun u => decide (u.1 + u.2 ≤ p) || decide (p + n ≤ u.1)
/-- Runs for `k` replicas; none where one does not fit. Log 22. -/
def freeRuns (total n : Nat) : Nat → List (Nat × Nat) → Option (List Nat)
  | 0, _ => some []
  | k + 1, used => match freeRun total n used with
    | none => none
    | some p => (freeRuns total n k ((p, n) :: used)).map (p :: ·)

/-- A registered word 0 without its reserved bits. -/
def ldescMask : W64 := 0x8FFFFFFFFFFFF00F

/-- REGION_REGISTRATION: word 0 is written with EN = 1 (R254); a word without it registers nothing. A refused
registration stores the word's other fields (log 115: DESIGN CHOICE, unsafe); STRETCH keeps the count of the
descriptor's last region (log 116: DESIGN CHOICE, unsafe). -/
def execRegionRegistration (desc : Nat) (w : W64) (s : State) : Host.Outcome State Fault Refusal :=
  if 64 ≤ desc || !bitOf w 63 then .next s
  else match tfind s.regions desc with
  | some x => .next (s.latDesc desc x.asid 5)
  | none =>
    let asid := bitsOf w 59 48
    let base := bitsOf w 47 12 * 4096
    let typ := bitsOf w 3 0
    let n := bitsOf (s.ctlw (ldescOff desc 1)) 18 0
    let refuse := fun c => (s.setCtl (ldescOff desc 0) (w &&& ldescMask &&& 0x7FFFFFFFFFFFFFFF)).latDesc desc asid c
    if typ = 0 || typ = 6 || 11 ≤ typ then .next (refuse 1)
    else if n = 0 || 262144 < n then .next (refuse 2)
    else if s.regions.any fun e => e.2.asid = asid && decide (base < e.2.base + 64 * e.2.lines) && decide (e.2.base < base + 4096 * n) then
      .next (refuse 3)
    else match freeRuns (s.lstore / 4096) n 4 s.latRuns with
      | none => .next (refuse 4)
      | some runs =>
        let s := s.setCtl (ldescOff desc 0) (w &&& ldescMask)
        .next { s with regions := tput s.regions desc { asid := asid, base := base, lines := 64 * n, typ := typ, runs := runs } }

/-- The address of a lattice load; TLDT's immediate is no offset (R266). -/
def State.latAddr (s : State) (r : Group) (f : Fields) (timed : Bool) (l : Nat) : W64 :=
  s.addrPlain r (if timed then { f with len := .w64 } else f) true l

/-- Whether a group waits in a threshold load on a cell of a region. -/
def State.threshOn (s : State) (asid : Nat) (r : Group) (desc : Nat) : Bool :=
  match r.wait with
  | .thresh timed => (s.contrib r r.ins).any fun l =>
    match s.region? asid (s.latAddr r r.ins timed l).toNat with
    | some (d, _) => d == desc
    | none => false
  | _ => false

/-- Whether a join of a group is in flight to a region: it has issued and is still to step. -/
def State.joinOn (s : State) (asid : Nat) (r : Group) (desc : Nat) : Bool :=
  match r.wait with
  | .join ls _ => ls.any fun l =>
    match s.region? asid (s.addrPlain r r.ins true l).toNat with
    | some (d, _) => d == desc
    | none => false
  | _ => false

/-- Whether a threshold load, of a resident group or a saved crew's, waits on a region, or a join is in flight to
it (R255). -/
def State.latWaited (s : State) (desc : Nat) : Bool :=
  (s.groups.any fun e =>
    let asid := (s.crewOf (keyGid e.1) e.2).asid
    s.threshOn asid e.2 desc || s.joinOn asid e.2 desc) ||
  s.saved.any fun e => e.2.groups.any fun x => s.threshOn e.2.crew.asid x.2 desc

/-- REGION_DEREGISTRATION: word 0 is written with EN = 0 (R255). An LSYNC no longer waits for a region that is gone
(log 23: DESIGN CHOICE, unsafe). Every later access to the range is ADDRV until the ASID is disabled (log 107: DESIGN
CHOICE, unsafe). -/
def execRegionDeregistration (desc : Nat) (w : W64) (s : State) : Host.Outcome State Fault Refusal :=
  if 64 ≤ desc || bitOf w 63 then .next s
  else match tfind s.regions desc with
  | none => .next (s.setCtl (ldescOff desc 0) (w &&& ldescMask &&& 0x7FFFFFFFFFFFFFFF))
  | some x =>
    if s.latWaited desc then .next (s.latDesc desc x.asid 6)
    else
      let s := s.setCtl (ldescOff desc 0) (w &&& ldescMask &&& 0x7FFFFFFFFFFFFFFF)
      .next { s with
        regions := tdel s.regions desc,
        goneRanges := (x.asid, x.base, x.base + 64 * x.lines) :: s.goneRanges.filter (· != (x.asid, x.base, x.base + 64 * x.lines)),
        groups := s.groups.map fun (e : Nat × Group) => match e.2.wait with
          | .lsync l => (e.1, { e.2 with wait := .lsync (l.filter fun y => y.1 != desc) })
          | _ => e }

/-- The lines owed to the phase's partner. -/
def Region.dueLines (x : Region) : Tab Bool :=
  x.owed.filterMap fun e => if e.2.getLsbD (partner x.phase (e.1 / 2 ^ 40)) then some (e.1, true) else none

/-- PHASE_END (R261): every line owed at the phase's start has been sent. -/
def execPhaseEnd (desc : Nat) (stretched : Bool) (s : State) : Host.Outcome State Fault Refusal :=
  match tfind s.regions desc with
  | none => .next s
  | some x =>
    if !x.due.isEmpty then .next s
    else
      let y := { x with phase := x.phase + 1 }
      let s := { s with regions := tput s.regions desc { y with due := y.dueLines } }
      let w := s.ctlw (ldescOff desc 1)
      .next (if stretched
        then s.setCtl (ldescOff desc 1) (BitVec.ofNat 64 (w.toNat % 2 ^ 48 + min (w.toNat / 2 ^ 48 + 1) 0xFFFF * 2 ^ 48))
        else s)

/-! ### The checks of a memory-facing lattice instruction -/

/-- Bytes of the cells an instruction names. -/
def Fields.cell (f : Fields) : Nat := cellBytes f.latTyp

/-- A lane's cell (region and offset), or ADDRV or LATTYPE. -/
def State.chkLat (s : State) (asid : Nat) (f : Fields) (a : W64) (acc : Nat) : LChk :=
  let n := Fields.cell f
  if 2 ^ 48 ≤ a.toNat || a.toNat % n != 0 then addrvAt a acc
  else match s.region? asid a.toNat with
    | none => addrvAt a acc
    | some (d, o) =>
      let t := (s.regionOf d).typ
      if (if f.latTyp = 0 then [1, 2, 3, 4, 5, 8].contains t else t = f.latTyp) then .lat d o
      else .bad { code := Code.lattype, acc := acc, va := a }

/-- The cell of a checked lane. -/
def LChk.cell : LChk → Nat × Nat
  | .lat d o => (d, o)
  | _ => (0, 0)

/-- A register value of `n` bytes of lane `l`: a register, a pair or a quad. -/
def State.latVal (s : State) (r : Group) (n : Nat) (k : Bool) (x : BitVec 8) (l : Nat) : Nat :=
  match n with
  | 4 => (s.src32 r false k x l).toNat
  | 8 => (s.src64 r false k x l).toNat
  | _ => ofSlots fun d => (s.v r (x.toNat + d) l).toNat

/-! ### JST and MST (R268) -/

/-- One lane's join: the new value of its cell; none is NONMONO. -/
def latNew (typ die : Nat) (mst : Bool) (old v : Nat) : Option Nat :=
  if typ = 9 then
    let put := fun x => ofSlots fun d => if d = die then x else slotOf old d
    if mst then (if v < slotOf old die then none else some (put v))
    else some (put (min (slotOf old die + v) 0xFFFFFFFF))
  else if mst then (if latLeq typ old v then some v else none)
  else some (latJoin typ old v)

/-- The lanes' joins in lane order: the state, and the lanes whose cell did not change; or the lane that
faults. -/
def State.latWalk (s : State) (die : Nat) (mst : Bool) (at_ : Nat → Nat × Nat) (v : Nat → Nat) :
    List Nat → Except Nat (State × List Nat)
  | [] => .ok (s, [])
  | l :: t =>
    let x := s.regionOf (at_ l).1
    let n := cellBytes x.typ
    let old := x.cell die (at_ l).2 n
    match latNew x.typ die mst old (v l) with
    | none => .error l
    | some new =>
      let s1 := { s with regions := tput s.regions (at_ l).1 (x.joined die (at_ l).2 n new) }
      match s1.latWalk die mst at_ v t with
      | .error k => .error k
      | .ok (s2, un) => .ok (s2, if new = old then l :: un else un)

/-- The lines of a released join, in the replica of the die (R222). -/
def State.markReleased (s : State) (die : Nat) (cells : List (Nat × Nat)) : State :=
  { s with regions := cells.foldl (fun t c => tmod t c.1 fun (x : Region) =>
      { x with released := tset false x.released (dieKey die (c.2 / 64)) true }) s.regions }

/-- JST and MST: the checks as it issues, then the join's own step (R222), which with `.rel` waits for the outbox to
empty, with the predicates before the access (R341) and the trace. MST is tested at both. -/
def State.joinRes (s : State) (g : Gid) (r : Group) (f : Fields) (op : Nat) (mst : Bool) : Res :=
  let ls := s.contrib r f
  let die := dieOf g.core
  let addr := fun l => s.addrPlain r f true l
  let v := fun l => if f.latTyp = 9 then (s.src32 r false f.kb f.b l).toNat else s.latVal r (Fields.cell f) f.kb f.b l
  let chk := fun l => match s.chkLat (s.asidOf g r) f (addr l) Acc.store with
    | .lat d o => if latNan (s.regionOf d).typ (v l) then LChk.bad { code := Code.nonmono, acc := Acc.store, va := addr l } else .lat d o
    | x => x
  let sound := ls.all fun l => (chk l).fault?.isNone
  let rel := f.fnBits 6 6 = 1
  let down := fun l => Res.fatal { code := Code.nonmono, acc := Acc.store, va := addr l, who := whoOf g r.crew l, lanes := laneMask [l] }
  let marked := fun (s : State) (go : List Nat) => if rel then s.markReleased die (go.map fun l => (chk l).cell) else s
  let walk := fun (ls : List Nat) => s.latWalk die mst (fun l => (chk l).cell) v ls
  -- a join without a lane is over as it issues
  let here := ls.isEmpty || r.wait != .none
  if here && rel && !ls.isEmpty && !r.outbox.isEmpty then .retry
  else match (if sound && !(rel && !r.outbox.isEmpty) then walk ls else .ok (s, [])) with
  | .error l => down l
  | .ok _ =>
    match s.gate g (if here then r else { r with wskip := true }) f (shapeJst f) ls chk addr (fun _ => false)
        [{ src := 1, lanes := ls, x := addr }, { src := 3, lanes := ls, x := fun l => BitVec.ofNat 64 (v l), width := 8 * min (Fields.cell f) 8 }] with
    | .stop x => x
    | .go pre go _ =>
      if !here then .wait s { r with wait := .join ls rel } (some []) []
      else match walk go with
        | .error l => down l
        | .ok (s1, un) => .ok (if go.isEmpty then s else (marked s1 go).trace g r op go addr) { r.next f with wait := .none } (some pre)
            [{ src := 6, lanes := un, x := addr }] []

def execJst (f : Fields) (s : State) : Host.Outcome State Fault Refusal :=
  issue 0 f (shapeJst f) s fun s g r => s.joinRes g r f 0xA0 false

def execMst (f : Fields) (s : State) : Host.Outcome State Fault Refusal :=
  issue 0 f (shapeJst f) s fun s g r => s.joinRes g r f 0xA1 true

/-! ### Threshold loads and LPEEK (R269 to R271) -/

/-- What a lane receives: its cell, or the sum of a GCNT cell. -/
def latRead (typ x : Nat) : Nat := if typ = 9 then slotSum x else x

/-- The local cell of a checked lane, as read. -/
def State.latLocal (s : State) (die : Nat) (c : LChk) : Nat :=
  match c with
  | .lat d o => let x := s.regionOf d; latRead x.typ (x.cell die o (cellBytes x.typ))
  | _ => 0

/-- Whether a lane's threshold is met. -/
def State.latMet (s : State) (die : Nat) (c : LChk) (t : Nat) : Bool :=
  match c with
  | .lat d o =>
    let x := s.regionOf d
    let v := x.cell die o (cellBytes x.typ)
    if x.typ = 9 then decide (t ≤ slotSum v) else latLeq x.typ t v
  | _ => true

/-- A threshold: a register, or a pair. -/
def State.latThresh (s : State) (r : Group) (f : Fields) (l : Nat) : Nat :=
  s.latVal r (4 * f.latRegs) f.kb f.b l

/-- The lanes that a threshold load waits for: Active, no helpers, and not trapped by a predicate. -/
def State.threshLanes (s : State) (r : Group) (f : Fields) : List Nat :=
  (s.contrib r f).filter fun l => !(r.traps.any fun t => t.lane = l)

/-- The state after a lattice load returns to the lanes `ls`, and to helper lanes whose cell checks. -/
def State.latReturn (s : State) (g : Gid) (r : Group) (f : Fields) (timed : Bool) (ls : List Nat) : State :=
  let chk := fun l => s.chkLat (s.asidOf g r) f (s.latAddr r f timed l) Acc.load
  let hs := (s.activeLanes r f).filter fun l => r.hlp.getLsbD l
  s.writeV r (ls ++ hs) fun l =>
    let x := BitVec.ofNat 64 (s.latLocal (dieOf g.core) (chk l))
    if f.latRegs = 1 then [(f.d.toNat, x.setWidth 32)] else pieces f.d.toNat (halves x)

/-- What source 2 offers of a lattice load. -/
def State.latSrc (s : State) (g : Gid) (r : Group) (f : Fields) (timed : Bool) (ls : List Nat) : WSrc :=
  { src := 2, lanes := ls,
    x := fun l => BitVec.ofNat 64 (s.latLocal (dieOf g.core) (s.chkLat (s.asidOf g r) f (s.latAddr r f timed l) Acc.load)),
    width := 32 * f.latRegs }

/-- A threshold load's end: values, TLDT's predicate in every Active lane (after a timeout, the lanes not met), the
view emptied. -/
def State.threshEnd (s : State) (g : Gid) (r : Group) (f : Fields) (timed : Bool) (ls : List Nat) : State :=
  let met := fun l => s.latMet (dieOf g.core) (s.chkLat (s.asidOf g r) f (s.latAddr r f timed l) Acc.load) (s.latThresh r f l)
  let s1 := s.latReturn g r f timed ls
  let hs := (s.activeLanes r f).filter fun l => r.hlp.getLsbD l
  let late := !(ls.all met)
  let s2 := if timed then s1.writeP r (ls ++ hs) f.c.toNat fun l => late && !met l else s1
  s2.emptyView g.core

/-- Whether every lane's threshold is met. -/
def State.threshMet (s : State) (g : Gid) (r : Group) (f : Fields) (timed : Bool) (ls : List Nat) : Bool :=
  ls.all fun l => s.latMet (dieOf g.core) (s.chkLat (s.asidOf g r) f (s.latAddr r f timed l) Acc.load) (s.latThresh r f l)

def State.threshRes (s : State) (g : Gid) (r : Group) (f : Fields) (sh : Shape) (op : Nat) (timed : Bool) : Res :=
  let ls := s.contrib r f
  let addr := fun l => s.latAddr r f timed l
  let chk := fun l => match s.chkLat (s.asidOf g r) f (addr l) Acc.load with
    | .lat d o => if latNan (s.regionOf d).typ (s.latThresh r f l) then LChk.bad { code := Code.nonmono, acc := Acc.load, va := addr l } else .lat d o
    | x => x
  match s.gate g r f sh ls chk addr (fun _ => false) [{ src := 0, lanes := ls, x := addr }] with
  | .stop x => x
  | .go pre go traps =>
    let s1 := s.trace g r op go addr
    if s1.threshMet g r f timed go then
      .ok (s1.threshEnd g r f timed go) (r.next f) (some pre) [s1.latSrc g r f timed go] traps
    else .wait s1 { r with wait := .thresh timed } (some pre) traps

def execTld (f : Fields) (s : State) : Host.Outcome State Fault Refusal :=
  issue 0 f (shapeTld f) s fun s g r => s.threshRes g r f (shapeTld f) 0xA2 false

def execTldt (f : Fields) (s : State) : Host.Outcome State Fault Refusal :=
  issue 0 f (shapeTldt f) s fun s g r => s.threshRes g r f (shapeTldt f) 0xA3 true

/-- LPEEK issues, its group goes on, and its read is made at any later time (R222; log 97: DEDUCED, unsafe). -/
def execLpeek (f : Fields) (s : State) : Host.Outcome State Fault Refusal :=
  issue 0 f (shapeLpeek f) s fun s g r =>
    let act := s.activeLanes r f
    let ls := act.filter fun l => !r.hlp.getLsbD l
    let addr := fun l => s.latAddr r f false l
    match s.gate g r f (shapeLpeek f) ls (fun l => s.chkLat (s.asidOf g r) f (addr l) Acc.load) addr (fun _ => false)
        [{ src := 0, lanes := ls, x := addr }] with
    | .stop x => x
    | .go pre go traps =>
      if act.isEmpty then .ok s (r.next f) (some pre) [] traps
      else
        let at_ := fun (ls : List Nat) => ls.map fun l => (l, addr l)
        let p : Peek := { f := f, pc := r.pc, lanes := at_ go, helpers := at_ (act.filter fun l => r.hlp.getLsbD l) }
        .wait (s.trace g r 0xA4 go addr) { r.next f with peeks := r.peeks ++ [p] } (some pre) traps

/-- What a pending LPEEK's read gives a lane at an address. -/
def State.peekVal (s : State) (core asid : Nat) (f : Fields) (a : W64) : W64 :=
  BitVec.ofNat 64 (s.latLocal (dieOf core) (s.chkLat asid f a Acc.load))

/-- The read of a pending LPEEK of the group, all its lanes together (R222), and the predicates after it (R341). It
waits where a posted pass holds its destination (R182); a region deregistered meanwhile is ADDRV (R255). (Log 97:
DEDUCED, unsafe.) -/
def State.peekRead (s : State) (g : Gid) (k : Nat) : State :=
  match s.group? g with
  | none => s
  | some r =>
    match r.peeks[k]? with
    | none => s
    | some p =>
      let sh := shapeLpeek p.f
      let asid := s.asidOf g r
      let r' := { r with peeks := r.peeks.eraseIdx k }
      let issued := { r' with pc := p.pc }
      let x := fun a => s.peekVal g.core asid p.f a
      if s.writesHeld r (sh.writes p.f) then s
      else match p.lanes.findSome? fun e => (s.chkLat asid p.f e.2 Acc.load).fault?.map fun fr => (e.1, fr) with
        | some (l, fr) => s.crewFatal g issued { fr with who := whoOf g r.crew l, lanes := laneMask [l] }
        | none =>
          let all := p.lanes ++ p.helpers
          let val := fun l => ((all.find? fun e => e.1 = l).map fun e => x e.2).getD 0
          let s1 := s.writeV r (all.map (·.1)) fun l =>
            if p.f.latRegs = 1 then [(p.f.d.toNat, (val l).setWidth 32)] else pieces p.f.d.toNat (halves (val l))
          let post := s.watchMatches g issued
            [{ src := 2, lanes := p.lanes.map (·.1), x := val, width := 32 * p.f.latRegs },
             { src := 4, lanes := all.map (·.1), x := fun _ => 0 }, { src := 5, lanes := all.map (·.1), x := fun _ => 0 }]
          let ts := s.watchTraps issued p.f sh post
          match (if r.stopped then none else haltMatch post) with
          | some m =>
            if r.haltFaults then (s.matched g issued post).haltFault g issued m
            else (s1.matched g issued post).watchHalt g { r' with traps := r'.traps ++ ts } p.pc m
          | none =>
            if !ts.isEmpty && r.inHandler then (s.matched g issued post).handlerTrap g issued ts
            else (s1.matched g issued post).putGroup g { r' with traps := r'.traps ++ ts }

/-- A waiting group issues a threshold load that returns now. -/
def State.threshFinish (s : State) (g : Gid) (r : Group) (timed : Bool) : State :=
  let ls := s.threshLanes r r.ins
  s.waitDone g r (s.threshEnd g r r.ins timed ls) r [s.latSrc g r r.ins timed ls] []

/-- THRESHOLD_LOAD (R269). -/
def execThresholdLoad (g : Gid) (s : State) : Host.Outcome State Fault Refusal :=
  s.onWait g fun r =>
    match r.wait with
    | .thresh timed => if s.threshMet g r r.ins timed (s.threshLanes r r.ins) then s.threshFinish g r timed else s
    | _ => s

/-- TLDT_TIMEOUT (R270). -/
def execTldtTimeout (g : Gid) (s : State) : Host.Outcome State Fault Refusal :=
  s.onWait g fun r => if r.wait = .thresh true then s.threshFinish g r true else s

/-! ### LJOIN and LCMP (R272) -/

def execLjoin (f : Fields) (s : State) : Host.Outcome State Fault Refusal :=
  issue 0 f (shapeLjoin f) s fun s _ r =>
    let n := Fields.cell f
    let a := fun l => s.latVal r n f.ka f.a l
    let b := fun l => s.latVal r n f.kb f.b l
    let nan := fun l => latNan f.latTyp (a l) || latNan f.latTyp (b l)
    let res := fun l => if nan l then 0x7FC00000 else latJoin f.latTyp (a l) (b l)
    let put := fun l => pieces f.d.toNat ((List.range (n / 4)).map fun i => BitVec.ofNat 32 (res l / 2 ^ (32 * i)))
    State.raiseFlags (s.writeV r (s.activeLanes r f) put) s r f (shapeLjoin f) (r.next f) fun l => if nan l then Flag.iv else 0

/-- LCMP's conditions. -/
def latCond (c typ a b : Nat) : Bool :=
  match c with
  | 0 => latLeq typ a b
  | 1 => a == b
  | 2 => latLeq typ a b && a != b
  | _ => !latLeq typ a b && !latLeq typ b a

def execLcmp (f : Fields) (s : State) : Host.Outcome State Fault Refusal :=
  issue 0 f (shapeLcmp f) s fun s _ r =>
    let n := Fields.cell f
    let a := fun l => s.latVal r n f.ka f.a l
    let b := fun l => s.latVal r n f.kb f.b l
    let nan := fun l => latNan f.latTyp (a l) || latNan f.latTyp (b l)
    State.raiseFlags (s.writeP r (s.activeLanes r f) f.d.toNat fun l => !nan l && latCond (f.fnBits 5 4) f.latTyp (a l) (b l))
      s r f (shapeLcmp f) (r.next f) fun l => if nan l then Flag.iv else 0

/-! ### LSYNC (R273) -/

/-- The lines with joins of a die that some replica lacks. -/
def State.latLacks (s : State) (die : Nat) : List (Nat × Nat × BitVec 4) :=
  s.regions.flatMap fun e => e.2.lacks.filterMap fun x =>
    if x.1 / 2 ^ 40 = die then some (e.1, x.1 % 2 ^ 40, x.2) else none

def execLsync (f : Fields) (s : State) : Host.Outcome State Fault Refusal :=
  issue 0 f (shapeLsync f) s fun s g r =>
    let l := s.latLacks (dieOf g.core)
    if l.isEmpty then .done s (r.next f) else .hold s { r with wait := .lsync l }

/-- LSYNC_DONE. -/
def execLsyncDone (g : Gid) (s : State) : Host.Outcome State Fault Refusal :=
  s.onWait g fun r =>
    match r.wait with
    | .lsync l => if l.all fun x => x.2.2 = 0 then s.waitDone g r s r [] [] else s
    | _ => s

end Sys2Proof.Machine
end

