-- ==== Sys2Proof/Machine/Context.lean ====
section
/-! DEFINITION. Pre-emption, eviction and restore of crews (R84 to R88, R206, R299, R331 to R333), and
DISPATCH_DECISION, in which evicted crews compete (R65, R86). A saved crew is written into its frames, and a restore
reads it back from there. -/

namespace Sys2Proof.Machine

/-! ### Pre-emption (R84, R299) -/

/-- Whether a group waits on a page. -/
def Group.onPage (r : Group) : Bool :=
  match r.wait with
  | .page _ _ => true
  | _ => false

/-- Whether any lane of the crew is in a handler group. -/
def State.inHandlers (s : State) (core slot : Nat) : Bool := (s.crewGroups core slot).any fun e => e.1.hnd

/-! ### Context frames (R331, R332) -/

/-- CTXD of a partition. -/
def State.ctxd (s : State) (part : Nat) : W64 := s.partReg part 0x20
def State.ctxRing (s : State) (part : Nat) : Nat := bitsOf (s.ctxd part) 51 12 * 4096
def State.ctxLog (s : State) (part : Nat) : Nat := bitsOf (s.ctxd part) 55 52

/-- A crew as a save keeps it, before it takes frames. -/
def State.savedOf (s : State) (core slot : Nat) (c : Crew) : Saved :=
  let part := s.partOf c.asid
  let gs := (s.crewGroups core slot).map fun e => (e.1.slot, e.2)
  let ring := (s.core core).ring.filterMap fun r =>
    if r.2 = c.uid then (match s.ringRec part core r.1 c.uid with | .ok x => some x | .error _ => none) else none
  { crew := { c with preempt := false, saving := false, pendHold := {}, seqr := { c.seqr with got := [] } }, core := core, groups := gs,
    copies := (s.copies.filter fun e => e.2.uid = c.uid).map fun (e : Nat × Copy) => (e.1, { e.2 with stall := none }),
    ops := (s.ops.filter fun e => e.2.uid = c.uid).map fun (e : Nat × Op) => (e.1, { e.2 with stall := none, age := 0, got := [] }),
    spawns := ((s.core core).pool.filter fun r => r.crewUid = c.uid) ++ ring,
    byPage := c.saving && gs.any (fun e => e.2.onPage),
    pages := gs.filterMap fun e => match e.2.wait with | .page a v => some (a, v) | _ => none }
/-- Frames of 2 MiB, each with a header of 128 bytes. -/
def frameCount (bytes : Nat) : Nat := max 1 ((bytes + framePayload - 1) / framePayload)

/-- The crews of the sheaf of a crew, by place. -/
def State.sheafOf (s : State) (c : Crew) : List (Nat × Nat) := s.sheafCrews c.launch c.sheaf

/-- Frames that the sheaf of a crew needs, and whether the ring has them. No save is made with a ring or a frame on a
peer that may not be accessed (R370, log 120: DESIGN CHOICE, unsafe). -/
def State.framesFor (s : State) (c : Crew) : Nat :=
  ((s.sheafOf c).map fun k => match s.crew? k.1 k.2 with
    | some x => frameCount (s.savedOf k.1 k.2 x).size
    | none => 0).sum
def State.framesOk (s : State) (c : Crew) : Bool :=
  let p := s.partOf c.asid
  let b := s.ctxRing p
  let n := s.framesFor c
  bitOf (s.ctxd p) 63 && decide (n ≤ (s.pword b 8 + 2 ^ 64 - s.pword (b + 8) 8) % 2 ^ 64) &&
    s.answers b && (List.range n).all fun i => s.answers (s.ringEntry b (s.ctxLog p) (s.pword (b + 8) 8 + i))

/-- Takes `n` frames from the ring. -/
def State.takeFrames (s : State) (part n : Nat) : List Nat × State :=
  let b := s.ctxRing part
  let rd := s.pword (b + 8) 8
  ((List.range n).map fun i => s.ringEntry b (s.ctxLog part) (rd + i), s.pstore (b + 8) 8 (rd + n))
/-- Returns frames to the ring. -/
def State.giveFrames (s : State) (part : Nat) (fs : List Nat) : State :=
  let b := s.ctxRing part
  let w := s.pword b 8
  if !s.answers b then s else
  let s := (List.range fs.length).foldl (fun (s : State) i =>
    s.pstore (b + 16 + 8 * ((w + i) % 2 ^ s.ctxLog part)) 8 (fs.getD i 0)) s
  s.pstore b 8 (w + fs.length)

/-- The issue of a crew, or of its whole sheaf, stops, for it to be saved (R85, R299): not with lanes in a handler
group, nor with a crew of it stopped, nor where no save can be made (R331). -/
def State.startSave (s : State) (c : Crew) : State :=
  if (s.sheafOf c).any (fun k => s.inHandlers k.1 k.2 || (s.crew? k.1 k.2).any fun x => x.stop.isSome) || !s.framesOk c then s
  else (s.sheafOf c).foldl (fun s k => s.modCrew k.1 k.2 fun c => { c with saving := true }) s
/-- A save is given up: the faulting groups go on waiting in place (R299). -/
def State.dropSave (s : State) (c : Crew) : State :=
  (s.sheafOf c).foldl (fun s k => s.modCrew k.1 k.2 fun c => { c with saving := false }) s

/-- PREEMPTION_REQUEST: a crew named by a request of its die is to be evicted; one whose group waits on a
page is saved. A request for a crew that has left has nothing to pre-empt (R88). -/
def execPreemptionRequest (core slot : Nat) (s : State) : Host.Outcome State Fault Refusal :=
  let d := s.die (dieOf core)
  let gone := fun (x : Nat × Nat) => x.1 == core && !(s.crews.any fun e => e.1 / 16 == core && e.2.uid == x.2)
  let s := s.putDie (dieOf core) { d with preReqs := d.preReqs.filter fun x => !gone x }
  match s.crew? core slot with
  | none => .next s
  | some c =>
    if !d.preReqs.contains (core, c.uid) then .next s
    else
      let s := s.putDie (dieOf core) { d with preReqs := d.preReqs.filter fun x => !gone x && x != (core, c.uid) }
      let s := s.putCrew core slot { c with preempt := true }
      .next (if (s.crewGroups core slot).any (fun e => e.2.onPage) then s.startSave c else s)

/-- FWAIT_EXPIRY (R299): the issue of the crew, or of its whole sheaf, stops, to be saved; where no save can
be made the group goes on waiting in place. -/
def execFwaitExpiry (g : Gid) (s : State) : Host.Outcome State Fault Refusal :=
  match s.group? g with
  | none => .next s
  | some r =>
    let c := s.crewOf g r
    if !r.onPage || g.hnd then .next s else .next (s.startSave c)

/-! ### Eviction (R84, R85) -/

/-- The blocking points (R83, R104). -/
def Wait.blocking : Wait → Bool
  | .bar _ _ _ _ => true
  | .qpop _ _ => true
  | .repack _ _ => true
  | .unpack _ => true
  | .remote _ _ _ _ _ => true
  | .grant => true
  | .thresh _ => true
  | .future _ => true
  | .spawn => true
  | _ => false

/-- Whether SPAWN would find room on a core (R82). -/
def State.spawnRoom (s : State) (part core : Nat) : Bool :=
  let c := s.core core
  let n := (s.spovf part).2
  (c.pool.length < 64 && c.ring.isEmpty) || (n != 0 && decide ((c.ringW - c.ringR).toNat < 2 ^ n))

/-- Whether QPOP would find its entry. -/
def State.popReady (s : State) (asid : Nat) (da : W64) (i : Option Nat) : Bool :=
  match s.qdesc noCore asid da Acc.queue with
  | .error _ => true
  | .ok q => match i with
    | none => decide (q.ridx < q.widx)
    | some i => match s.homeLoad noCore asid (q.seq i) 8 Acc.queue with
      | .ok x => x == (i + 1) % 2 ^ 64
      | .error _ => true

/-- Whether what a group waits for is there already: its wait ends before an eviction (R88, R252, R275). -/
def State.waitEnds (s : State) (g : Gid) (r : Group) : Bool :=
  match r.wait with
  | .future ls => (s.futReturn g r r.ins ls).isSome
  | .thresh timed => s.threshMet g r r.ins timed (s.threshLanes r r.ins)
  | .qpop i _ => s.popReady (s.asidOf g r) (s.gr r r.ins.a.toNat) i
  | .spawn => s.spawnRoom (s.partOf (s.asidOf g r)) g.core
  | .grant => !((s.core g.core).deferred.any fun q => q.slot == g.slot && q.crew == r.crew)
  | .rgclm n => (s.crewOf g r).rgq.head? == some (g.slot, n) && (s.crewOf g r).rgclmDue
  | _ => false

/-- Whether a group may be saved: its outbox has drained, and it has exited or is at a blocking point, but for a
remote atomic, whose reply is awaited (R85); in a save under way also at any instruction boundary, on a page, or in a
wait whose end its crew must bring. -/
def Group.savable (r : Group) (saving : Bool) : Bool :=
  r.outbox.isEmpty && r.probes.isEmpty && r.peeks.isEmpty && (r.live = 0 || match r.wait with
    | .remote _ kind _ _ _ => kind != 2
    | .none => saving && r.traps.isEmpty
    | .page _ _ | .rgclm _ => saving
    | w => w.blocking)

/-- Whether a crew meets R84's condition, or is being saved: it does not retire instead, no wait of a group has ended,
no copy has made its last beat (R88), no group of it, or participant of a REPACK, is halted (R348). -/
def State.atBlocking (s : State) (core slot : Nat) (saving : Bool) : Bool :=
  match s.crew? core slot with
  | none => false
  | some c =>
    c.stop.isNone && !s.retirable core slot c && !s.inHandlers core slot &&
      ((s.crewGroups core slot).all fun e =>
        e.2.halt.cause = 0 && (saving || e.2.live = 0 || e.2.wait.blocking) && !s.waitEnds e.1 e.2) &&
      (c.parts.all fun e => e.2.halt.cause = 0) &&
      !(s.copies.any fun e => e.2.uid == c.uid && e.2.stall.isNone && e.2.did.length == e.2.n)

/-- Whether what R85 lets finish has finished: outboxes, remote atomics, granted passes, silo operations that have
begun. A spawn record of the crew on a page of the ring segment that does not translate holds the save back (log 104:
DESIGN CHOICE, unsafe). -/
def State.workSaved (s : State) (core slot : Nat) (saving : Bool) : Bool :=
  match s.crew? core slot with
  | none => false
  | some c =>
    ((s.crewGroups core slot).all fun e => e.2.savable saving) &&
      !(s.ops.any fun e => e.2.uid == c.uid && e.2.granted && e.2.stall.isNone) &&
      ((s.core core).ring.all fun r => r.2 != c.uid || match s.ringRec (s.partOf c.asid) core r.1 c.uid with
        | .ok _ => true
        | .error _ => false)

/-- Whether a crew can be saved in this clock. -/
def State.evictable (s : State) (core slot : Nat) (saving : Bool) : Bool :=
  s.atBlocking core slot saving && s.workSaved core slot saving

/-- The crews of a sheaf that has been saved are written into their frames, their first headers linked (R332). -/
def State.writeSheaf (s : State) (c : Crew) : State :=
  let ss := s.saved.filter fun e => e.2.crew.launch = c.launch && e.2.crew.sheaf = c.sheaf
  let links := ss.map fun e => e.2.frames.headD 0
  ss.foldl (fun s e =>
    let sv := { e.2 with links := links }
    ({ s with saved := tput s.saved e.1 sv } : State).writeFrames sv) s

/-- Saves one crew: the frames it needs are taken, and it leaves the core, its parts to be written. The deferred
requests are tested once the whole sheaf has left (R78), so that those of its crews are withdrawn (R77). -/
def State.saveCrew (s : State) (k : Nat × Nat) : State :=
  match s.crew? k.1 k.2 with
  | none => s
  | some c =>
    let sv := s.savedOf k.1 k.2 c
    let f := s.takeFrames (s.partOf c.asid) (frameCount sv.size)
    let sv := { sv with frames := f.1 }
    let (id, s) := (f.2.removeCrew k.1 k.2).fresh
    { s with saved := tput s.saved id sv }

/-- CREW_EVICTION: the sheaf of a named crew, or of one being saved, is saved together (R84). Where the condition
holds and work is still to finish, its issue stops until that has (R85). -/
def execCrewEviction (core slot : Nat) (s : State) : Host.Outcome State Fault Refusal :=
  match s.crew? core slot with
  | none => .next s
  | some c =>
    let ks := s.sheafOf c
    if !(c.preempt || c.saving) then .next s
    else if !(ks.all fun k => s.evictable k.1 k.2 c.saving) then
      .next (if !c.saving && ks.all (fun k => s.atBlocking k.1 k.2 false) then s.startSave c else s)
    -- no save is made without frames (R331): the groups go on
    else if !s.framesOk c then .next (if c.saving then s.dropSave c else s)
    else .next ((sortNat (ks.map (·.1))).foldl State.retest ((ks.foldl State.saveCrew s).writeSheaf c))

/-! ### Restore (R86, R87) -/

/-- Whether the awaited condition of a saved group holds (R86); of a TLDT the clocks may have passed. -/
def State.wakes (s : State) (sv : Saved) (r : Group) : Bool :=
  let asid := sv.crew.asid
  match r.wait with
  | .future ls => ls.all fun l => match s.futRead noCore asid (s.src64 r false r.ins.ka r.ins.a l) with
      | some (k, _) => decide (2 ≤ k)
      | none => false
  | .thresh timed => timed || (s.contrib r r.ins).all fun l =>
      s.latMet (dieOf sv.core) (s.chkLat asid r.ins (s.latAddr r r.ins timed l) Acc.load) (s.latThresh r r.ins l)
  | .qpop i _ => s.popReady asid (s.gr r r.ins.a.toNat) i
  | .spawn =>
    let v := s.spovf (s.partOf asid)
    let c := s.core sv.core
    v.2 = 0 || decide ((c.ringW - c.ringR).toNat < 2 ^ v.2)
  | _ => true

/-- Whether a saved sheaf may be restored: after a page fault, once a replay has reached a page it awaits;
else once the condition of one of its groups holds, or one waits for nothing, or none is live (log 25: DEDUCED, safe). -/
def State.sheafWakes (s : State) (ss : List (Nat × Saved)) : Bool :=
  let live := fun (sv : Saved) => sv.groups.filter fun e => e.2.live != 0
  if ss.any fun e => e.2.byPage then ss.any fun e => e.2.byPage && e.2.pages.isEmpty
  else (ss.all fun e => (live e.2).isEmpty) || ss.any fun e => (live e.2).any fun x => s.wakes e.2 x.2

/-- The group slots a saved crew held: a new group of REPACK and a parked participant share one (R105). -/
def Saved.places (sv : Saved) : List Nat :=
  (List.range 32).filter fun k => sv.groups.any (fun e => e.1 == k) || sv.crew.parts.any fun e => e.1 == k
/-- Group slots a saved crew needs. -/
def Saved.slots (sv : Saved) : Nat := sv.places.length
/-- Entries of the range scoreboard that a saved crew's copies and drains need (R15, R87). -/
def Saved.scores (sv : Saved) : Nat :=
  (sv.copies.map fun e => (e.2.ranges.filter fun x => x.scratch && x.dst).length).sum + (sv.ops.filter fun e => e.2.sdst.isSome).length

/-- The crews of a saved sheaf that go to place `k` of the rectangle. -/
def sheafAt (ss : List (Nat × Saved)) (sk k : Nat) : List (Nat × Saved) := ss.filter fun e => e.2.crew.index / sk = k

/-- Whether a saved sheaf is admitted on a rectangle of cores (R76, R87), with room in their range scoreboards (log 91:
DESIGN CHOICE, unsafe). -/
def State.restorable (s : State) (ss : List (Nat × Saved)) (sk : Nat) (cs : List Nat) : Bool :=
  (List.range cs.length).all fun k =>
    let here := sheafAt ss sk k
    s.admits (cs.getD k 0) (here.map fun e => e.2.crew) (here.map fun e => e.2.slots).sum &&
      decide (s.scoreEntries (cs.getD k 0) + (here.map fun e => e.2.scores).sum ≤ 32)

/-- What asks for a reservation on a die: the launches eligible there, and the saved sheafs that may be restored
there, that have reached age 128 and hold none: when they did, their name, the first rectangle of theirs (R67,
R86). Each asks on every such die until one grants (log 119: DESIGN CHOICE, unsafe). -/
def State.askers (s : State) (die : Nat) : List (Nat × Nat × List Nat) :=
  let held := fun id => (List.range 4).any fun k => match (s.die k).reservation with | some (l, _) => l == id | none => false
  let first := fun (asid sw sh : Nat) => match s.rects (s.partOf asid) die sw sh with | [] => [] | r :: _ => r.2
  (s.launches.filterMap fun e => if e.2.aged != 0 && s.eligible die e.2 && !held e.1
    then some (e.2.aged, e.1, first e.2.asid e.2.task.sw e.2.task.sh) else none) ++
  s.saved.filterMap fun e =>
    let t := s.taskOfCrew e.2.crew
    if e.2.aged != 0 && s.savedFits die e.2 && s.sheafId e.2 == e.1 && !held e.1 && s.sheafWakes (s.savedSheaf e.2)
    then some (e.2.aged, e.1, first e.2.crew.asid t.sw t.sh) else none

/-- CORE_RESERVATION (R67): the asker that reached age 128 first reserves its first rectangle; a pre-emption
request names every crew there. A dispatcher with an admission in flight settles that first, so that no other
launch's crew is admitted under the reservation. -/
def execCoreReservation (die : Nat) (s : State) : Host.Outcome State Fault Refusal :=
  let d := s.die die
  if d.reservation.isSome || d.admission.isSome then .next s
  else
    let cands := s.askers die
    match cands.find? fun e => cands.all fun o => decide (e.1 ≤ o.1) with
    | none => .next s
    | some (_, id, cs) =>
      let named := s.crews.filterMap fun e =>
        if cs.contains (e.1 / 16) && !e.2.tentative then some (e.1 / 16, e.2.uid) else none
      .next (s.putDie die { d with reservation := some (id, cs), preReqs := d.preReqs ++ named })

/-- Whether a launch is placeable on a die now (R68). -/
def State.placeable (s : State) (die id : Nat) (x : Launch) : Bool :=
  let t := x.task
  let kept := s.keptCores die id
  (s.rects (s.partOf x.asid) die t.sw t.sh).any fun r => !(r.2.any kept.contains) &&
    (List.range r.2.length).all fun k =>
      s.admits (r.2.getD k 0) ((List.range t.sk).map fun i => crewOfLaunch id x (k * t.sk + i) (s.nextId + i)) (t.sk * t.ngrp)

/-- The rank of a saved sheaf: its launch's priority, its age, its launch's arrival (R86). -/
def Saved.rank (sv : Saved) : Nat × Nat × Nat := (effPrio sv.crew.prio sv.age, sv.age, sv.crew.launch)

/-- Whether a saved sheaf could be restored on a die now. -/
def State.restorableOn (s : State) (die : Nat) (sv : Saved) : Bool :=
  let ss := s.savedSheaf sv
  let t := s.taskOfCrew sv.crew
  let kept := s.keptCores die (s.sheafId sv)
  s.sheafWakes ss && (s.rects (s.partOf sv.crew.asid) die t.sw t.sh).any fun r => !(r.2.any kept.contains) && s.restorable ss t.sk r.2

/-- Whether a saved sheaf of another name that could be restored on a die ranks before `e` there. -/
def State.savedBefore (s : State) (die name : Nat) (e : Nat × Nat × Nat) : Bool :=
  s.saved.any fun sv => s.sheafId sv.2 != name && rankLt sv.2.rank e && s.restorableOn die sv.2

/-- DISPATCH_DECISION (R65): a completion that another write held back goes on (R304); or, unless a saved sheaf
that could be restored ranks first, the next try. -/
def execDispatchDecision (die : Nat) (s : State) : Host.Outcome State Fault Refusal :=
  match s.completable with
  | some id => .next (s.completion id)
  | none =>
  if (s.die die).admission.isSome then .next s
  else
    let first := match s.nextRect die with
      | none => false
      | some (id, _) => (s.ranked die).any fun e => e.2.2 = id && s.savedBefore die 0 e
    if first then .next s else .next (s.decide_ die)

/-- A group as it resumes (R87): it executes its waiting instruction again, but for an arrival already
made, an entry taken from a queue, or granules asked for in order. (Log 51: DEDUCED, safe.) -/
def Group.resumed (r : Group) (slot : Nat) : Group :=
  let r := { r with crew := slot }
  match r.wait with
  | .page _ _ => { r with wait := r.kept.anew, kept := .none }
  | .remote _ _ _ _ _ | .thresh _ | .future _ | .spawn | .grant | .qpop none _ => { r with wait := .none, traps := [] }
  | _ => r

/-- Clears the registers of a group. -/
def State.clearRegs (s : State) (uid : Nat) : State :=
  { s with vreg := tclear s.vreg (vkey uid 0 0) (vkey (uid + 1) 0 0), preg := tclear s.preg (pkey uid 0) (pkey (uid + 1) 0),
           greg := tclear s.greg (gkey uid 0) (gkey (uid + 1) 0), fpx := tclear s.fpx (uid * 32) (uid * 32 + 32) }

/-- The lowest channel of a core that no copy holds. (Log 43: DESIGN CHOICE, unsafe.) -/
def State.freeChan (s : State) (core : Nat) : Nat :=
  ((List.range 8).find? fun n => !(s.copies.any fun e => e.2.core = core && e.2.chan = n)).getD 0

/-- Rebuilds one crew on a core; none where its spawn records find no room there. The core's view is emptied, as where
a crew starts: it may hold copies older than what the crew has read or written (R223). -/
def State.restoreCrew (s : State) (id core : Nat) (sv : Saved) : Option State :=
  let part := s.partOf sv.crew.asid
  let (s, sv) := if s.formatsOk sv then s.rebuild sv else (s, sv)
  match s.freeCrewSlots core with
  | [] => none
  | slot :: _ =>
    let free := s.freeSlots core
    -- each slot it held has its next free one
    let move := fun (old : Nat) => free.getD (sv.places.idxOf old) 32
    let c := { sv.crew with
      parts := sv.crew.parts.map fun (e : Nat × Group) => (move e.1, { e.2 with crew := slot })
      rgq := sv.crew.rgq.map fun (e : Nat × Nat) => (move e.1, e.2) }
    let s := s.putCrew core slot c
    let s := sv.groups.foldl (fun s e => s.putGroup { core := core, slot := move e.1 } (e.2.resumed slot)) s
    let s := sv.copies.foldl (fun s x =>
      { s with copies := tput s.copies x.1 { x.2 with core := core, crew := slot, chan := s.freeChan core } }) s
    -- the withdrawn entries are posted again, in their order (R206)
    let s := sv.ops.foldl (fun s x => s.post { x.2 with core := core, crew := slot }) s
    let s := (s.giveFrames part sv.frames).emptyView core
    let s := { s with saved := tdel s.saved id }
    sv.spawns.foldl (fun o x => match o with
      | none => none
      | some (s : State) => match s.placeSpawn .other part core { x with crewSlot := slot } with
        | .ok s' => some s'
        | _ => none) (some s)

/-- A restore that meets a format byte it cannot read (R333). -/
def State.spillFail (s : State) (launch sheaf index : Nat) : State :=
  match s.crews.find? fun e => e.2.launch = launch && e.2.sheaf = sheaf && e.2.index = index with
  | none => s
  | some e =>
    let s := ((s.crewGroups (e.1 / 16) (e.1 % 16)).map (·.2) ++ e.2.parts.map (·.2)).foldl
      (fun s (r : Group) => s.clearRegs r.uid) s
    s.stopCrew (e.1 / 16) (e.1 % 16) none { code := Code.spillfmt }

/-- CREW_RESTORE: the whole sheaf of a saved crew, on the rectangle from `core` (R87), where no launch and no
other saved sheaf that could be placed ranks before it; ages change as in a decision that places a sheaf (R86). -/
def execCrewRestore (id core : Nat) (s : State) : Host.Outcome State Fault Refusal :=
  match tfind s.saved id with
  | none => .next s
  | some sv =>
    let ss := s.savedSheaf sv
    let t := s.taskOfCrew sv.crew
    let die := dieOf core
    match rectCores core t.sw t.sh with
    | none => .next s
    | some cs =>
      let name := s.sheafId sv
      let kept := s.keptCores die name
      let before := s.savedBefore die name sv.rank || s.launches.any fun e => s.eligible die e.2 &&
        rankLt (effPrio e.2.task.prio e.2.age, e.2.age, e.1) sv.rank && s.placeable die e.1 e.2
      if (s.die die).admission.isSome || !s.sheafWakes ss || !(cs.all (s.owns (s.partOf sv.crew.asid))) ||
          cs.any kept.contains || before || !s.restorable ss t.sk cs then .next s
      else
        let s' := ss.foldl (fun o e => match o with
          | none => none
          | some (s : State) => s.restoreCrew e.1 (cs.getD (e.2.crew.index / t.sk) 0) e.2) (some s)
        match s' with
        | none => .next s
        | some s' =>
          let s' := (ss.filter fun e => !s.formatsOk e.2).foldl (fun (s : State) e =>
            s.spillFail e.2.crew.launch e.2.crew.sheaf e.2.crew.index) s'
          .next (((s'.putDie die { s'.die die with tried := [] }).endReservation name).ageing die name)

end Sys2Proof.Machine
end

