-- ==== Sys2Proof/Machine/Control.lean ====
section
/-! DEFINITION. Control-flow, divergence, format, pacing and special-register instructions, OP 0x01 to
0x0F and HELPER (R94 to R112), but EXIT (Recovery.lean), and REPACK and UNPACK (Barrier.lean). -/

namespace Sys2Proof.Machine

def execNop (f : Fields) (s : State) : Host.Outcome State Fault Refusal :=
  issue 0 f (shapeNop f) s fun s _ r => .done s (r.next f)

/-! ### Branches, calls, loops (R96 to R98) -/

def execBra (f : Fields) (s : State) : Host.Outcome State Fault Refusal :=
  issue 0 f (shapeBra f) s fun s _ r =>
    .done s (if r.cond (f.fnBits 3 0) then r.rel f.i32 else r.next f)

def execBrx (f : Fields) (s : State) : Host.Outcome State Fault Refusal :=
  issue 0 f (shapeBrx f) s fun s _ r =>
    .done s (if r.cond (f.fnBits 3 0) then r.goto (s.gr r f.a.toNat) else r.next f)

def execCall (f : Fields) (s : State) : Host.Outcome State Fault Refusal :=
  issue 0 f (shapeCall f) s fun s _ r =>
    .done (s.setG r f.d.toNat ((nextPc r.pc f.len).setWidth 64)) (r.rel f.i32)

def execCallI (f : Fields) (s : State) : Host.Outcome State Fault Refusal :=
  issue 0 f (shapeCallI f) s fun s _ r =>
    .done (s.setG r f.d.toNat ((nextPc r.pc f.len).setWidth 64)) (r.jump (s.gr r f.a.toNat))

def execRet (f : Fields) (s : State) : Host.Outcome State Fault Refusal :=
  issue 0 f (shapeRet f) s fun s _ r => .done s (r.jump (s.gr r f.a.toNat))

def execLoop (f : Fields) (s : State) : Host.Outcome State Fault Refusal :=
  issue 0 f (shapeLoop f) s fun s _ r =>
    let n := s.gr r f.d.toNat
    if n = 0 then .done s (r.next f)
    else .done (s.setG r f.d.toNat (n - 1)) (if n - 1 = 0 then r.next f else r.rel f.i32)

/-! ### The divergence stack (R101 to R103) -/

/-- The mask of lanes in which a predicate holds. -/
def State.predMask (s : State) (r : Group) (n : Nat) : W32 := laneMask (allLanes.filter fun l => s.p r n l)

def execDpush (f : Fields) (s : State) : Host.Outcome State Fault Refusal :=
  issue 0 f (shapeDpush f) s fun s _ r =>
    if r.depth = 16 then .fatal { code := Code.divdepth }
    else
      let p := s.predMask r f.a.toNat
      let m := if f.fnIs 1 then ~~~ p else p
      let e : SEntry := { exec := r.exec, els := r.exec &&& ~~~ m,
                          rejoin := (r.rel f.i32).pc.extractLsb' 2 46, fmt := r.fmt }
      .done s { r.next f with stack := r.stack.set r.depth e, depth := r.depth + 1, exec := r.exec &&& m }

/-- The top entry. -/
def Group.top (r : Group) : SEntry := r.stack.getD (r.depth - 1) {}

def execDelse (f : Fields) (s : State) : Host.Outcome State Fault Refusal :=
  issue 0 f (shapeDelse f) s fun s _ r =>
    if r.depth = 0 || r.top.isSealed || r.top.elseDone then .fatal { code := Code.divdepth }
    else
      let e := r.top
      let r' := if e.els = 0 then { r with pc := e.rejoin ++ (0 : BitVec 2) } else r.next f
      .done s { r' with stack := r.stack.set (r.depth - 1) { e with elseDone := true }, exec := e.els, fmt := e.fmt }

def execDpop (f : Fields) (s : State) : Host.Outcome State Fault Refusal :=
  issue 0 f (shapeDpop f) s fun s _ r =>
    if r.depth = 0 || r.top.isSealed then .fatal { code := Code.divdepth }
    else .done s { r.next f with exec := r.top.exec, fmt := r.top.fmt, depth := r.depth - 1 }

/-! ### Format and pacing (R108, R109) -/

def execSetfmt (f : Fields) (s : State) : Host.Outcome State Fault Refusal :=
  issue 0 f (shapeSetfmt f) s fun s _ r =>
    if f.fnIs 0 then .done s { r.next f with fmt := f.imm.setWidth 16 }
    else
      let x := (s.gr r f.a.toNat).setWidth 16
      if fmtReserved x then .fatal { code := Code.fmtx } else .done s { r.next f with fmt := x }

/-- The group waits at YIELD until YIELD_END. -/
def execYield (f : Fields) (s : State) : Host.Outcome State Fault Refusal :=
  issue 0 f (shapeYield f) s fun s _ r => .hold s { r with wait := .yield }

/-- The group waits at SLEEP until SLEEP_EXPIRY. -/
def execSleep (f : Fields) (s : State) : Host.Outcome State Fault Refusal :=
  issue 0 f (shapeSleep f) s fun s _ r => .hold s { r with wait := .sleep }

/-! ### Special registers and lane choice (R55, R110, R111) -/

/-- A special register's value in lane `l` (R55). -/
def State.special (s : State) (g : Gid) (r : Group) (u : Bool) (sel l : Nat) : W64 :=
  let c := s.crewOf g r
  let n := BitVec.ofNat 64
  match sel with
  | 0 => n l
  | 1 => n (l / 4)
  | 2 => n (if u then r.grp else r.homeGrp l)
  | 3 => n c.index
  | 4 => n c.sheaf
  | 5 => n g.core
  | 6 => n (clusterOf g.core)
  | 7 => n (dieOf g.core)
  | 8 => s.dev.hb
  | 9 => n c.asid
  | _ => (s.fpxOf r l).setWidth 64

def execMovs (f : Fields) (s : State) : Host.Outcome State Fault Refusal :=
  issue 0 f (shapeMovs f) s fun s g r =>
    let sel := f.a.toNat
    if f.u then .done (s.setG r f.d.toNat (s.special g r true sel 0)) (r.next f)
    else .done (s.writeV r (s.activeLanes r f) fun l =>
        let x := s.special g r false sel l
        if sel = 8 then pieces f.d.toNat (halves x) else [(f.d.toNat, x.setWidth 32)]) (r.next f)

/-- The reserved bits of %fpx are ignored (R9, R131). -/
def fpxMask : W32 := 0x00FF00FF

def execMovsw (f : Fields) (s : State) : Host.Outcome State Fault Refusal :=
  issue 0 f (shapeMovsw f) s fun s _ r =>
    .done ((s.activeLanes r f).foldl (fun t l => t.setFpx r l (s.a32 r f l &&& fpxMask)) s) (r.next f)

def execLeader (f : Fields) (s : State) : Host.Outcome State Fault Refusal :=
  issue 0 f (shapeLeader f) s fun s _ r =>
    let ls := s.activeLanes r f
    let x := if f.fnIs 1 then ls.getLastD 32 else ls.headD 32
    .done (s.writeP r ls f.d.toNat fun l => l = x) (r.next f)

/-! ### Helper lanes (R112) -/

/-- The lanes of every quad that holds a lane of EXEC. -/
def quadMask (exec : W32) : W32 :=
  laneMask (allLanes.filter fun l => (List.range 4).any fun i => exec.getLsbD (l - l % 4 + i))

/-- A lane whose thread has exited becomes a helper lane of its quad too: R112's text counts lanes by EXEC
alone, against R99's last sentence (log 85: DEDUCED, unsafe). -/
def execHelperOn (f : Fields) (s : State) : Host.Outcome State Fault Refusal :=
  issue 0 f (shapeHelperOn f) s fun s _ r =>
    let h := quadMask r.exec &&& ~~~ r.exec
    .done s { r.next f with hlp := r.hlp ||| h, exec := r.exec ||| h }

def execHelperOff (f : Fields) (s : State) : Host.Outcome State Fault Refusal :=
  issue 0 f (shapeHelperOff f) s fun s _ r =>
    .done s { r.next f with exec := r.exec &&& ~~~ r.hlp, hlp := 0 }

def execHelperRd (f : Fields) (s : State) : Host.Outcome State Fault Refusal :=
  issue 0 f (shapeHelperRd f) s fun s _ r =>
    .done (s.writeP r (s.activeLanes r f) f.d.toNat fun l => r.hlp.getLsbD l) (r.next f)

end Sys2Proof.Machine
end

