-- ==== Sys2Proof/Machine/Recovery.lean ====
section
/-! DEFINITION. The ends of groups: EXIT (R99, R100); lane-level traps and handler groups: TRAP, TRET,
TRAP_COMPACTION (R317 to R323); crew-fatal stops, the fatal handler, kills (R324 to R326); DUMP (R327 to
R330, R365, R366); ERRINJ (R338); the firmware default handlers (R319). -/

namespace Sys2Proof.Machine

/-! ### Fault records as bytes (R305, R316) -/

def FRec.bytes (r : FRec) : List Byte :=
  leBytes 2 r.code ++ leBytes 2 r.tag ++ leBytes 2 (r.acc + r.lvl * 16) ++ leBytes 2 r.asid ++ leBytes 8 r.va.toNat ++
    leBytes 8 r.pte.toNat ++ leBytes 8 r.pc.toNat ++ leBytes 4 r.who.toNat ++ leBytes 4 r.lanes.toNat ++
    leBytes 4 (r.need + r.creg * 256) ++ leBytes 4 r.b2c.toNat ++ leBytes 8 r.b30.toNat ++ leBytes 8 r.b38.toNat

/-! ### Kills (R326) -/

/-- A saved crew of a killed grid ends where it lies: its frames return (log 26: DESIGN CHOICE, unsafe). -/
def State.killSaved (s : State) (launch : Nat) : State :=
  (s.saved.filter fun e => e.2.crew.launch = launch).foldl (fun s e =>
    ((({ s with saved := tdel s.saved e.1 } : State).endReservation e.1).giveFrames (s.partOf e.2.crew.asid)
      e.2.frames).crewGone launch) s

/-- A stopped crew is killed: the grid takes no further sheaf, its other crews are killed with KILLED, and
this one's groups end and its holdings return. -/
def State.killCrew (s : State) (core slot : Nat) : State :=
  match s.crew? core slot with
  | none => s
  | some c =>
    let code := (c.stop.map fun st => st.frec.code).getD Code.killed
    let first := match tfind s.launches c.launch with | some x => x.code.isNone | none => false
    let s := { s with launches := tmod s.launches c.launch fun x => { x with code := some (x.code.getD code) } }
    let s := if first then
        let others := s.crews.filterMap fun e =>
          if e.2.launch = c.launch && e.2.uid != c.uid && !e.2.tentative && e.2.stop.isNone then some (e.1 / 16, e.1 % 16) else none
        (others.foldl (fun s k => s.stopCrew k.1 k.2 none { code := Code.killed }) s).killSaved c.launch
      else s
    let used := ((s.crewGroups core slot).filter fun e => e.1.hnd).length + ((c.stop.map fun st => st.hnds.length).getD 0)
    let s := s.modCore core fun x => { x with trapPool := x.trapPool + used }
    (s.dropCrew core slot).crewGone c.launch

/-- Whether a record still waits to be written. -/
def State.pendingRec (s : State) (id : Nat) : Bool := s.records.any fun x => x.2.id = id

/-- Whether every record of a stop has been raised and written: the crew-fatal one, those of other faults and of
the dump (R305, R368). -/
def State.stopWritten (s : State) (c : Crew) : Bool :=
  match c.stop with
  | some st => st.others.isEmpty && !(st.more.any s.pendingRec) && match st.recId with
    | some id => !s.pendingRec id
    | none => false
  | none => true

/-! ### EXIT (R99) -/

/-- A thread's lane leaves its group for good. -/
def Group.exitLanes (r : Group) (ls : List Nat) : Group := ls.foldl Group.clearLane r

/-- The parked group loses threads that end in a handler group, with their traps (log 39: DEDUCED, unsafe). -/
def State.exitParked (s : State) (g : Gid) (r : Group) (ls : List Nat) : State :=
  match r.kind with
  | .handler _ =>
    let at_ := fun l => ({ core := g.core, slot := r.orig.getD l 32 } : Gid)
    let s := ls.foldl (fun s l => s.modGroup (at_ l) fun o =>
      { o.clearLane l with traps := o.traps.filter fun t => t.lane != l }) s
    ls.foldl (fun s l => (s.reap (at_ l)).seqRest g.core r.crew) s
  | _ => s

/-- What follows once a group has no live thread. -/
def State.groupEnds (s : State) (g : Gid) (r : Group) : State :=
  match r.kind with
  | .handler _ => (s.putGroup g r).endHandler g
  | .fatal _ =>
    (s.putGroup g r).modCrew g.core r.crew fun c => { c with stop := c.stop.map fun st => { st with ended := true } }
  | _ => ((s.putGroup g r).reap g).seqRest g.core r.crew

/-- EXIT. A new group of REPACK takes no EXIT with U=1 (R106). -/
def execExit (f : Fields) (s : State) : Host.Outcome State Fault Refusal :=
  issue 0 f (shapeExit f) s fun s g r =>
    if f.u && r.isPacked then .fatal { code := Code.repackx }
    else
      let ls := if f.u then maskLanes r.live else s.activeLanes r f
      let r1 := if f.u then r.exitLanes allLanes else r.exitLanes ls
      let s1 := s.exitParked g r ls
      if r1.live != 0 then .done s1 (r1.next f)
      else .ended (s1.groupEnds g { r1.next f with wait := .none, wskip := false })

/-! ### TRAP and TRET (R320, R321) -/

def execTrap (f : Fields) (s : State) : Host.Outcome State Fault Refusal :=
  issue 0 f (shapeTrap f) s fun s _ r =>
    .ok s (r.next f) none [] ((s.contrib r f).map fun l => s.trapFrame r f (shapeTrap f) l Code.trapsw 0 f.i32)

def execTrapHset (f : Fields) (s : State) : Host.Outcome State Fault Refusal :=
  issue 0 f (shapeTrapSet 1 f) s fun s g r =>
    .done (s.modCrew g.core r.crew fun c => { c with hent := (s.gr r f.a.toNat).setWidth 32, harg := s.gr r f.b.toNat }) (r.next f)

def execTrapFset (f : Fields) (s : State) : Host.Outcome State Fault Refusal :=
  issue 0 f (shapeTrapSet 2 f) s fun s g r =>
    .done (s.modCrew g.core r.crew fun c => { c with fent := (s.gr r f.a.toNat).setWidth 32, farg := s.gr r f.b.toNat }) (r.next f)

/-- The parked group of a handler group's lane. -/
def State.origin (s : State) (g : Gid) (r : Group) (l : Nat) : Option Group :=
  s.group? { core := g.core, slot := r.orig.getD l 32 }

/-- TRET and TRET.wr: the Active lanes' threads return. -/
def State.tretRes (s : State) (g : Gid) (r : Group) (f : Fields) (wr : Bool) : Res :=
  match r.kind with
  | .handler _ =>
    let ls := s.activeLanes r f
    let bad := ls.filter fun l => wr && (match s.origin g r l with
      | some o => decide (32 * o.gran ≤ f.d.toNat)
      | none => false)
    match bad with
    | l :: _ => .fatal { code := Code.illreg, lanes := laneMask bad, who := whoOf g r.crew l }
    | [] =>
      if wr && ls.any fun l => match s.origin g r l with | some o => s.writesHeld o [f.d.toNat] | none => false then .retry else
      let s1 := if wr then ls.foldl (fun (t : State) l => match s.origin g r l with
          | some o => t.setV o f.d.toNat l (s.src32 r false f.ka f.a l)
          | none => t) s
        else s
      let r1 := r.next f
      let s2 := s1.unpark g r1 ls
      match s2.group? g with
      | some r2 => if (laneMask ls &&& r.live) = r.live then .ended s2 else .done s2 r2
      | none => .ended s2
  | _ => .fatal { code := Code.tretx }

def execTret (f : Fields) (s : State) : Host.Outcome State Fault Refusal :=
  issue 0 f (shapeTret f) s fun s g r => s.tretRes g r f false

def execTretWr (f : Fields) (s : State) : Host.Outcome State Fault Refusal :=
  issue 0 f (shapeTretWr f) s fun s g r => s.tretRes g r f true

/-! ### TRAP_COMPACTION (R317, R318) -/

/-- A trapped lane that awaits compaction, with its parked group's place. -/
structure Waiting where
  slot : Nat
  grp : Group
  t : TrapLane

/-- The parked lanes of a crew that await compaction, in slot order; the reads of their group's LPEEKs have been made
(log 97: DEDUCED, unsafe). -/
def State.awaiting (s : State) (core slot : Nat) : List Waiting :=
  ((s.crewGroups core slot).filter fun e => !e.1.hnd && e.2.wait = .none && e.2.peeks.isEmpty).flatMap fun e =>
    (e.2.traps.filter fun t => !t.inHandler).map fun t => { slot := e.1.slot, grp := e.2, t := t }

/-- The frame's registers V0 to V10. -/
def frameWords (core crew slot : Nat) (t : TrapLane) : List W32 :=
  [BitVec.ofNat 32 (t.code + t.lane * 2 ^ 16 + slot * 2 ^ 24), BitVec.ofNat 32 (crew + core * 2 ^ 8)] ++
    halves (t.pc.setWidth 64) ++ halves t.addr ++ [t.detail, 0, t.a, t.b, t.c]

/-- Forms one handler group of the threads given, in an issue slot (R318). (Log 36: DESIGN CHOICE, unsafe.) -/
def State.formHandler (s : State) (core crew issueSlot : Nat) (c : Crew) (ws : List Waiting) : State :=
  let (uid, s) := s.fresh
  let at_ := fun l => ws.find? fun w => w.t.lane == l
  let mask := laneMask (ws.map fun w => w.t.lane)
  let grp := match s.group? { core := core, slot := issueSlot } with | some p => p.grp | none => 0
  let r : Group := {
    crew := crew, uid := uid, grp := grp, exec := mask, live := mask, kind := .handler (c.hent = 0),
    homes := allLanes.map fun l => match at_ l with | some w => (uid, w.grp.homeGrp l) | none => (0, 0),
    orig := allLanes.map fun l => match at_ l with | some w => w.slot | none => 32,
    spawned := ws.any fun w => w.grp.spawned }
  let r := r.goto (c.kcode + c.hent.setWidth 64)
  let s := s.writeV r (ws.map fun w => w.t.lane) fun l => match at_ l with
    | some w => pieces 0 (frameWords core crew w.slot w.t)
    | none => []
  let s := (s.setG r 0 c.argp).setG r 1 c.harg
  let s := ws.foldl (fun s w => s.modGroup { core := core, slot := w.slot } fun o =>
    { o with traps := o.traps.map fun t => if t.lane = w.t.lane then { t with inHandler := true } else t }) s
  (s.putGroup { core := core, slot := issueSlot, hnd := true } r).modCore core fun x => { x with trapPool := x.trapPool - 1 }

/-- The issue slot of handler group `n` of a compaction over the suppliers `sup`: theirs in order, or the
lowest of its own suppliers' that no handler group holds. (Log 55: DEDUCED, unsafe.) -/
def State.handlerSlot (s : State) (core : Nat) (sup own : List Nat) (n : Nat) : Option Nat :=
  let held := fun k => (s.group? { core := core, slot := k, hnd := true }).isSome
  match sup[n]? with
  | some k => if held k then (sortNat own).find? fun k => !held k else some k
  | none => (sortNat own).find? fun k => !held k

/-- Whether some slot that supplies a waiting lane holds no handler group. -/
def State.canForm (s : State) (core : Nat) (ws : List Waiting) : Bool :=
  ws.any fun w => (s.group? { core := core, slot := w.slot, hnd := true }).isNone

/-- Orders waiting lanes: those left without a granule first, the oldest first; then by slot (R317, R339). -/
def olderFirst (ws : List Waiting) : List Waiting :=
  let key := fun (w : Waiting) => if w.t.since = 0 then 2 ^ 64 else w.t.since
  (sortNat (ws.map key)).flatMap fun k => ws.filter fun w => key w = k

/-- Whether another crew of the core, which could form a handler group, has lanes that wait longer. -/
def State.olderElsewhere (s : State) (core slot : Nat) (ws : List Waiting) : Bool :=
  let since := fun (ws : List Waiting) => ((olderFirst ws).headD { slot := 0, grp := { crew := 0, uid := 0 }, t := { lane := 0, code := 0, pc := 0 } }).t.since
  let me := since ws
  s.crews.any fun e => e.1 / 16 == core && e.1 % 16 != slot && e.2.stop.isNone &&
    (let o := s.awaiting core (e.1 % 16)
     s.canForm core o && since o != 0 && (me == 0 || decide (since o < me)))

/-- The lanes of a crew that wait on without a granule are marked with the time. -/
def State.stampWaiting (s : State) (core slot : Nat) : State :=
  if (s.core core).trapPool != 0 || (s.awaiting core slot).isEmpty then s
  else
    let (id, s) := s.fresh
    (s.awaiting core slot).foldl (fun s w => s.modGroup { core := core, slot := w.slot } fun o =>
      { o with traps := o.traps.map fun t => if t.lane = w.t.lane && t.since = 0 then { t with since := id } else t }) s

/-- TRAP_COMPACTION: a save under way is given up, since the crew has lanes for a handler group (R299). -/
def execTrapCompaction (core slot : Nat) (s : State) : Host.Outcome State Fault Refusal :=
  match s.crew? core slot with
  | none => .next s
  | some c =>
    let ws := olderFirst (s.awaiting core slot)
    if c.stop.isSome || ws.isEmpty then .next s
    else
      let s := if c.saving then s.dropSave c else s
      if s.olderElsewhere core slot ws then .next s
      else
        let sup := sortNat (ws.map (·.slot))
        let nth := fun n => allLanes.filterMap fun l => (ws.filter fun w => w.t.lane == l)[n]?
        .next (((List.range sup.length).foldl (fun s n =>
          let mine := nth n
          if mine.isEmpty || (s.core core).trapPool = 0 then s
          else match s.handlerSlot core sup (mine.map (·.slot)) n with
            | some k => s.formHandler core slot k c mine
            | none => s) s).stampWaiting core slot)

/-! ### Dumps (R327 to R330, R365, R366) -/

/-- The crew's groups but its fatal handler group, in slot order, with their flags: in one slot the group
that issues there, a parked participant, a handler group. (Log 52: DEDUCED, unsafe.) -/
def State.dumpGroups (s : State) (core slot : Nat) (c : Crew) : List (Nat × Nat × Group) :=
  let fslot := match c.stop with
    | some st => if st.frec.who = 0xFFFFFFFF then 64 else bitsOf st.frec.who 20 16
    | none => 64
  let hf := match c.stop with | some st => st.frec.code = Code.hfault | none => false
  let gs := s.crewGroups core slot
  (List.range 32).flatMap fun k =>
    ((gs.filter fun e => e.1.slot = k && !e.1.hnd).map fun e =>
      (k, (if k = fslot && !hf then 1 else 0) + (if e.2.traps.isEmpty then 0 else 2) + (if e.2.isPacked then 4 else 0), e.2)) ++
    ((c.parts.filter fun e => e.1 = k).map fun e => (k, 2, e.2)) ++
    (((c.stop.map fun st => st.hnds).getD []).filter fun e => e.1 = k).map fun e =>
      (k, (if k = fslot && hf then 1 else 0) + 8, e.2)

/-- The six sections. -/
def State.dumpSections (s : State) (core slot : Nat) (c : Crew) : List (List Byte) :=
  let gs := s.dumpGroups core slot c
  [ gs.flatMap fun e => s.groupRecord e.1 e.2.1 e.2.2,
    gs.flatMap fun e => e.2.2.stackBytes,
    c.barBytes,
    s.sbytes c.uid 0 (c.hold.sg * 16384),
    (List.range c.hold.ms).flatMap (s.siloBlock c.uid),
    ((c.stop.map fun st => st.ranges).getD []).flatMap fun x =>
      leBytes 8 x.1 ++ leBytes 8 x.2.1 ++ leBytes 8 x.2.2.1 ++ leBytes 8 x.2.2.2 ]

/-- The header as it is written first: FLAGS, WRITTEN, SCODE and SVA are 0 (R328, R330). -/
def State.dumpHeader (s : State) (core slot : Nat) (c : Crew) (secs : List (List Byte)) : List Byte :=
  let need := 128 + (secs.map List.length).sum
  let off := fun i => 128 + ((secs.take i).map List.length).sum
  leBytes 4 0x455A4455 ++ leBytes 2 1 ++ leBytes 2 0 ++ leBytes 8 need ++ leBytes 8 0 ++ leBytes 2 0 ++
    [BitVec.ofNat 8 (s.dumpGroups core slot c).length, BitVec.ofNat 8 c.hold.ms,
     BitVec.ofNat 8 ((c.stop.map fun st => st.ranges.length).getD 0), 0, 0, 0] ++ leBytes 8 0 ++
    ((List.range 6).flatMap fun i => leBytes 4 (off i)) ++ ((c.stop.map fun st => st.frec.bytes).getD (List.replicate 64 0))

/-- Bytes at addresses from `a` on. -/
def cellsAt (a : Nat) (bs : List Byte) : List (Nat × Byte) := (List.range bs.length).map fun i => (a + i, bs.getD i 0)
/-- The closing rewrite of the header at `a`: FLAGS, WRITTEN, SCODE and SVA alone (R330). -/
def dumpClosing (a flags written scode sva : Nat) : List (Nat × Byte) :=
  cellsAt (a + 6) (leBytes 2 flags) ++ cellsAt (a + 16) (leBytes 8 written ++ leBytes 2 scode) ++ cellsAt (a + 32) (leBytes 8 sva)

/-- What a write of a dump comes to. -/
inductive DumpWrite where
  | ok (s : State)
  | fault (fr : FRec)
  /-- A write that met CAPF waits for the page (R304). -/
  | busy

/-- Writes bytes of the buffer, all of them or none; `lk`: a write over a link meets a link error (R302, R370). -/
def State.dumpWrite (s : State) (me : Party) (lk : Bool) (core asid : Nat) (cs : List (Nat × Byte)) : DumpWrite :=
  match s.copyPlaces core 0 0 asid false Acc.store (cs.map (·.1)) with
  | .error fr => .fault fr
  | .ok ps =>
    let cells := (List.range cs.length).map fun i => ((cs.getD i (0, 0)).1, ps.getD i 0, (cs.getD i (0, 0)).2)
    match cells.find? fun x => lk && overLink x.2.1 with
    | some x => .fault { code := Code.addrv, acc := Acc.store, asid := asid, va := BitVec.ofNat 64 x.1 }
    | none => match s.workWrite me core asid cells with
      | .ok s' => .ok s'
      | .busy => .busy
      | .capf fr => .fault fr

/-- Bytes from an address on, page by page. -/
def byPages (a : Nat) (bs : List Byte) : List (Nat × List Byte) :=
  let p := a / 4096 * 4096
  (List.range ((a % 4096 + bs.length + 4095) / 4096)).map fun i =>
    let lo := max a (p + 4096 * i)
    (lo, (bs.drop (lo - a)).take (min (a + bs.length) (p + 4096 * (i + 1)) - lo))

/-- What writing pages in order comes to: the state, with the address and the fault that ended it. -/
inductive DumpPages where
  | upTo (s : State) (bad : Option (Nat × FRec))
  | busy

def State.dumpPages (s : State) (me : Party) (lk : Bool) (core asid : Nat) : List (Nat × List Byte) → DumpPages
  | [] => .upTo s none
  | x :: t => match s.dumpWrite me lk core asid (cellsAt x.1 x.2) with
    | .busy => .busy
    | .fault fr => .upTo s (some (x.1, fr))
    | .ok s' => s'.dumpPages me lk core asid t

/-- What a step of DUMP comes to: it waits, goes on in the wait given, or is complete with the value of G[D]. -/
inductive DumpStep where
  | retry
  | hold (s : State) (w : Wait)
  | done (s : State) (x : W64)

/-- The record of a dump's fault in the crew's fault ring, which the kill waits for (R365, R368). -/
def State.dumpNote (s : State) (g : Gid) (r : Group) (asid : Nat) (pc : BitVec 48) (fr : FRec) : State :=
  let s := s.raise (s.partOf (s.asidOf g r)) { fr with
    acc := Acc.store, asid := asid, pc := pc, who := whoOf g r.crew 0, lanes := 0, b2c := 0, b30 := 0, b38 := 0 }
  let id := (s.records.getLastD (0, { code := 0 })).2.id
  s.modCrew g.core r.crew fun c => { c with stop := c.stop.map fun st => { st with more := st.more ++ [id] } }

/-- The value of G[D]: bytes written, TRUNC, INCOMP (R327). -/
def dumpValue (written : Nat) (trunc incomp : Bool) : W64 :=
  BitVec.ofNat 64 (written + trunc.toNat * 2 ^ 62 + incomp.toNat * 2 ^ 63)

/-- A step of a dump (R327, R330): the header with FLAGS and WRITTEN 0, once the dumping group's older stores are in
place; the sections up to the first fault or the buffer's end; the header's closing rewrite. `asid` is the buffer's
address space, `pc` the dumping instruction's. Each page that it writes is counted once (R297). (Log 53: DEDUCED,
unsafe.) -/
def State.dump (s : State) (g : Gid) (r : Group) (asid : Nat) (buf : W64) (size : Nat) (pc : BitVec 48) : DumpStep :=
  let c := s.crewOf g r
  let a := buf.toNat
  let me := Party.group r.uid
  let secs := s.dumpSections g.core r.crew c
  let need := 128 + (secs.map List.length).sum
  match r.wait with
  | .dump none =>
    let lim := min need size
    let pages := byPages (a + 128) (secs.flatten.take (lim - 128))
    -- the pages below `v` that the header did not touch
    let count := fun (t : State) (v : Nat) => t.translatedAll g.core asid
      ((pages.map (·.1)).filter fun x => decide (x < v) && (a + 127) / 4096 < x / 4096)
    match s.dumpPages me r.linkBad g.core asid pages with
    | .busy => .retry
    | .upTo s1 none => .hold (count s1 (2 ^ 64)) (.dump (some (lim, 0, 0, decide (size < need))))
    | .upTo s1 (some (v, fr)) =>
      .hold ((count s1 v).dumpNote g r asid pc { fr with va := BitVec.ofNat 64 v }) (.dump (some (v - a, fr.code, v, false)))
  | .dump (some (written, code, sva, trunc)) =>
    let flags := trunc.toNat + (if code = 0 then 0 else 2)
    match s.dumpWrite me r.linkBad g.core asid (dumpClosing a flags written code sva) with
    | .busy => .retry
    | .fault fr => .done (s.dumpNote g r asid pc fr) (dumpValue 0 false true)
    | .ok s1 => .done s1 (dumpValue written trunc (code != 0))
  | _ =>
    if !r.outbox.isEmpty then .retry
    else if a % 64 != 0 then .done (s.dumpNote g r asid pc { code := Code.addrv, va := buf }) (dumpValue 0 false true)
    else if size < 128 then .done s (dumpValue 0 true false)
    else match s.dumpWrite me r.linkBad g.core asid (cellsAt a (s.dumpHeader g.core r.crew c secs)) with
      | .busy => .retry
      | .fault fr => .done (s.dumpNote g r asid pc fr) (dumpValue 0 false true)
      | .ok s1 => .hold (s1.translatedAll g.core asid [a, a + 127]) (.dump none)

/-- A link error that a dump's write has met is over (R365). -/
def Group.dumpMet (r : Group) (w : Wait) : Group :=
  { r with wait := w, linkBad := r.linkBad && match w with | .dump (some (_, code, _, _)) => code == 0 | _ => true }

def execDump (f : Fields) (s : State) : Host.Outcome State Fault Refusal :=
  issue 0 f (shapeDump f) s fun s g r =>
    match r.kind with
    | .fatal _ =>
      match s.dump g r (s.asidOf g r) (s.gr r f.a.toNat) (s.gr r f.b.toNat).toNat r.pc with
      | .retry => .retry
      | .hold s1 w => .hold s1 (r.dumpMet w)
      | .done s1 x => .done (s1.setG r f.d.toNat x) { r.next f with wait := .none, linkBad := r.linkBad && !bitOf x 63 }
    | _ => .done (s.setG r f.d.toNat (dumpValue 0 true false)) (r.next f)

/-! ### FATAL_HANDLER_START (R325, R326) -/

/-- DUMPD of a partition. -/
def State.dumpd (s : State) (part : Nat) : W64 := s.partReg part 0x18

/-- Every group of the crew has stopped or ended, its sequencer too. -/
def State.allStopped (s : State) (core slot : Nat) : Bool :=
  (s.crewGroups core slot).all fun e => e.2.halt.cause = 7 || e.2.live = 0

/-- The groups that a stop stopped, by slot: those of the crew, its lane-level handler groups, the parked
participants of a REPACK (R324). -/
def State.stoppedGroups (s : State) (core slot : Nat) (c : Crew) : List (Nat × Group) :=
  let own := (s.crewGroups core slot).filter fun e => match e.2.kind with | .fatal _ => false | _ => true
  (own.map (fun e => (e.1.slot, e.2)) ++ ((c.stop.map fun st => st.hnds).getD []) ++ c.parts).filter fun e => e.2.halt.cause = 7

/-- A crew-fatal record as it is written: the groups stopped and the skids of slots 0 to 15 (R316). -/
def State.stopRecord (s : State) (core slot : Nat) (c : Crew) (fr : FRec) : FRec :=
  let gs := s.stoppedGroups core slot c
  if fr.code = Code.engreset then fr
  else { fr with
    b2c := BitVec.ofNat 32 (slot + gs.length % 256 * 2 ^ 8 + bitsOf fr.b2c 31 16 * 2 ^ 16),
    b30 := BitVec.ofNat 64 ((List.range 16).map fun k =>
      ((gs.filter fun e => e.1 = k).map fun e => e.2.skid).sum % 16 * 2 ^ (4 * k)).sum }

/-- What a stopped crew may not finish and has come by since the halt is given up: spawn records, deferred
requests (R325); copies and entries were judged at the halt. Stores that met CAPF, which R325's table does not name, are
given up with them (log 109: DESIGN CHOICE, unsafe). -/
def State.abandon (s : State) (core slot : Nat) (c : Crew) : State :=
  let s := { s with
    groups := s.groups.map fun (e : Nat × Group) =>
      if (keyGid e.1).core = core && e.2.crew = slot then (e.1, { e.2 with outbox := e.2.outbox.filter fun x => !x.stall }) else e }
  s.modCore core fun x => x.strip c.uid slot

/-- Whether the crew's work has settled. (Log 46: DESIGN CHOICE, safe.) -/
def State.settled (s : State) (core slot : Nat) (c : Crew) : Bool :=
  (s.copies.all fun e => e.2.uid != c.uid) && (s.ops.all fun e => e.2.uid != c.uid) &&
    (s.crewGroups core slot).all fun e => e.2.outbox.isEmpty

/-- The issue slot of the fatal handler (R326): a crew that held none takes a slot that no admission in flight needs
(R69). -/
def State.fatalSlot (s : State) (core : Nat) (st : Stop) : Option Nat :=
  match sortNat st.slots with
  | k :: _ => some k
  | [] => if s.tentSlots core < (s.freeSlots core).length then (s.freeSlots core).head? else none

/-- The fatal handler group. -/
def State.startFatal (s : State) (core slot issueSlot : Nat) (c : Crew) (st : Stop) : State :=
  let hs := ((s.crewGroups core slot).filter fun e => e.1.hnd).map fun e => (e.1.slot, e.2)
  let s := { s with groups := s.groups.filter fun e => !((keyGid e.1).core == core && (keyGid e.1).hnd && e.2.crew == slot) }
  let (uid, s) := s.fresh
  let r : Group := { crew := slot, uid := uid, kind := .fatal (c.fent = 0) }
  let r := r.goto (c.kcode + c.fent.setWidth 64)
  let s := ((s.setG r 0 c.argp).setG r 1 c.farg).setG r 2 (s.dumpd (s.partOf c.asid))
  let s := s.putGroup { core := core, slot := issueSlot, hnd := true } r
  let s := s.modCore core fun x => { x with trapPool := x.trapPool - 1 }
  s.putCrew core slot { c with stop := some { st with handler := true, hnds := hs } }

/-- Raises records of a stop: the state, and their identifiers. -/
def State.raiseStop (s : State) (core slot : Nat) (c : Crew) (frs : List FRec) : State × List Nat :=
  let s1 := frs.foldl (fun (t : State) fr => t.raise (s.partOf c.asid) (s.stopRecord core slot c fr)) s
  (s1, (s1.records.drop s.records.length).map fun x => x.2.id)

/-- One step of a stopped crew towards its end: its record is raised once every group has stopped, and those of
other faults with it or when they come; the fatal handler starts once the records are written and the work has
settled; a crew whose handler has ended, or faulted, is killed. -/
def execFatalHandlerStart (core slot : Nat) (s : State) : Host.Outcome State Fault Refusal :=
  match s.crew? core slot with
  | none => .next s
  | some c =>
    match c.stop with
    | none => .next s
    | some st =>
      if st.recId.isNone then
        if !s.allStopped core slot then .next s
        else
          -- a save of the sheaf is given up
          let x := (s.dropSave c).raiseStop core slot { c with saving := false } (st.frec :: st.others)
          .next (x.1.putCrew core slot { c with saving := false, stop := some { st with
            recId := x.2.head?, more := st.more ++ x.2.drop 1, frec := s.stopRecord core slot c st.frec, others := [] } })
      else if !st.others.isEmpty then
        let x := s.raiseStop core slot c st.others
        .next (x.1.putCrew core slot { c with stop := some { st with more := st.more ++ x.2, others := [] } })
      else if !s.stopWritten c then .next s
      else if st.ended then
        -- the handler's outbox drains first (R100)
        if (s.crewGroups core slot).all fun e => e.2.outbox.all (·.stall) then .next (s.killCrew core slot) else .next s
      -- a device that holds issues nothing: a handler under way goes no further (R384)
      else if st.handler then .next (if s.dev.hold then s.killCrew core slot else s)
      else
        let s := s.abandon core slot c
        if !s.settled core slot c then .next s
        -- a device that holds issues nothing: no handler runs (R384, log 74)
        else if s.dev.hold then .next (s.killCrew core slot)
        else if (s.core core).trapPool = 0 then .next s
        else match s.fatalSlot core st with
          | none => .next s
          | some k => .next (s.startFatal core slot k c st)

/-! ### The firmware default handlers (R319) -/

/-- A trapped lane's record (R316): of DBLRES too the body of a lane-level one, with the origin PC at 0x30, and ACC 0
(log 111: DESIGN CHOICE, unsafe). -/
def laneRecord (g : Gid) (r : Group) (asid : Nat) (t : TrapLane) : FRec :=
  { code := t.code, asid := asid, va := t.addr, pc := t.pc,
    who := whoOf { g with slot := r.orig.getD t.lane 32 } r.crew t.lane, lanes := laneMask [t.lane],
    acc := t.acc, b2c := t.detail, b30 := t.pc.setWidth 64 }

/-- One step of the firmware in a default handler group: the lane-level one raises its lanes' records, and
returns the lanes once they are written; the fatal one dumps where R326 allows, and ends. (Log 54: DEDUCED, safe.) A
SZLOG outside 12 to 30 is taken as it stands (log 110: DESIGN CHOICE, unsafe). -/
def State.firmware (s : State) (g : Gid) (r : Group) : State :=
  let c := s.crewOf g r
  let part := s.partOf c.asid
  match r.kind with
  | .handler true =>
    if r.recs.isEmpty then
      let ts := (maskLanes r.live).filterMap fun l => match s.origin g r l with
        | some o => o.traps.find? fun t => t.lane = l
        | none => none
      let s1 := ts.foldl (fun (s : State) t => s.raise part (laneRecord g r c.asid t)) s
      s1.putGroup g { r with recs := (s1.records.drop s.records.length).map fun x => x.2.id }
    else if r.recs.any s.pendingRec then s
    else s.unpark g r (maskLanes r.live)
  | .fatal true =>
    let d := s.dumpd part
    let base : W64 := BitVec.ofNat 64 (bitsOf d 47 12 * 4096)
    let magic := match s.homeLoad g.core (s.fasid part) base.toNat 4 Acc.load with
      | .ok x => x == 0x455A4455
      | .error _ => true
    let close := fun (s : State) => s.groupEnds g { r with exec := 0, live := 0, wait := .none }
    if r.wait = .none && (!bitOf d 63 || magic) then close s
    else match s.dump g r (s.fasid part) base (2 ^ bitsOf d 52 48) 0 with
      | .retry => s
      | .hold s1 w => s1.putGroup g (r.dumpMet w)
      | .done s1 _ => close s1
  | _ => s

/-! ### ERRINJ (R338) -/

/-- Whether a physical address has memory of this device behind it: its own, or a pool window's (R302). -/
def State.hasMemory (s : State) (p : Nat) : Bool := decide (p < s.dev.granary.memb) || s.inPool p

/-- An injection, if it is accepted. -/
def State.errInject (s : State) (target : Nat) (p : W64) : Option State :=
  let cl := bitsOf p 63 0 % 64
  let e := s.engine cl
  match target with
  | 0 => some (s.putEngine cl { e with inject := max e.inject (bitsOf p 31 16) })
  | 1 => some (s.putEngine cl { e with injected := e.injected ++ [bitsOf p 9 8] })
  | 4 => some (s.putEngine cl { e with hang := true })
  | 2 => if !s.hasMemory p.toNat then none
      else if (tfind s.softErr (s.home p.toNat / 16)).isSome then some s
      else some { s with softErr := tput s.softErr (s.home p.toNat / 16) false }
  | 3 => if s.hasMemory p.toNat then some { s with softErr := tput s.softErr (s.home p.toNat / 16) true } else none
  | _ => none

/-- A soft error that arises by itself in memory (R337). -/
def State.memError (s : State) (pa : Nat) (bad : Bool) : State :=
  (s.errInject (if bad then 3 else 2) (BitVec.ofNat 64 pa)).getD s

/-- A soft error met in a crew's own registers, scratch or silo (R337): corrected and counted, or MEMERR. -/
def State.crewError (s : State) (core slot : Nat) (bad : Bool) : State :=
  match s.crew? core slot with
  | none => s
  | some c =>
    if c.tentative then s
    else if bad then s.stopCrew core slot none { code := Code.memerr }
    else
      let k := s.dev.granary.corrected + 1
      ({ s with dev := { s.dev with granary := { s.dev.granary with corrected := k } } } : State).logEvent
        LogCode.corrected none (some k)

def execErrinj (f : Fields) (s : State) : Host.Outcome State Fault Refusal :=
  issue 2 f (shapeErrinj f) s fun s _ r =>
    match s.errInject (bitsOf (s.gr r f.a.toNat) 7 0) (s.gr r f.b.toNat) with
    | some s' => .done s' { r.next f with q := setBit r.q f.d.toNat true }
    | none => .done s { r.next f with q := setBit r.q f.d.toNat false }

end Sys2Proof.Machine
end

