-- ==== Sys2Proof/Machine/Debug.lean ====
section
/-! DEFINITION. Watch predicates, breakpoints, inspection, stepping, resuming, the snapshot's trigger,
PROBE and the heartbeat (R31, R32, R340 to R356). -/

namespace Sys2Proof.Machine

/-! ### BKPT (R353) -/

/-- The group halts after its BKPT, with the record; in the skid of a crew-fatal stop the halt is part of
that stop (R349). -/
def State.bkpt (s : State) (g : Gid) (r : Group) (f : Fields) : State × Group :=
  let c := s.crewOf g r
  (s.raise (s.partOf c.asid) { code := Code.bkpt, asid := c.asid, va := f.imm, pc := r.pc, who := whoOf g r.crew 0 },
    { r.next f with
      halt := { cause := if r.bcast.any fun b => b.2 = 7 then 7 else 5 }, bcast := none, skid := r.issuedOne.skidNow })

/-- BKPT: in a handler group a halt is HFAULT, as a fault or trap of any class is (R314, R322). -/
def State.bkptRes (s : State) (g : Gid) (r : Group) (f : Fields) (crew : Bool) : Res :=
  if r.inHandler then .fatal { code := Code.bkpt, va := f.imm }
  else
    let x := s.bkpt g r f
    .done (if crew then x.1.broadcast g.core r.crew (some g) 3 else x.1) x.2

def execBkpt (f : Fields) (s : State) : Host.Outcome State Fault Refusal :=
  issue 0 f (shapeBkpt 0 f) s fun s g r => s.bkptRes g r f false

def execBkptCrew (f : Fields) (s : State) : Host.Outcome State Fault Refusal :=
  issue 0 f (shapeBkpt 1 f) s fun s g r => s.bkptRes g r f true

/-! ### Writing and reading predicates (R345) -/

/-- Where a source is evaluated (R341): before the access, before issue, after completion. -/
def watchPoint (src : Nat) : Nat := if src = 7 then 1 else if src = 0 || src = 1 || src = 3 then 0 else 2

/-- Whether CTL may be written to predicate `n`. -/
def ctlOk (ws : List WPred) (n : Nat) (ctl : W64) : Bool :=
  bitsOf ctl 62 60 != 7 && decide (bitsOf ctl 55 52 < 10) && bitsOf ctl 51 48 == 0 &&
    (!bitOf ctl 59 || (n != 0 && watchPoint (bitsOf (ws.getD (n - 1) {}).ctl 58 56) == watchPoint (bitsOf ctl 58 56)))

/-- STAT (R340). -/
def WPred.stat (w : WPred) : W64 :=
  BitVec.ofNat 64 (w.count + w.owner * 2 ^ 32 + w.owned.toNat * 2 ^ 44 + w.matched.toNat * 2 ^ 45)

/-- Whether an ASID may touch the predicate. -/
def WPred.free (w : WPred) (asid : Nat) : Bool := !w.owned || w.owner == asid

def execWpset (f : Fields) (s : State) : Host.Outcome State Fault Refusal :=
  issue 0 f (shapeWpset f) s fun s g r =>
    let n := f.imm.toNat
    let asid := (s.crewOf g r).asid
    let ws := (s.core g.core).watch
    let ctl := s.gr r f.a.toNat
    if (ws.getD n {}).free asid && ctlOk ws n ctl then
      .predicate s { r.next f with q := setBit r.q f.d.toNat true } n
        { ctl := ctl, opa := s.gr r f.b.toNat, opb := s.gr r f.c.toNat, owned := true, owner := asid }
    else .done s { r.next f with q := setBit r.q f.d.toNat false }

def execWpclr (f : Fields) (s : State) : Host.Outcome State Fault Refusal :=
  issue 0 f (shapeWpclr f) s fun s g r =>
    let n := f.imm.toNat
    if ((s.core g.core).watch.getD n {}).free (s.crewOf g r).asid then
      .predicate s { r.next f with q := setBit r.q f.d.toNat true } n {}
    else .done s { r.next f with q := setBit r.q f.d.toNat false }

def execWprd (f : Fields) (s : State) : Host.Outcome State Fault Refusal :=
  issue 0 f (shapeWprd f) s fun s g r =>
    let w := (s.core g.core).watch.getD (f.immBits 3 0) {}
    let x : W64 := if !w.free (s.crewOf g r).asid then 0 else
      match f.immBits 5 4 with
      | 0 => w.ctl
      | 1 => w.opa
      | 2 => w.opb
      | _ => w.stat
    .done (s.setG r f.d.toNat x) (r.next f)

/-! ### Stops (R324, R347) -/

/-- A group under a halt broadcast stops before its next instruction, its skid recorded; one between two
lanes' steps completes its instruction first, one whose wait has ended leaves it (R349). -/
def State.stopGroup (s : State) (g : Gid) : State :=
  match s.group? g with
  | none => s
  | some r => if r.bcast.isNone || r.wait.midway || s.waitEnds g r then s else s.putGroup g r.joinHalt

/-- Whether a halt has just reached a group whose wait had ended: `s` before the move, `x` the group after it. -/
def State.haltedEarly (s : State) (k : Nat) (x : Group) : Bool :=
  x.halt.cause != 0 && x.halt.waiting && match s.group? (keyGid k) with
    | some r => r.halt.cause = 0 && r.bcast.isNone && r.wait == x.wait && s.waitEnds (keyGid k) r
    | none => false
/-- A halt that reaches a group whose wait has ended lands past its instruction (R349): the wait ends first. -/
def State.endedFirst (s s' : State) : State :=
  if s'.groups.any fun e => s.haltedEarly e.1 e.2 then
    { s' with groups := s'.groups.map fun (e : Nat × Group) =>
        if s.haltedEarly e.1 e.2 then (e.1, { e.2 with halt := {}, bcast := some (0, e.2.halt.cause), before := 0 }) else e }
  else s'

/-- SHEAF_HALT_ARRIVAL: the broadcast reaches another crew of the sheaf (R347). -/
def execSheafHaltArrival (core slot : Nat) (s : State) : Host.Outcome State Fault Refusal :=
  if !(s.core core).sheafHalts.contains slot then .next s
  else .next ((s.modCore core fun c => { c with sheafHalts := c.sheafHalts.erase slot }).broadcast core slot none 4)

/-! ### Inspection (R348, R350) -/

/-- A target: a group where it issues, or a parked participant of REPACK at its place in the crew's list. -/
structure Target where
  g : Gid
  r : Group
  part : Option Nat := none

/-- The target that a WHO word names. (Log 60: DEDUCED, unsafe.) -/
def State.target? (s : State) (w : W64) : Option Target :=
  let core := bitsOf w 7 0
  let slot := bitsOf w 11 8
  let gs := bitsOf w 20 16
  let hnd := bitOf w 23
  if w.toNat != core + slot * 2 ^ 8 + gs * 2 ^ 16 + hnd.toNat * 2 ^ 23 then none
  else
    let g : Gid := { core := core, slot := gs, hnd := hnd }
    match s.group? g with
    | some r => if r.crew = slot then some { g := g, r := r } else none
    | none =>
      if hnd then none
      else match s.crew? core slot with
        | none => none
        | some c =>
          match (List.range c.parts.length).find? fun i => (c.parts.getD i (32, { crew := 0, uid := 0 })).1 = gs with
          | some i => some { g := g, r := (c.parts.getD i (32, { crew := 0, uid := 0 })).2, part := some i }
          | none => none

/-- A target's record replaced. -/
def State.putTarget (s : State) (t : Target) (r : Group) : State :=
  match t.part with
  | none => s.putGroup t.g r
  | some i => s.modCrew t.g.core t.r.crew fun c =>
      { c with parts := c.parts.set i ((c.parts.getD i (t.g.slot, r)).1, r) }

/-- Whether the target is parked (R348). -/
def Target.parked (t : Target) : Bool := t.part.isSome || !t.r.traps.isEmpty
/-- Whether it is halted and may be inspected; a group that is being stepped counts as running (log 27: DEDUCED,
unsafe). -/
def Target.halted (t : Target) : Bool := t.r.halt.cause != 0 && t.r.stepper.isNone

/-- The halt status word (R348). -/
def Target.status (t : Target) : W64 :=
  let r := t.r
  let h := r.halt
  let watch := h.cause = 1 || h.cause = 2
  BitVec.ofNat 64 ((h.cause != 0).toNat + t.parked.toNat * 2 + (r.isPacked).toNat * 4 + (r.inHandler).toNat * 8 +
    h.waiting.toNat * 16 + r.wskip.toNat * 32 + h.cause % 16 * 2 ^ 12 + r.skid % 16 * 2 ^ 16 +
    (if watch then h.wpn % 16 * 2 ^ 20 + h.focus % 32 * 2 ^ 24 + h.hlanes.toNat * 2 ^ 32 else 0))

/-- Whether the group holds a thread in the lane. -/
def Group.hasThread (r : Group) (l : Nat) : Bool :=
  r.home l != 0 && (r.orig.isEmpty || r.orig.getD l 32 != 32)

/-- A selector's fields. -/
structure HSel where
  cls : Nat
  lane : Nat
  idx : Nat

def hselOf (w : W64) : HSel := { cls := bitsOf w 31 28, lane := bitsOf w 20 16, idx := bitsOf w 7 0 }

/-- A stack entry as the number of 128 bits (R101). -/
def SEntry.num (e : SEntry) : Nat := leNat e.bytes

/-- The value a selector names. -/
def State.inspect (s : State) (t : Target) (x : HSel) : W64 :=
  let r := t.r
  match x.cls with
  | 0 => if r.hasThread x.lane then (s.v r x.idx x.lane).setWidth 64 else 0
  | 1 => s.gr r x.idx
  | 2 => (laneMask (allLanes.filter fun l => r.hasThread l && s.p r x.idx l)).setWidth 64
  | 3 => r.q.setWidth 64
  | 4 => r.exec.setWidth 64
  | 5 => r.fmt.setWidth 64
  | 6 => r.pc.setWidth 64
  | 7 => BitVec.ofNat 64 (r.stack.getD x.idx {}).num
  | 8 => BitVec.ofNat 64 ((r.stack.getD x.idx {}).num / 2 ^ 64)
  | 9 => r.ccByte.setWidth 64
  | 10 => r.live.setWidth 64
  | 11 => r.hlp.setWidth 64
  | 12 => BitVec.ofNat 64 r.depth
  | 13 => if r.hasThread x.lane then (s.fpxOf r x.lane).setWidth 64 else 0
  | _ => t.status

/-- HRD's refusals. -/
def Target.refuses (t : Target) (x : HSel) : Bool :=
  !t.halted || (x.cls == 0 && decide (32 * t.r.gran ≤ x.idx))

/-- Whether an operand field, as a destination, names the register of a selector. -/
def slotGives (y : BitVec 8) (x : HSel) : Slot → Bool
  | .v n => x.cls == 0 && decide (y.toNat ≤ x.idx) && decide (x.idx < y.toNat + n)
  | .vr n => x.cls == 0 && decide (y.toNat ≤ x.idx) && decide (x.idx < y.toNat + n)
  | .g n => x.cls == 1 && decide (y.toNat ≤ x.idx) && decide (x.idx < y.toNat + n)
  | .p => x.cls == 2 && y.toNat == x.idx
  | .q => x.cls == 3
  | _ => false

/-- Whether the field C of an instruction that waits is written when the wait ends: TLDT's and FREG.wait's
predicate, QPOP's Qc. -/
def Wait.writesC : Wait → Bool
  | .thresh timed => timed
  | .future _ => true
  | .qpop _ _ => true
  | _ => false

/-- Whether a pending result of the target will write the register named (R350): of a remote access the
lanes' own; of another wait that ends with a result, what the instruction's fields name; an LPEEK's read that is still
to be made. (Log 61: DEDUCED, safe.) -/
def Target.pending (t : Target) (x : HSel) : Bool :=
  let r := t.r
  (x.cls == 1 && r.probes.any fun p => p.2.2 == x.idx) ||
  (x.cls == 0 && r.peeks.any fun p => (p.lanes ++ p.helpers).any (fun e => e.1 == x.lane) &&
    decide (p.f.d.toNat ≤ x.idx) && decide (x.idx < p.f.d.toNat + p.f.latRegs)) ||
  -- a crew-fatal stop abandons the wait (R325)
  r.waits && match r.wait with
  | .none | .page _ _ => false
  | .remote ps _ _ _ _ => ps.any fun p => p.dst.any fun d =>
      (x.cls == 0 && p.lane == x.lane && d.1 == x.idx) || (x.cls == 1 && p.lane == 32 && d.1 == x.idx)
  | w => slotGives r.ins.d x r.insSh.d || (w.writesC && slotGives r.ins.c x r.insSh.c)

/-- HWR's write; none where it is refused, as of LIVE: R350's table and R99's column make it read-only, R99's
sentence does not. (Log 58: DEDUCED, unsafe; log 95: DEDUCED, unsafe.) -/
def State.alter (s : State) (t : Target) (x : HSel) (v : W64) : Option State :=
  let r := t.r
  let put := fun (r' : Group) => some (s.putTarget t r')
  match x.cls with
  | 0 => if r.hasThread x.lane then some (s.setV r x.idx x.lane (v.setWidth 32)) else none
  | 1 => some (s.setG r x.idx v)
  | 2 => some ((allLanes.filter r.hasThread).foldl (fun (s : State) l => s.setP r x.idx l (bitOf v l)) s)
  | 3 => put { r with q := v.setWidth 16 }
  | 4 => put { r with exec := v.setWidth 32 &&& r.live }
  | 5 => if fmtReserved (v.setWidth 16) then none else put { r with fmt := v.setWidth 16 }
  | 6 => if bitsOf v 1 0 != 0 then none else put { r with pc := v.setWidth 48, pcBad := false, wskip := false }
  | 7 => if r.depth ≤ x.idx then none else
      put { r with stack := r.stack.modify x.idx fun e => { e with exec := v.setWidth 32, els := (v.ushiftRight 32).setWidth 32 } }
  | 8 => if r.depth ≤ x.idx then none else
      put { r with stack := r.stack.modify x.idx fun e => { e with rejoin := v.setWidth 46, fmt := (v.ushiftRight 48).setWidth 16 } }
  | 9 => put { r with cc := v.setWidth 4 }
  | 13 => if r.hasThread x.lane then some (s.setFpx r x.lane (v.setWidth 32 &&& fpxMask)) else none
  | _ => none

/-- What HRD comes to: waiting for a result, refused, or the value. -/
inductive HRes where
  | retry
  | refused
  | ok (s : State) (x : W64)

def State.hrd (s : State) (t : Option Target) (x : HSel) : HRes :=
  match t with
  | none => .refused
  | some t => if t.refuses x then .refused else if t.pending x then .retry else .ok s (s.inspect t x)

def State.hwr (s : State) (t : Option Target) (x : HSel) (v : W64) : HRes :=
  match t with
  | none => .refused
  | some t =>
    if t.refuses x || t.r.halt.cause = 7 then .refused
    else if t.pending x then .retry
    else match s.alter t x v with
      | some s' => .ok s' 1
      | none => .refused

/-- Whether a target of another ASID needs a level the issuer lacks (R292). -/
def State.targetBarred (s : State) (g : Gid) (r : Group) (t : Option Target) : Bool :=
  match t with
  | none => false
  | some t => (s.crewOf t.g t.r).asid != (s.crewOf g r).asid && !s.permits g r 2

def execHrd (f : Fields) (s : State) : Host.Outcome State Fault Refusal :=
  issue 1 f (shapeHrd f) s fun s g r =>
    let t := s.target? (s.gr r f.a.toNat)
    if s.targetBarred g r t then .fatal { code := Code.privop }
    else match s.hrd t (hselOf f.imm) with
      | .retry => .retry
      | .refused => .done (s.setG r f.d.toNat 0) { r.next f with q := setBit r.q f.c.toNat false }
      | .ok s x => .done (s.setG r f.d.toNat x) { r.next f with q := setBit r.q f.c.toNat true }

def execHwr (f : Fields) (s : State) : Host.Outcome State Fault Refusal :=
  issue 1 f (shapeHwr f) s fun s g r =>
    let t := s.target? (s.gr r f.a.toNat)
    if s.targetBarred g r t then .fatal { code := Code.privop }
    else match s.hwr t (hselOf f.imm) (s.gr r f.b.toNat) with
      | .retry => .retry
      | .refused => .done s { r.next f with q := setBit r.q f.d.toNat false }
      | .ok s _ => .done s { r.next f with q := setBit r.q f.d.toNat true }

/-! ### Stepping (R351) -/

/-- The report. -/
def hreport (n skipped bits : Nat) : W64 := BitVec.ofNat 64 (n % 256 + skipped % 256 * 2 ^ 8 + bits)

/-- Why HSTEP does not begin: the report's bit. -/
def Target.stepRefused (t : Target) (lane : Nat) : Option Nat :=
  if !t.halted || t.r.halt.cause = 7 || t.parked then some (2 ^ 22)
  else if lane < 32 && !t.r.live.getLsbD lane then some (2 ^ 21)
  else if t.r.halt.waiting && t.r.wait != .none then some (2 ^ 20)
  else none

/-- HSTEP as a group issues it: `lane` is 32 for the plain form. While it waits, a target that has gone or
has stopped on a fault ends the stepping. -/
def State.hstepRes (s : State) (g : Gid) (r : Group) (f : Fields) (lane limit : Nat) : Res :=
  match r.wait with
  | .hstep k _ _ n skipped =>
    let fin := fun bit => Res.done (s.setG r f.d.toNat (hreport n skipped bit)) { r.next f with wait := .none }
    match s.group? (keyGid k) with
    | none => fin (2 ^ 19)
    | some x =>
      if (s.crewOf (keyGid k) x).stop.isSome then fin (2 ^ 18)
      else if x.stepper != some (gidKey g + 1) then fin (2 ^ 19) else .retry
  | _ =>
    let t := s.target? (s.gr r f.a.toNat)
    if s.targetBarred g r t then .fatal { code := Code.privop }
    else match t with
      | none => .done (s.setG r f.d.toNat (hreport 0 0 (2 ^ 22))) (r.next f)
      | some t =>
        match t.stepRefused lane with
        | some b => .done (s.setG r f.d.toNat (hreport 0 0 b)) (r.next f)
        | none => .hold (s.putGroup t.g { t.r with stepper := some (gidKey g + 1) })
            { r with wait := .hstep (gidKey t.g) lane limit 0 0 }

def execHstep (f : Fields) (s : State) : Host.Outcome State Fault Refusal :=
  issue 1 f (shapeHstep f) s fun s g r => s.hstepRes g r f 32 1

def execHstepLane (f : Fields) (s : State) : Host.Outcome State Fault Refusal :=
  issue 1 f (shapeHstepLane f) s fun s g r => s.hstepRes g r f (f.immBits 4 0) (f.immBits 15 8)

/-- The progress of the HSTEP that steps a group: lane, limit, counts. -/
def State.stepping (s : State) (r : Group) : Option (Nat × Nat × Nat × Nat) :=
  match r.stepper with
  | none => none
  | some 0 => s.dev.granary.hstep.map fun x => x.2
  | some (k + 1) => match s.group? (keyGid k) with
    | some d => match d.wait with
      | .hstep _ l m n sk => some (l, m, n, sk)
      | _ => none
    | none => none

/-- The progress, or with `fin` the report, goes to the stepper. -/
def State.stepReport (s : State) (who k lane limit n skipped : Nat) (fin : Option Nat) : State :=
  match who with
  | 0 =>
    let gr := s.dev.granary
    match fin with
    | none => { s with dev := { s.dev with granary := { gr with hstep := some (k, lane, limit, n, skipped) } } }
    | some b => ({ s with dev := { s.dev with granary := { gr with hstep := none } } } : State).setCtl 0x5020 (hreport n skipped b)
  | d + 1 =>
    match s.group? (keyGid d) with
    | none => s
    | some r =>
      match fin with
      | none => s.putGroup (keyGid d) { r with wait := .hstep k lane limit n skipped }
      | some b =>
        if !r.waits then s else s.waitDone (keyGid d) r (s.setG r r.ins.d.toNat (hreport n skipped b)) r [] []

/-- A wait that ends without any other party: a step of the group goes on through it (R351). -/
def Wait.ownDelay : Wait → Bool
  | .join _ _ | .dump _ | .units _ => true
  | _ => false

/-- What follows a step of a group that is being stepped: `s` before it, `r` its record then, `s'` after
it; `act` the lanes active in the instruction (R351). (Log 59: DEDUCED, unsafe.) -/
def State.stepped (s s' : State) (g : Gid) (r : Group) (act : W32) : State :=
  match r.stepper, s.stepping r with
  | some who, some (lane, limit, n, sk) =>
    let reached := decide (lane < 32) && act.getLsbD lane
    let n' := n + 1
    let sk' := if lane < 32 && !reached then sk + 1 else sk
    let rb := if reached then 2 ^ 16 else 0
    match s'.group? g with
    | none => s'.stepReport who (gidKey g) lane limit n' sk' (some (rb + 2 ^ 19))
    | some x =>
      let stop := (s'.crew? g.core x.crew).any fun c => c.stop.isSome
      if x.wait.midway || x.wait.ownDelay then
        s'.putGroup g { x with halt := r.halt, stepper := r.stepper }
      else
        let bits := if stop then some (2 ^ 18) else if x.live = 0 then some (2 ^ 19)
          else if x.halt.cause != 0 then some (2 ^ 17) else if x.wait != .none then some (2 ^ 20)
          else if !x.traps.isEmpty || reached || 32 ≤ lane || limit ≤ n' then some 0 else none
        let h : HaltInfo := if x.halt.cause != 0 then x.halt else { cause := 6, waiting := x.wait != .none }
        match bits with
        | some b =>
          (s'.putGroup g { x with stepper := none, halt := if x.live = 0 then x.halt else h }).stepReport who (gidKey g)
            lane limit n' sk' (some (rb + b))
        | none =>
          (s'.putGroup g { x with halt := r.halt, stepper := r.stepper }).stepReport who (gidKey g) lane limit n' sk' none
  | some _, none =>
    -- nobody steps it any more: it stays halted
    s'.modGroup g fun x => { x with stepper := none, halt := if x.halt.cause = 0 && x.live != 0 then r.halt else x.halt }
  | none, _ => s'

/-! ### Resuming (R352) -/

/-- Resumes one group, if it is halted by another cause than a crew-fatal stop and is not being stepped. -/
def Group.resume (r : Group) : Group :=
  if r.halt.cause = 0 || r.halt.cause = 7 || r.stepper.isSome then r else { r with halt := {}, skid := 0 }
def Group.resumes (r : Group) : Bool := r.halt.cause != 0 && r.halt.cause != 7 && r.stepper.isNone

/-- Resumes every halted group of a crew, and its sequencer. (Log 57: DEDUCED, safe.) -/
def State.resumeCrew (s : State) (k : Nat × Nat) : State :=
  let s := { s with groups := s.groups.map fun (e : Nat × Group) =>
    if (keyGid e.1).core = k.1 && e.2.crew = k.2 then (e.1, e.2.resume) else e }
  s.modCrew k.1 k.2 fun c =>
    let sq := if c.stop.isSome then c.seqr else { c.seqr with halted := false }
    { c with seqr := sq, parts := c.parts.map fun (e : Nat × Group) => (e.1, e.2.resume) }

/-- Whether any group of a crew would resume. -/
def State.crewResumes (s : State) (k : Nat × Nat) : Bool :=
  (s.crewGroups k.1 k.2).any (fun e => e.2.resumes) ||
    match s.crew? k.1 k.2 with
    | some c => c.parts.any fun e => e.2.resumes
    | none => false

/-- HRES with scope 0 the group, 1 its crew, 2 its sheaf: the state, and whether any group resumes. -/
def State.hres (s : State) (t : Option Target) (scope : Nat) : State × Bool :=
  match t with
  | none => (s, false)
  | some t =>
    if scope = 0 then (s.putTarget t t.r.resume, t.r.resumes)
    else
      let k := (t.g.core, t.r.crew)
      let ks := if scope = 1 then [k] else
        match s.crew? k.1 k.2 with
        | some c => s.sheafCrews c.launch c.sheaf
        | none => []
      (ks.foldl State.resumeCrew s, ks.any s.crewResumes)

def State.hresRes (s : State) (g : Gid) (r : Group) (f : Fields) (scope : Nat) : Res :=
  let t := s.target? (s.gr r f.a.toNat)
  if s.targetBarred g r t then .fatal { code := Code.privop }
  else
    let x := s.hres t scope
    .done x.1 { r.next f with q := setBit r.q f.d.toNat x.2 }

def execHres (f : Fields) (s : State) : Host.Outcome State Fault Refusal :=
  issue 1 f (shapeHres 0 f) s fun s g r => s.hresRes g r f 0
def execHresCrew (f : Fields) (s : State) : Host.Outcome State Fault Refusal :=
  issue 1 f (shapeHres 1 f) s fun s g r => s.hresRes g r f 1
def execHresSheaf (f : Fields) (s : State) : Host.Outcome State Fault Refusal :=
  issue 1 f (shapeHres 2 f) s fun s g r => s.hresRes g r f 2

/-! ### The snapshot's trigger and release (R32, R354) -/

def execSnap (f : Fields) (s : State) : Host.Outcome State Fault Refusal :=
  issue 0 f (shapeSnap f) s fun s g r => .done (s.trigger 1 [whoOf g r.crew 0]) (r.next f)

/-- The trigger raised by the Granary (bit 2), the host (bit 3) or both in one clock. -/
def State.triggerBoth (s : State) (m : BitVec 4) : State :=
  let sn := s.dev.snap
  if m = 0 then s
  else { s with dev := { s.dev with snap :=
    if sn.held then { sn with missed := min (sn.missed + 1) 65535 } else { sn with pending := sn.pending ||| m } } }

/-- SNAPSHOT_TRIGGER: a watch action and SNAP raise the trigger in their own steps; which of the Granary and
the host raises it here is a free value (log 4: DESIGN CHOICE, safe). -/
def execSnapshotTrigger (s : State) : Host.Outcome State Fault Refusal :=
  let x := s.free
  .next (x.2.triggerBoth (x.1.setWidth 4 &&& 0xC))

def execHostTrigger (s : State) : Host.Outcome State Fault Refusal := .next (s.trigger 3 [])

/-- SNAPSHOT_RELEASE: HELD and SRC clear. -/
def execSnapshotRelease (s : State) : Host.Outcome State Fault Refusal :=
  .next { s with dev := { s.dev with snap := { s.dev.snap with held := false, src := 0 } } }

/-! ### PROBE and the tick (R31, R216, R355, R356) -/

/-- The group goes on: the result is pending until the next tick. -/
def execProbe (f : Fields) (s : State) : Host.Outcome State Fault Refusal :=
  issue 0 f (shapeProbe f) s fun s _ r =>
    .done s { r.next f with probes := r.probes ++ [(f.immBits 7 0, f.fn.toNat, f.d.toNat)] }

/-- A core's contribution: an issue leaf, a free value for a leaf of the clocks without issue (log 14: DESIGN CHOICE,
safe), the count of a predicate the ASID owns, the clocks since reset at tick `hb`. -/
def State.probeValue (s : State) (core asid e hb : Nat) (free : Nat) : Nat :=
  if e < 2 then ((s.core core).leaf.getD e 0).toNat
  else if e < 16 then free
  else if e < 32 then
    let w := (s.core core).watch.getD (e - 16) {}
    if w.owned && w.owner = asid then w.count else 0
  else 128 * hb

/-- The reduction of the contributions. -/
def probeReduce (reduce : Nat) (xs : List Nat) : W64 :=
  match reduce with
  | 0 => BitVec.ofNat 64 xs.sum
  | 1 => BitVec.ofNat 64 (xs.tail.foldl min (xs.headD 0))
  | _ => BitVec.ofNat 64 (xs.foldl max 0)

/-- A probe's result at the tick. -/
def State.probe (s : State) (asid priv e reduce : Nat) : W64 × State :=
  let cs := if priv = 2 then List.range 256 else (List.range 256).filter fun c => s.owns (s.partOf asid) c
  let vs := (List.range cs.length).map fun i =>
    s.probeValue (cs.getD i 0) asid e s.dev.hb.toNat (Config.freeValue (s.freeCtr + i)).toNat
  (probeReduce reduce vs, { s with freeCtr := s.freeCtr + cs.length })

/-- The pending probes of a group of crew `c` are written. -/
def State.probes (s : State) (c : Crew) (r : Group) : State :=
  r.probes.foldl (fun (s : State) p =>
    let x := s.probe c.asid (if r.spawned then 0 else c.priv) p.1 p.2.1
    x.2.setG r p.2.2 x.1) s

/-- What a tick does to a group: its probes are written, and FSC's wait ends. -/
def State.tickGroup (s : State) (k : Nat) : State :=
  match s.group? (keyGid k) with
  | none => s
  | some r =>
    let r' := { r with probes := [] }
    let s := if r.probes.isEmpty then s else (s.probes (s.crewOf (keyGid k) r) r).putGroup (keyGid k) r'
    if r.waits && r.wait = .fsc then s.waitDone (keyGid k) r' s r' [] [] else s

/-- What a tick does to the parked participants of a crew. -/
def State.tickParts (s : State) (k : Nat) : State :=
  match tfind s.crews k with
  | none => s
  | some c =>
    if c.parts.all fun e => e.2.probes.isEmpty then s
    else
      let s := c.parts.foldl (fun (s : State) e => s.probes c e.2) s
      { s with crews := tput s.crews k { c with parts := c.parts.map fun (e : Nat × Group) => (e.1, { e.2 with probes := [] }) } }

/-- TICK: the heartbeat rises; FSC waits end; probes sample. -/
def execTick (s : State) : Host.Outcome State Fault Refusal :=
  let s := { s with dev := { s.dev with hb := s.dev.hb + 1 } }
  let s := (s.groups.map fun e => e.1).foldl State.tickGroup s
  .next ((s.crews.map fun e => e.1).foldl State.tickParts s)

end Sys2Proof.Machine
end

