-- ==== Sys2Proof/Machine/Engine.lean ====
section
/-! DEFINITION. What a matrix pass computes (R135 to R146, R177 to R179, R185 to R187) and what a drain
writes (R197): pure functions of operands. -/

namespace Sys2Proof.Machine

/-! ### The sticky flags of MSTATUS (R204) -/

namespace MFlag
def chk := 1
def nf := 2
def ss := 4
def iv := 8
def of := 16
def sati := 32
def psn := 64
def rqs := 128
def rqn := 256
end MFlag

/-! ### Residue arithmetic (R140 to R142) -/

/-- `Residue_m(v)`. -/
def residue (m : Nat) (v : Int) : Nat := (v % (m : Int)).toNat
/-- A channel's sum over a segment. -/
def chanSum (m : Nat) : List Int → List Int → Nat
  | a :: as, b :: bs => (residue m a * residue m b + chanSum m as bs) % m
  | _, _ => 0
/-- `Crt`. -/
def crt (x y z : Nat) : Nat := (8421376 * x + 16711425 * y + 8421120 * z) % 16776960
/-- A segment's integer X. -/
def segX (as bs : List Int) : Int :=
  let x := crt (chanSum 255 as bs) (chanSum 256 as bs) (chanSum 257 as bs)
  if x < 8388480 then x else (x : Int) - 16776960

/-! ### Elements (R126, R134, R143, R144) -/

/-- `n` element codes of `w` bits, packed little-endian. -/
def unpackElems (w n : Nat) (bs : List Byte) : List Nat :=
  (List.range n).map fun k => leNat bs / 2 ^ (w * k) % 2 ^ w

/-- λ of a floating format. -/
def alignLambda (ef : Nat) : Nat := match ef with | 4 => 5 | 5 => 6 | 6 => 6 | _ => 1

/-- A K-group: its aligned integers, its alignment exponent, whether an element is an infinity or a NaN. -/
def alignGroup (ef : Nat) (xs : List Nat) : List Int × Int × Bool :=
  match intElem ef with
  | some (w, sg) => (xs.map fun x => valOf w sg (BitVec.ofNat 64 x), 0, false)
  | none =>
    let t := fltElem ef
    let lam := alignLambda ef
    let ex := fun x => if t.expo x = 0 then 1 else t.expo x
    let sig := fun x => if t.expo x = 0 then t.frac x else 2 ^ t.fb + t.frac x
    let emax := (xs.map ex).foldl max 1
    (xs.map fun x =>
        let m := (roundAt 0 false (sig x * 2 ^ lam) (2 ^ (emax - ex x)) 0).1
        if t.neg x then -(m : Int) else m,
      (emax : Int) - t.bias - t.fb - lam, xs.any fun x => t.isNan x || t.isInf x)

/-! ### Formats of a pass (R145, R146, R185) -/

def geomOf (fmt : BitVec 16) : Nat := bitsOf fmt 9 8
/-- Elements of a scale group along K (R137). -/
def scaleLen (geom : Nat) : Nat := match geom with | 1 => 16 | 2 => 32 | _ => 128
def segLenOf (ef : Nat) : Nat := if ef < 4 || ef = 6 then 128 else 32
/-- A segment's length. -/
def segLen (fmt : BitVec 16) : Nat :=
  match geomOf fmt with
  | 1 => 16
  | 2 => 32
  | _ => min (segLenOf (bitsOf fmt 3 0)) (segLenOf (bitsOf fmt 7 4))

/-- Whether the formats are FMTX for a pass. -/
def passFmtx (fmt : BitVec 16) (scaled : Bool) (amode : Nat) : Bool :=
  let af := bitsOf fmt 3 0
  let bf := bitsOf fmt 7 4
  let sg := fun ef b => match intElem ef with | some (_, x) => b != x | none => false
  decide (7 < af) || decide (7 < bf) || (decide (af < 4) != decide (bf < 4)) || sg af (bitOf fmt 10) || sg bf (bitOf fmt 11) ||
    decide (1 < bitsOf fmt 13 12) || ((geomOf fmt != 0) != scaled) || (amode != 0 && (decide (4 ≤ af) || geomOf fmt != 0))

/-! ### One output of one segment (R186, R187) -/

/-- A segment of one row of A or one column of B: its aligned integers, exponent, non-finite mark, scale,
and the sticky flags its scale raises. -/
structure SegOp where
  xs : List Int
  ex : Int
  nf : Bool
  sc : Num
  fl : Nat

/-- A segment operand from element codes and, in a scaled pass, its scale byte. -/
def segOp (ef sfmt : Nat) (codes : List Nat) (scale : Option Nat) : SegOp :=
  let g := alignGroup ef codes
  match scale with
  | none => { xs := g.1, ex := g.2.1, nf := g.2.2, sc := .fin false 1 1, fl := 0 }
  | some b =>
    let x := scaleOf sfmt b
    { xs := g.1, ex := g.2.1, nf := g.2.2, sc := x.1,
      fl := (if x.1.isNan then MFlag.nf else 0) ||| (if x.2 = 0 then 0 else MFlag.ss) }

/-- The F32 value a segment contributes, with its sticky flags. -/
def segValue (a b : SegOp) : W32 × Nat :=
  if a.nf || b.nf || a.sc.isNan || b.sc.isNan then (0x7FC00000, MFlag.nf)
  else
    let x := segX a.xs b.xs
    if a.sc.isZero || b.sc.isZero then (if x < 0 then 0x80000000 else 0, 0)
    else
      let y := Num.mul (Num.mul (scaled (decide (x < 0)) x.natAbs (a.ex + b.ex)) a.sc).1 b.sc
      let z := fmtF32.round 0 false y.1
      (BitVec.ofNat 32 z.1, if z.2 &&& Flag.of != 0 then MFlag.of else 0)

/-- acc + v in F32. -/
def accF32 (acc v : W32) : W32 × Nat :=
  let x := f32of acc
  let y := f32of v
  let opp := match x, y with | .inf m, .inf n => m != n | _, _ => false
  let z := fmtF32.round 0 false (Num.add 0 x y).1
  (BitVec.ofNat 32 z.1, (if opp then MFlag.iv else 0) ||| (if z.2 &&& Flag.of != 0 then MFlag.of else 0))

/-- One step of the accumulation (R136, R144, R187); a non-finite K-group raises NF and nothing of its
scales. (Log 103: DEDUCED, unsafe.) `amode` 0 F32, 1 INT32, 2 saturating INT32. -/
def accumulate (amode : Nat) (acc : W32) (a b : SegOp) : W32 × Nat :=
  match amode with
  | 0 =>
    let v := segValue a b
    let r := accF32 acc v.1
    (r.1, (if a.nf || b.nf then 0 else a.fl ||| b.fl) ||| v.2 ||| r.2)
  | 1 => (BitVec.ofInt 32 (acc.toInt + segX a.xs b.xs), 0)
  | _ =>
    let t := acc.toInt + segX a.xs b.xs
    let c := satInt t (-(2 ^ 31)) (2 ^ 31 - 1)
    (BitVec.ofInt 32 c, if c = t then 0 else MFlag.sati)

/-! ### Requantising (R197) -/

/-- A table record. -/
structure RqRec where
  mult : Int
  bias : W32
  shift : Nat
  bad : Bool
  zp : Int

/-- The record of 16 bytes; `outf` is the output format. -/
def rqRec (outf : Nat) (bs : List Byte) : RqRec :=
  let n := leNat bs
  let z := BitVec.ofNat 8 (n / 2 ^ 72)
  { mult := (BitVec.ofNat 32 n).toInt, bias := BitVec.ofNat 32 (n / 2 ^ 32), shift := n / 2 ^ 64 % 64,
    bad := n / 2 ^ 70 % 4 != 0, zp := if outf = 2 then z.toNat else z.toInt }

/-- Output formats: 0 `.f32`, 1 `.i8`, 2 `.n8`, 3 `.bf16`. -/
def rqFmt (outf : Nat) : FFmt := if outf = 3 then fmtBF16 else fmtF32
def rqInt (outf : Nat) : Bool := outf == 1 || outf == 2
def rqLo (outf : Nat) : Int := if outf = 1 then -128 else 0
def rqHi (outf : Nat) : Int := if outf = 1 then 127 else 255
/-- Bytes of an output word. -/
def rqBytes (rq : Bool) (outf : Nat) : Nat := if !rq then 4 else match outf with | 0 => 4 | 3 => 2 | _ => 1

/-- An exact n / d requantised; a floating result of exactly zero is +0 (log 127: DESIGN CHOICE, unsafe). -/
def rqFin (outf : Nat) (q : RqRec) (n : Int) (d : Nat) : Nat × Nat :=
  let yn := n * q.mult
  let yd := d * 2 ^ q.shift
  if rqInt outf then
    let m : Int := ((2 * yn.natAbs + yd) / (2 * yd) : Nat)
    let v := (if yn < 0 then -m else m) + q.zp
    let c := satInt v (rqLo outf) (rqHi outf)
    ((BitVec.ofInt 8 c).toNat, if c = v then 0 else MFlag.rqs)
  else
    let t := yn + q.zp * yd
    let z := (rqFmt outf).round 0 true (.fin (decide (t < 0)) t.natAbs yd)
    (z.1, if z.2 &&& Flag.cs != 0 then MFlag.rqs else 0)

/-- A NaN result, and a saturated one. -/
def rqNan (outf : Nat) : Nat × Nat := if rqInt outf then (0, MFlag.rqn) else ((rqFmt outf).nanBits, 0)
def rqSat (outf : Nat) (neg : Bool) : Nat × Nat :=
  (if rqInt outf then (BitVec.ofInt 8 (if neg then rqLo outf else rqHi outf)).toNat
    else (rqFmt outf).signed neg (rqFmt outf).maxMag, MFlag.rqs)

/-- One word requantised; `acct` is true for an `.f32` source. -/
def requant (outf : Nat) (acct : Bool) (q : RqRec) (w : W32) : Nat × Nat :=
  if !acct then rqFin outf q (w.toInt + q.bias.toInt) 1
  else match (Num.add 0 (f32of w) (f32of q.bias)).1 with
    | .nan _ => rqNan outf
    | .inf neg => if q.mult = 0 then rqNan outf else rqSat outf (neg != decide (q.mult < 0))
    | .fin neg n d => rqFin outf q (if neg then -(n : Int) else n) d

/-- The value of a poisoned row's element. -/
def poisonOut (rq : Bool) (outf : Nat) : Nat :=
  if !rq then 0x7FC00000 else if rqInt outf then 0 else (rqFmt outf).nanBits

end Sys2Proof.Machine
end

