-- ==== Sys2Proof/Machine/Matrix.lean ====
section
/-! DEFINITION. The matrix sequencer, posting, the arbiter, passes, silo operations, checking and the
engine's reset (R173 to R207, R334 to R336). -/

namespace Sys2Proof.Machine

/-! ### The sequencer (R174) -/

/-- What a sequencer instruction comes to: it completes, it waits, or its crew stops. -/
inductive SRes where
  | ok (s : State) (q : Seqr)
  | retry
  | fatal (fr : FRec)

def Seqr.next (q : Seqr) (f : Fields) : Seqr := { q with mpc := nextPc q.mpc f.len }
/-- M registers. -/
def Seqr.reg (q : Seqr) (x : BitVec 8) : W64 := q.m.getD x.toNat 0
def Seqr.set (q : Seqr) (n : Nat) (v : W64) : Seqr := { q with m := q.m.set n v }

/-- A fault of the sequencer: it stops at the instruction, and the crew stops. -/
def State.seqFault (s : State) (core slot : Nat) (c : Crew) (fr : FRec) : State :=
  s.stopCrew core slot none { fr with pc := c.seqr.mpc }

/-- Issues an instruction of the sequencer that acts. -/
def issueSeq (s : State) (k : Nat → Nat → Crew → SRes) : Host.Outcome State Fault Refusal :=
  match s.actor with
  | .seq core slot =>
    match s.crew? core slot with
    | none => .fault .noActor
    | some c =>
      match k core slot c with
      | .retry => .next s
      | .fatal fr => .next (s.seqFault core slot c fr)
      | .ok s' q => .next (s'.modCrew core slot fun c => { c with seqr := q })
  | _ => .fault .noActor

/-! ### The seven shared opcodes (R176) -/

/-- B, or the immediate in its place. -/
def Seqr.opB (q : Seqr) (f : Fields) : W64 := if f.w64 then q.reg f.b else Fields.immW f f.width f.signed
/-- An operand of the instruction's type. -/
def Fields.mval (f : Fields) (x : W64) : Int := valOf f.width f.signed x
/-- Writes M[D], and MCC under `.cc`. -/
def Seqr.result (q : Seqr) (f : Fields) (x : W64) (cc : BitVec 4) : Seqr :=
  let q' := (q.set f.d.toNat (fillG f.width f.signed x)).next f
  if f.ccw then { q' with mcc := cc } else q'

def execSeqMovi (f : Fields) (s : State) : Host.Outcome State Fault Refusal :=
  issueSeq s fun _ _ c =>
    let x := Fields.immW f f.width f.signed
    .ok s (c.seqr.result f x (ccLogic f.width x))

def execSeqIadd (f : Fields) (s : State) : Host.Outcome State Fault Refusal :=
  issueSeq s fun _ _ c =>
    let a := c.seqr.reg f.a
    let b := c.seqr.opB f
    let x := narrow f.width f.signed f.sat (Fields.mval f a + Fields.mval f b)
    .ok s (c.seqr.result f x (ccAdd f.width a b 0 x))

def execSeqIsub (f : Fields) (s : State) : Host.Outcome State Fault Refusal :=
  issueSeq s fun _ _ c =>
    let a := c.seqr.reg f.a
    let b := c.seqr.opB f
    let x := narrow f.width f.signed f.sat (Fields.mval f a - Fields.mval f b)
    .ok s (c.seqr.result f x (ccSub f.width a b 0 x))

def execSeqIcmp (f : Fields) (s : State) : Host.Outcome State Fault Refusal :=
  issueSeq s fun _ _ c =>
    let a := c.seqr.reg f.a
    let b := c.seqr.opB f
    let x := narrow f.width f.signed false (Fields.mval f a - Fields.mval f b)
    .ok s { c.seqr.next f with mcc := ccSub f.width a b 0 x }

/-- A PC-relative jump. -/
def Seqr.rel (q : Seqr) (off : W32) : Seqr := { q with mpc := q.mpc + off.signExtend 48 }

/-- The conditions 0 to 8 of R96 on MCC. -/
def mccCond (cc : BitVec 4) (n : Nat) : Bool :=
  if n = 0 then true else cc.getLsbD ((n - 1) / 2) == (n % 2 == 1)

def execSeqBra (f : Fields) (s : State) : Host.Outcome State Fault Refusal :=
  issueSeq s fun _ _ c =>
    .ok s (if mccCond c.seqr.mcc (f.fnBits 3 0) then c.seqr.rel f.i32 else c.seqr.next f)

def execSeqLoop (f : Fields) (s : State) : Host.Outcome State Fault Refusal :=
  issueSeq s fun _ _ c =>
    let n := c.seqr.reg f.d
    if n = 0 then .ok s (c.seqr.next f)
    else
      let q := c.seqr.set f.d.toNat (n - 1)
      .ok s (if n - 1 = 0 then q.next f else q.rel f.i32)

def execSeqExit (f : Fields) (s : State) : Host.Outcome State Fault Refusal :=
  issueSeq s fun _ _ c => .ok s { c.seqr.next f with running := false }

/-! ### What operations read and write (R180, R181) -/

def Op.isPass (o : Op) : Bool := decide (o.kind < 2)
def Op.acc (o : Op) : Bool := o.fields.immBits 42 42 == 1
def Op.readsRows (o : Op) : Bool := (o.isPass && o.acc) || o.kind == 4 || o.kind == 5
def Op.writesRows (o : Op) : Bool := o.isPass || o.kind == 2 || o.kind == 3 || o.kind == 6

def meets (x y : Nat × Nat) : Bool := decide (x.1 < y.2) && decide (y.1 < x.2)

/-- A pass's K, its segments, and columns and bytes of a region. -/
def Op.k (o : Op) : Nat := bitsOf (o.ops.getD 2 0) 31 0
def Op.nseg (o : Op) : Nat := (o.k + segLen o.mfmt - 1) / segLen o.mfmt
def Op.col0 (o : Op) : Nat := 16 * o.fields.immBits 39 37
def Op.ncol (o : Op) : Nat := 16 * (o.fields.immBits 36 34 + 1)
def Op.rq (o : Op) : Bool := o.fields.immBits 42 42 == 1
def Op.outf (o : Op) : Nat := o.fields.immBits 41 40
/-- Bytes of a word in memory. -/
def Op.ow (o : Op) : Nat := if o.kind = 4 then rqBytes o.rq o.outf else 4
/-- Beats of 16 bytes in a row, and in all. -/
def Op.rowBeats (o : Op) : Nat := o.ncol * o.ow / 16
def Op.nrows (o : Op) : Nat := o.rows.2 - o.rows.1
def Op.beats (o : Op) : Nat := if o.kind < 4 then 0 else o.nrows * o.rowBeats
/-- Whether the operation has made its reads of scratch. (Log 63: DEDUCED, unsafe.) -/
def Op.readDone (o : Op) : Bool := if o.isPass then decide (o.nseg ≤ o.pos) else o.did.length == o.beats

/-- Whether an operation may start: order within the crew, the range scoreboard, and for a destination in
scratch the earlier reads (R181). In a save an operation that has not started does not (R85, R206). -/
def State.opReady (s : State) (id : Nat) (o : Op) : Bool :=
  (s.ops.all fun e => !(decide (e.1 < id) && e.2.uid == o.uid) ||
    ((!(e.2.writesRows && meets e.2.rows o.rows)) && (!(e.2.readsRows && o.writesRows && meets e.2.rows o.rows)) &&
      match o.sdst with
      | some d => e.2.readDone || !(e.2.sread.any fun x => meets x d)
      | none => true)) &&
    (o.sread.all fun x => !s.scoreboardedTo id o.uid x.1 (x.2 - x.1)) &&
    (s.crewByUid o.core o.crew o.uid).any fun c => !c.saving

/-! ### Posting (R182, R195 to R198) -/

/-- The operation that an instruction would post. -/
def Crew.op (c : Crew) (core slot kind : Nat) (f : Fields) : Op :=
  let q := c.seqr
  { core := core, crew := slot, uid := c.uid, asid := c.asid, pc := q.mpc, kind := kind, fields := f,
    ops := [q.reg f.d, q.reg f.a, q.reg f.b, q.reg f.c], mfmt := q.mfmt }

/-- The crew's live group with `%grp` n, parked participants of REPACK included (R175, R178). -/
def State.matrixGroup (s : State) (core slot : Nat) (c : Crew) (n : Nat) : Option Group :=
  match ((s.crewGroups core slot).map (·.2) ++ c.parts.map (·.2)).find? fun r => r.kind == .own && r.grp == n && r.live != 0 with
  | some r => some r
  | none => none

/-- Elements of B in a register. -/
def Op.perReg (o : Op) : Nat := 32 / efBits (bitsOf o.mfmt 7 4)
def Op.vb (o : Op) : Nat := o.fields.immBits 31 24
def Op.vs (o : Op) : Nat := o.fields.immBits 23 16
/-- The B and scale registers a pass reads in each matrix group. -/
def Op.bRegs (o : Op) : List Nat :=
  let nb := (o.k + o.perReg - 1) / o.perReg
  let ns := if o.kind = 1 then (o.k / scaleLen (geomOf o.mfmt) + 3) / 4 else 0
  (List.range nb).map (o.vb + ·) ++ (List.range ns).map (o.vs + ·)

/-- The last register of B, and of scales, that R195 checks: VB + ceil(K ÷ e) − 1, of a K of 0 the one before VB, and
register 0 where VB, or VS, is 0 too (log 125: DESIGN CHOICE, unsafe). -/
def Op.lastRegs (o : Op) : List Nat :=
  let nb := (o.k + o.perReg - 1) / o.perReg
  let ns := (o.k / scaleLen (geomOf o.mfmt) + 3) / 4
  (o.vb + nb - 1) :: if o.kind = 1 then [o.vs + ns - 1] else []

/-- Bytes of one row of A. -/
def Op.rowBytes (o : Op) : Nat := (o.k * efBits (bitsOf o.mfmt 3 0) + 7) / 8
def Op.sa (o : Op) : Bool := o.isPass && o.fields.fnIs 1
/-- Scratch ranges a pass reads. -/
def Op.passReads (o : Op) : List (Nat × Nat) :=
  let d := o.ops.getD 0 0
  let a := (o.ops.getD 1 0).toNat
  let sb := (o.ops.getD 3 0).toNat
  let n := o.nrows
  if !o.sa then [] else
    (a, a + (n - 1) * bitsOf d 31 0 + o.rowBytes) ::
      if o.kind = 1 then [(sb, sb + (n - 1) * bitsOf d 63 32 + o.k / scaleLen (geomOf o.mfmt))] else []

/-- The checks of R195 in order, and the posting. (Log 64: DEDUCED, unsafe.) -/
def State.postPass (s : State) (core slot : Nat) (c : Crew) (f : Fields) (kind : Nat) : SRes :=
  let o := c.op core slot kind f
  let scaled := kind = 1
  let a := o.ops.getD 1 0
  let gs := (List.range 4).map fun q => s.matrixGroup core slot c (bitsOf c.seqr.mgrp (4 * q + 3) (4 * q))
  if c.hold.ms ≤ s.busyStreams c.uid then .retry
  else if passFmtx o.mfmt scaled (f.immBits 41 40) then .fatal { code := Code.fmtx }
  else if 384 * c.hold.ms < o.rows.2 then .fatal { code := Code.addrv, acc := Acc.engRead }
  else if a.toNat % 16 != 0 || bitsOf (o.ops.getD 0 0) 31 0 % 16 != 0 then
    .fatal { code := Code.addrv, acc := Acc.engRead, va := a }
  else if 256 * o.perReg < o.k || (scaled && o.k % scaleLen (geomOf o.mfmt) != 0) ||
      gs.any (fun g => match g with
        | none => true
        | some r => o.lastRegs.any fun n => decide (32 * r.gran ≤ n)) then .fatal { code := Code.mparm }
  else
    let uids := gs.filterMap fun g => g.map (·.uid)
    .ok (s.post { o with uids := uids, held := o.bRegs, sread := o.passReads }) (c.seqr.next f)

def execMma (f : Fields) (s : State) : Host.Outcome State Fault Refusal :=
  issueSeq s fun core slot c => s.postPass core slot c f 0
def execMmas (f : Fields) (s : State) : Host.Outcome State Fault Refusal :=
  issueSeq s fun core slot c => s.postPass core slot c f 1

/-- Posts a silo operation: the silo range, the alignment of its addresses. A strided range of scratch is one span from
its lowest byte to its highest (log 112: DESIGN CHOICE, unsafe). A destination in scratch takes an entry
of the range scoreboard: with all 32 of the core in use, posting waits for one (log 91: DESIGN CHOICE, unsafe). -/
def State.postSilo (s : State) (core slot : Nat) (c : Crew) (f : Fields) (kind : Nat) : SRes :=
  let o := c.op core slot kind f
  let a := (o.ops.getD 1 0).toNat
  let stride := bitsOf (o.ops.getD 2 0) 31 0
  let tab := (o.ops.getD 3 0).toNat
  let rq := kind = 4 && o.rq
  let acc := if kind = 6 then Acc.engRead else Acc.engWrite
  let span := (a, a + (o.nrows - 1) * stride + o.ncol * o.ow)
  let inScratch := (kind = 4 && f.fnIs 1) || kind = 5
  if 384 * c.hold.ms < o.rows.2 then .fatal { code := Code.addrv, acc := acc }
  else if 4 ≤ kind && (a % 16 != 0 || stride % 16 != 0) then
    .fatal { code := Code.addrv, acc := acc, va := o.ops.getD 1 0 }
  else if rq && tab % 16 != 0 then .fatal { code := Code.addrv, acc := Acc.engRead, va := o.ops.getD 3 0 }
  else if inScratch && decide (32 ≤ s.scoreEntries core) then .retry
  else .ok (s.post { o with
    sread := if kind = 6 then [span] else if rq then [(tab + 16 * o.col0, tab + 16 * (o.col0 + o.ncol))] else [],
    sdst := if inScratch then some span else none }) (c.seqr.next f)

def execMzero (f : Fields) (s : State) : Host.Outcome State Fault Refusal :=
  issueSeq s fun core slot c => s.postSilo core slot c f 2
def execMfill (f : Fields) (s : State) : Host.Outcome State Fault Refusal :=
  issueSeq s fun core slot c => s.postSilo core slot c f 3
def execMdrain (f : Fields) (s : State) : Host.Outcome State Fault Refusal :=
  issueSeq s fun core slot c => s.postSilo core slot c f 4
def execMcpyOut (f : Fields) (s : State) : Host.Outcome State Fault Refusal :=
  issueSeq s fun core slot c => s.postSilo core slot c f 5
def execMcpyIn (f : Fields) (s : State) : Host.Outcome State Fault Refusal :=
  issueSeq s fun core slot c => s.postSilo core slot c f 6

/-! ### MTLD, MCFG, MSYNC, MBAR, MSTAT (R199 to R204) -/

/-- The unit that holds a scratch address, by address ÷ 16, and where the word of 8 bytes there begins in it. -/
def mtldWord (got : Tab (List Byte)) (a : Nat) : W64 :=
  BitVec.ofNat 64 (leNat ((((tfind got (a / 16)).getD []).drop (a % 16)).take 8))

/-- MTLD reads its words of scratch, a unit a step, and then writes its registers (R209). Its OFF is not signed, and the
address is taken modulo 2^64 (log 126: DESIGN CHOICE, unsafe). -/
def execMtld (f : Fields) (s : State) : Host.Outcome State Fault Refusal :=
  issueSeq s fun _ _ c =>
    let a := c.seqr.reg f.a + BitVec.ofNat 64 (f.immBits 23 0)
    let n := f.immBits 27 24 + 1
    if a.toNat % 8 != 0 || c.hold.sg * 16384 < a.toNat + 8 * n then
      .fatal { code := Code.addrv, acc := Acc.engRead, va := a }
    else if s.scoreboarded c.uid a.toNat (8 * n) then .retry
    else
      let units := sortNat ((List.range n).map fun t => (a.toNat + 8 * t) / 16)
      let x := s.pick (units.filter fun u => (tfind c.seqr.got u).isNone)
      let got := tput c.seqr.got x.1 (s.sbytes c.uid (16 * x.1) 16)
      if units.any fun u => (tfind got u).isNone then .ok x.2 { c.seqr with got := got }
      else .ok x.2 { (List.range n).foldl (fun (q : Seqr) t => q.set (f.d.toNat + t) (mtldWord got (a.toNat + 8 * t)))
        (c.seqr.next f) with got := [] }

def execMcfgFmt (f : Fields) (s : State) : Host.Outcome State Fault Refusal :=
  issueSeq s fun _ _ c => .ok s { c.seqr.next f with mfmt := f.imm.setWidth 16 }
def execMcfgFmtm (f : Fields) (s : State) : Host.Outcome State Fault Refusal :=
  issueSeq s fun _ _ c =>
    let x : BitVec 16 := (c.seqr.reg f.a).setWidth 16
    if fmtReserved x then .fatal { code := Code.fmtx } else .ok s { c.seqr.next f with mfmt := x }
def execMcfgGrp (f : Fields) (s : State) : Host.Outcome State Fault Refusal :=
  issueSeq s fun _ _ c => .ok s { c.seqr.next f with mgrp := f.imm.setWidth 16 }

def execMsync (f : Fields) (s : State) : Host.Outcome State Fault Refusal :=
  issueSeq s fun _ _ c => if s.ops.any (fun e => e.2.uid = c.uid) then .retry else .ok s (c.seqr.next f)

/-- The place of the sequencer that acts. -/
def State.actorSeq (s : State) : Nat × Nat := match s.actor with | .seq core slot => (core, slot) | _ => (0, 0)

def execMbarArv (f : Fields) (s : State) : Host.Outcome State Fault Refusal :=
  thenBar s.actorSeq.1 s.actorSeq.2 f.a.toNat <| issueSeq s fun core slot c =>
    let b := c.bar f.a.toNat
    if !b.init then .retry
    else match b.arrive none 0 with
      | none => .fatal { code := Code.barx }
      | some b' => .ok (s.putCrew core slot (c.setBar f.a.toNat b')) (c.seqr.next f)

def execMbarWait (f : Fields) (s : State) : Host.Outcome State Fault Refusal :=
  issueSeq s fun _ _ c =>
    let b := c.bar f.a.toNat
    if !b.init || b.phase == (f.immBits 0 0 == 1) then .retry else .ok s (c.seqr.next f)

/-- EMODE: 0 normal, 1 duplicate, 2 split, 3 both. PLANE: the failed plane in split mode. -/
def Engine.emode (e : Engine) : Nat := e.dup.toNat + if e.failed.length = 1 then 2 else 0
def Engine.plane (e : Engine) : Nat := if e.failed.length = 1 then e.failed.headD 0 else 0

/-- MSTATUS. -/
def State.mstatus (s : State) (core : Nat) (c : Crew) : W64 :=
  let e := s.engine (clusterIx core)
  BitVec.ofNat 64 (c.seqr.sticky.toNat + e.emode * 2 ^ 16 + e.plane * 2 ^ 18 + s.busyStreams c.uid * 2 ^ 32)

def execMstat (f : Fields) (s : State) : Host.Outcome State Fault Refusal :=
  issueSeq s fun core _ c =>
    let q := (c.seqr.set f.d.toNat (s.mstatus core c)).next f
    .ok s (if f.fnIs 1 then { q with sticky := 0 } else q)

/-! ### The arbiter (R183) -/

/-- An entry's rank: effective priority, age; entries stand in posting order. -/
def State.opRank (s : State) (o : Op) : Nat × Nat :=
  (if 16 ≤ o.age then 7 else ((s.crewByUid o.core o.crew o.uid).map fun c => c.prio).getD 0, o.age)

/-- The first of the ready entries. -/
def firstEntry : List ((Nat × Nat) × Nat) → Option Nat
  | [] => none
  | x :: t => match t.find? fun y => decide (x.1.1 < y.1.1) || (x.1.1 == y.1.1 && decide (x.1.2 < y.1.2)) with
    | some _ => firstEntry t
    | none => some x.2

def Op.arrays (o : Op) : Nat := o.nrows / 128

def execArbiterGrant (engine : Nat) (s : State) : Host.Outcome State Fault Refusal :=
  let e := s.engine engine
  let mine := s.ops.filter fun x => x.2.isPass && clusterIx x.2.core = engine
  let ready := mine.filter fun x => !x.2.granted && x.2.stall.isNone && s.opReady x.1 x.2
  let used := ((mine.filter fun x => x.2.granted).map fun x => x.2.arrays).sum
  if e.resetting || e.unusable then .next s
  else match firstEntry (ready.map fun x => (s.opRank x.2, x.1)) with
    | none => .next s
    | some id =>
      match tfind s.ops id with
      | none => .next s
      | some o =>
        if 4 < used + o.arrays then .next s
        else
          let grow : Nat × Op → Nat × Op := fun x =>
            if x.1 = id then (x.1, { o with granted := true, hang := e.hang })
            else if ready.any fun y => y.1 = x.1 then (x.1, { x.2 with age := x.2.age + 1 }) else x
          .next (({ s with ops := s.ops.map grow } : State).putEngine engine { e with hang := false })

/-! ### PASS_SEGMENT (R177 to R179, R184 to R188) -/

/-- Raises sticky flags of the crew. -/
def State.sticky (s : State) (o : Op) (fl : Nat) : State :=
  match s.crewByUid o.core o.crew o.uid with
  | some c => s.putCrew o.core o.crew { c with seqr := { c.seqr with sticky := c.seqr.sticky ||| BitVec.ofNat 9 fl } }
  | none => s

/-- Poisons rows of a crew, or clears their poison. -/
def State.poisonRows (s : State) (uid lo hi : Nat) (b : Bool) : State :=
  { s with poison := tsetMany false s.poison ((List.range (hi - lo)).map fun i => (uid * 2048 + lo + i, b)) }

def State.putOp (s : State) (id : Nat) (o : Op) : State := { s with ops := tput s.ops id o }

/-- The crew's scratch, in bytes. -/
def State.scratchSize (s : State) (o : Op) : Nat :=
  ((s.crewByUid o.core o.crew o.uid).map fun c => c.hold.sg * 16384).getD 0

/-- `n` bytes that the engine reads. -/
def State.engBytes (s : State) (o : Op) (scratch : Bool) (a n : Nat) : Except FRec (List Byte) :=
  exceptAll ((List.range n).map fun i => s.copyRead o.core o.uid (s.scratchSize o) o.asid scratch (a + i) Acc.engRead)

/-- An operation's fault: a replayable one leaves the entry to wait for the page; any other ends the
operation, poisons the rows of a pass, and stops the crew (R184, R197). -/
def State.opFault (s : State) (id : Nat) (o : Op) (fr : FRec) : State :=
  let fr := { fr with asid := o.asid, pc := o.pc }
  if fr.busy then s
  else if fr.replayable then
    -- a pass frees its arrays (R184); a silo operation has begun
    (s.putOp id { o with granted := !o.isPass, stall := some (o.asid, fr.va.toNat / 4096), capf := fr.capfPage o.asid }).raise
      (s.partOf o.asid) fr
  else
    let s := { s with ops := tdel s.ops id }
    let s := if o.isPass then s.poisonRows o.uid o.rows.1 o.rows.2 true else s
    s.stopCrew o.core o.crew none fr

/-- Elements of a unit of A along K: a beat's, or a scale group's (R138, R209). -/
def Op.unitLen (o : Op) : Nat :=
  if o.kind = 1 then scaleLen (geomOf o.mfmt) else 128 / efBits (bitsOf o.mfmt 3 0)
/-- Where unit `u` of row `i` lies: its first byte, its length, and its scale byte's address. -/
def Op.unitAt (o : Op) (i u : Nat) : Nat × Nat × Option Nat :=
  let w := efBits (bitsOf o.mfmt 3 0)
  let d := o.ops.getD 0 0
  ((o.ops.getD 1 0).toNat + i * bitsOf d 31 0 + u * o.unitLen * w / 8, (min o.unitLen (o.k - u * o.unitLen) * w + 7) / 8,
    if o.kind = 1 then some ((o.ops.getD 3 0).toNat + i * bitsOf d 63 32 + u) else none)

/-- A unit of A as it is read: its scale, 0 without scales, and its bytes. -/
def State.aUnit (s : State) (o : Op) (i u : Nat) : Except FRec (Nat × List Byte) :=
  let x := o.unitAt i u
  match s.engBytes o o.sa x.1 x.2.1 with
  | .error fr => .error fr
  | .ok bs => match x.2.2 with
    | none => .ok (0, bs)
    | some a => match s.engBytes o o.sa a 1 with
      | .error fr => .error fr
      | .ok sc => .ok (leNat sc, bs)

/-- The units of A that elements k to k + n lie in, of every row, and those among them not yet read. -/
def Op.units (o : Op) (k n : Nat) : List (Nat × Nat) :=
  (List.range o.nrows).flatMap fun i => (List.range ((k + n + o.unitLen - 1) / o.unitLen - k / o.unitLen)).map fun j =>
    (i, k / o.unitLen + j)
def unitKey (x : Nat × Nat) : Nat := x.1 * 4096 + x.2
def Op.unread (o : Op) (k n : Nat) : List (Nat × Nat) := (o.units k n).filter fun x => (tfind o.got (unitKey x)).isNone

/-- The units of A for a segment, with those read now. -/
def State.aUnits (s : State) (o : Op) (k n : Nat) : Except FRec (Tab (Nat × List Byte)) :=
  let us := o.unread k n
  match exceptAll (us.map fun x => s.aUnit o x.1 x.2) with
  | .error fr => .error fr
  | .ok rs => .ok ((List.range us.length).foldl (fun t i => tput t (unitKey (us.getD i (0, 0))) (rs.getD i (0, []))) o.got)

/-- One row of A over elements k to k + n, with its scale byte, from the units read. -/
def Op.aRow (o : Op) (got : Tab (Nat × List Byte)) (i k n : Nat) : Nat × List Byte :=
  let us := ((o.units k n).filter fun x => x.1 = i).map fun x => (tfind got (unitKey x)).getD (0, [])
  ((us.headD (0, [])).1, (us.flatMap (·.2)).drop (k % o.unitLen * efBits (bitsOf o.mfmt 3 0) / 8))

/-- The units that elements from `k` on still need. -/
def Op.keepUnits (o : Op) (got : Tab (Nat × List Byte)) (k : Nat) : Tab (Nat × List Byte) :=
  got.filter fun e => decide (k < (e.1 % 4096 + 1) * o.unitLen)

/-- The pages of units in global memory that no earlier access of the operation translated. -/
def Op.newPages (o : Op) (us : List (Nat × Nat)) : List Nat :=
  if o.sa then [] else
    let vas := us.flatMap fun x =>
      let y := o.unitAt x.1 x.2
      [y.1, y.1 + y.2.1 - 1] ++ y.2.2.toList
    (sortNat (vas.map (· / 4096))).filter fun p => !o.seen.contains p

/-- The element codes and scale byte of column `j` of B over k to k + n. -/
def State.bCol (s : State) (o : Op) (j k n : Nat) : List Nat × Nat :=
  let w := efBits (bitsOf o.mfmt 7 4)
  let e := o.perReg
  let uid := o.uids.getD (j / 32) 0
  let word := fun u r l => (tget 0 s.vreg (vkey u r l)).toNat
  let g := k / scaleLen (geomOf o.mfmt)
  let sc := if geomOf o.mfmt = 3 then word (o.uids.getD 0 0) (o.vs + g / 4) 0 else word uid (o.vs + g / 4) (j % 32)
  ((List.range n).map fun i => word uid (o.vb + (k + i) / e) (j % 32) / 2 ^ (w * ((k + i) % e)) % 2 ^ w,
    sc / 2 ^ (8 * (g % 4)) % 256)

/-- The checks of a segment in an engine (R188): `bad` computations of it mismatch. The engine afterwards,
the sticky flags, whether duplicate mode is entered, whether the segment has no accepted pair. -/
def Engine.check (e : Engine) (bad : Nat) : Engine × Nat × Bool × Bool :=
  if bad = 0 then (e, 0, false, false)
  else if !e.dup && bad = 1 then ({ e with recov := min (e.recov + 1) 65535 }, MFlag.chk, false, false)
  else
    let pairs := if e.dup then bad else bad - 2
    if 3 ≤ pairs then ({ e with dup := true }, 0, !e.dup, true)
    else ({ e with dup := true, recov := min (e.recov + 1) 65535 }, MFlag.chk, !e.dup, false)

/-- B for a segment, and the square that is kept: under strip-square every strip and the one scale are those read with
the square's first segment (R139). -/
def State.bCols (s : State) (o : Op) (k n : Nat) : List (List Nat × Nat) × List (List Nat × Nat) :=
  if geomOf o.mfmt != 3 then ((List.range 128).map fun j => s.bCol o j k n, [])
  else
    let sq := if k % 128 = 0 then (List.range 128).map fun j => s.bCol o j k 128 else o.bbuf
    (sq.map fun (c : List Nat × Nat) => ((c.1.drop (k % 128)).take n, c.2), sq)

/-- The silo after a segment, and the flags it raises. -/
def State.segment (s : State) (o : Op) (n : Nat) (rows : List (Nat × List Byte)) (cols : List (List Nat × Nat)) :
    Tab W32 × Nat :=
  let af := bitsOf o.mfmt 3 0
  let sf := bitsOf o.mfmt 13 12
  let scale := fun x => if o.kind = 1 then some x else none
  let as := rows.map fun r => segOp af sf (unpackElems (efBits af) n r.2) (scale r.1)
  let bs := cols.map fun c => segOp (bitsOf o.mfmt 7 4) sf c.1 (scale c.2)
  let none_ : SegOp := { xs := [], ex := 0, nf := false, sc := .fin false 1 1, fl := 0 }
  let out := (List.range o.nrows).flatMap fun i => (List.range 128).map fun j =>
    let key := siloKey o.uid (o.rows.1 + i) j
    let acc := if o.acc || o.pos != 0 then tget 0 s.silo key else 0
    (key, accumulate (o.fields.immBits 41 40) acc (as.getD i none_) (bs.getD j none_))
  (tsetMany 0 s.silo (out.map fun x => (x.1, x.2.1)), out.foldl (fun fl x => fl ||| x.2.2) 0)

/-- PASS_SEGMENT: the next segment is computed and checked, and added into the silo. How many of its
computations mismatch is a free value, beside those that ERRINJ asks for (log 28: DESIGN CHOICE, safe). -/
def execPassSegment (id : Nat) (s : State) : Host.Outcome State Fault Refusal :=
  match tfind s.ops id with
  | none => .next s
  | some o =>
    if !o.isPass || !o.granted || o.hang || o.nseg ≤ o.pos then .next s
    else
      let k := o.pos * segLen o.mfmt
      let n := min (segLen o.mfmt) (o.k - k)
      match s.aUnits o k n with
      | .error fr => .next (s.opFault id o fr)
      | .ok got =>
        let ei := clusterIx o.core
        let e := s.engine ei
        let (x, s) := s.free
        let inj := decide (0 < e.inject)
        let c := Engine.check { e with inject := e.inject - 1 } (bitsOf x 2 0 + inj.toNat)
        let s := s.putEngine ei c.1
        let s := if c.2.2.1 then s.logEvent LogCode.duplicate (some ei) none else s
        if c.2.2.2 then .next (s.putOp id { o with hang := true })
        else
          let cols := s.bCols o k n
          let seg := s.segment o n ((List.range o.nrows).map fun i => o.aRow got i k n) cols.1
          let new := o.newPages (o.unread k n)
          let s := s.translatedAll o.core o.asid (new.map (· * 4096))
          let s := ({ s with silo := seg.1 } : State).sticky o (seg.2 ||| c.2.1)
          .next (s.putOp id { o with pos := o.pos + 1, got := o.keepUnits got (k + n), bbuf := cols.2, seen := o.seen ++ new })

/-! ### Completions (R195, R203, R205) -/

/-- An operation leaves: groups that waited to end for its registers end, and it arrives at its barrier. -/
def State.opDone (s : State) (id : Nat) (o : Op) (bytes : Nat) : State :=
  let s := { s with ops := tdel s.ops id }
  let s := (s.crewGroups o.core o.crew).foldl (fun s e => s.reap e.1) s
  if o.fields.immBits 43 43 = 1 then s.workArrive o.core o.crew (o.fields.immBits 47 44) bytes o.pc else s

/-- Words of a region set to one value. -/
def State.fillRegion (s : State) (o : Op) (c0 nc : Nat) (x : W32) : State :=
  { s with silo := tsetMany 0 s.silo ((List.range o.nrows).flatMap fun i => (List.range nc).map fun j =>
      (siloKey o.uid (o.rows.1 + i) (c0 + j), x)) }

def execPassCompletion (id : Nat) (s : State) : Host.Outcome State Fault Refusal :=
  match tfind s.ops id with
  | none => .next s
  | some o =>
    if !o.isPass || !o.granted || o.hang || o.pos < o.nseg then .next s
    else
      let s := if o.acc then s else
        let s := if o.nseg = 0 then s.fillRegion o 0 128 0 else s
        s.poisonRows o.uid o.rows.1 o.rows.2 false
      .next (s.opDone id o 0)

/-! ### Beats of a drain or a copy with the silo (R197, R198, R219) -/

/-- A column's record of a drain's table (R197). -/
def State.tableRec (s : State) (o : Op) (col : Nat) : Except FRec (List Byte) :=
  s.engBytes o true ((o.ops.getD 3 0).toNat + 16 * col) 16
/-- The key of a record read ahead for word `j` of beat `b` of a drain. -/
def Op.tabKey (o : Op) (b j : Nat) : Nat := o.beats + 16 * b + j

/-- One word of a drain, with what was read of its table record ahead: its bytes as a number, the flags, or MPARM or the
fault of the table's read. No record is read for a poisoned row (log 124: DESIGN CHOICE, unsafe). -/
def State.drainWord (s : State) (o : Op) (row col : Nat) (ahead : Option (List Byte)) : Except FRec (Nat × Nat) :=
  let w := tget 0 s.silo (siloKey o.uid row col)
  let bad := tget false s.poison (o.uid * 2048 + row)
  if o.kind = 5 then .ok (w.toNat, if bad then MFlag.psn else 0)
  else if bad then .ok (poisonOut o.rq o.outf, MFlag.psn)
  else if !o.rq then .ok (w.toNat, 0)
  else match ((ahead.map Except.ok).getD (s.tableRec o col) : Except FRec (List Byte)) with
    | .error fr => .error fr
    | .ok bs =>
      let q := rqRec o.outf bs
      if q.bad then .error { code := Code.mparm } else .ok (requant o.outf (o.fields.immBits 33 33 == 1) q w)

/-- Where beat `b` lies: its row, its address, the first column it holds. -/
def Op.beatAt (o : Op) (b : Nat) : Nat × Nat × Nat :=
  let i := b / o.rowBeats
  let off := 16 * (b % o.rowBeats)
  (o.rows.1 + i, (o.ops.getD 1 0).toNat + i * bitsOf (o.ops.getD 2 0) 31 0 + off, o.col0 + off / o.ow)

/-- A beat out of the silo; the table records of its columns that have not been read ahead are read with it. -/
def State.beatOut (s : State) (id b : Nat) (o : Op) : State :=
  let p := o.beatAt b
  match exceptAll ((List.range (16 / o.ow)).map fun j =>
      s.drainWord o p.1 (p.2.2 + j) ((tfind o.got (o.tabKey b j)).map (·.2))) with
  | .error fr => s.opFault id o fr
  | .ok ws =>
    let bytes := ws.flatMap fun w => leBytes o.ow w.1
    let vas := (List.range 16).map (p.2.1 + ·)
    match s.copyPlaces o.core o.uid (s.scratchSize o) o.asid o.sdst.isSome Acc.engWrite vas with
    | .error fr => s.opFault id o fr
    | .ok ps =>
      let cells := (List.range 16).map fun i => (vas.getD i 0, ps.getD i 0, bytes.getD i 0)
      let w := if o.sdst.isSome then HomeWrite.ok { s with scratch := tsetMany 0 s.scratch (cells.map (·.2)) }
        else s.workWrite (.op id) o.core o.asid cells
      match w with
      | .busy => s
      | .capf fr => s.opFault id o { fr with acc := Acc.engWrite }
      | .ok s =>
        let new := if o.sdst.isSome then [] else (sortNat (vas.map (· / 4096))).filter fun q => !o.seen.contains q
        let s := (s.translatedAll o.core o.asid (new.map (· * 4096))).sticky o (ws.foldl (fun fl w => fl ||| w.2) 0)
        s.putOp id { o with granted := true, did := insertNat b o.did, seen := o.seen ++ new, capf := capfDone o.capf o.asid vas,
                            got := tclear o.got (o.tabKey b 0) (o.tabKey (b + 1) 0) }

/-- A read of one record of a drain's table ahead of the beat that needs it: each is a unit of its own (R209). -/
def State.beatTab (s : State) (id k : Nat) (o : Op) : State :=
  let b := (k - o.beats) / 16
  let j := (k - o.beats) % 16
  let p := o.beatAt b
  if o.kind != 4 || !o.rq || o.beats ≤ b || 16 / o.ow ≤ j || o.did.contains b || (tfind o.got k).isSome ||
      tget false s.poison (o.uid * 2048 + p.1) then s
  else match s.tableRec o (p.2.2 + j) with
    | .error fr => s.opFault id o fr
    | .ok bs => s.putOp id { o with granted := true, got := tput o.got k (0, bs) }

/-- A read of one unit of A by a pass that holds its arrays, ahead of the segment that needs it (R138, R219). -/
def State.beatA (s : State) (id k : Nat) (o : Op) : State :=
  let x := (k / 4096, k % 4096)
  if !o.granted || o.hang || o.nrows ≤ x.1 || o.k ≤ x.2 * o.unitLen || (x.2 + 1) * o.unitLen ≤ o.pos * segLen o.mfmt ||
      (tfind o.got k).isSome then s
  else match s.aUnit o x.1 x.2 with
    | .error fr => s.opFault id o fr
    | .ok u =>
      let new := o.newPages [x]
      (s.translatedAll o.core o.asid (new.map (· * 4096))).putOp id { o with got := tput o.got k u, seen := o.seen ++ new }

/-- A beat of MCPY.in. -/
def State.beatIn (s : State) (id b : Nat) (o : Op) : State :=
  let p := o.beatAt b
  match s.engBytes o true p.2.1 16 with
  | .error fr => s.opFault id o fr
  | .ok bs =>
    let cells := (List.range 4).map fun j =>
      (siloKey o.uid p.1 (p.2.2 + j), BitVec.ofNat 32 (leNat ((bs.drop (4 * j)).take 4)))
    ({ s with silo := tsetMany 0 s.silo cells } : State).putOp id { o with granted := true, did := insertNat b o.did }

/-- BEAT: of a copy, of a silo operation that moves words, or of a pass's reads of A (R217, R219); a number beyond a
drain's beats stands for a record of its table. -/
def execBeat (id k : Nat) (s : State) : Host.Outcome State Fault Refusal :=
  match tfind s.copies id with
  | some c => .next (s.copyStep id k c)
  | none =>
    match tfind s.ops id with
    | none => .next s
    | some o =>
      if o.isPass then .next (s.beatA id k o)
      else if o.stall.isSome || o.did.contains k || (!o.granted && !s.opReady id o) then .next s
      else .next (if o.beats ≤ k then s.beatTab id k o else if o.kind = 6 then s.beatIn id k o else s.beatOut id k o)

/-- A link error of an operation that reaches a peer or a pool device (R302, R370): it stops as on ADDRV. -/
def State.opLink (s : State) (id : Nat) : State :=
  match tfind s.ops id with
  | none => s
  | some o =>
    let onLink := fun (a : Nat) (write : Bool) => match s.translate o.core o.asid a Acc.engRead write false with
      | .ok pa _ => overLink pa
      | _ => false
    let k := o.pos * segLen o.mfmt
    let hit := if o.isPass then
        (if o.sa || !o.granted then [] else (o.unread k (o.k - k)).flatMap fun x =>
          (o.unitAt x.1 x.2).1 :: (o.unitAt x.1 x.2).2.2.toList).find? fun a => onLink a false
      else if o.kind = 4 && o.sdst.isNone then
        (((List.range o.beats).filter fun b => !o.did.contains b).map fun b => (o.beatAt b).2.1).find? fun a => onLink a true
      else none
    match hit with
    | some a => s.opFault id o { code := Code.addrv, acc := if o.isPass then Acc.engRead else Acc.engWrite,
                                 va := BitVec.ofNat 64 a }
    | none => s

/-- A link error of a sequencer's fetch (R302, R370). -/
def State.seqLink (s : State) (core slot : Nat) : State :=
  match s.crew? core slot with
  | none => s
  | some c =>
    if c.seqr.exists_ && c.seqr.running && !c.seqr.halted && s.fetchLinked core c.asid c.seqr.mpc then
      s.seqFault core slot c { code := Code.addrv, acc := Acc.fetch, va := c.seqr.mpc.setWidth 64 }
    else s

/-- SILO_OPERATION_COMPLETION: MZERO and MFILL write their region; the others have made every beat. -/
def execSiloOperationCompletion (id : Nat) (s : State) : Host.Outcome State Fault Refusal :=
  match tfind s.ops id with
  | none => .next s
  | some o =>
    let clear := fun (s : State) => if o.ncol = 128 then s.poisonRows o.uid o.rows.1 o.rows.2 false else s
    if o.kind = 2 || o.kind = 3 then
      if !s.opReady id o then .next s
      else
        let x : W32 := if o.kind = 2 then 0 else (o.ops.getD 1 0).setWidth 32
        .next ((clear (s.fillRegion o o.col0 o.ncol x)).opDone id o 0)
    else if 4 ≤ o.kind && o.did.length = o.beats then
      .next ((if o.kind = 6 then clear s else s).opDone id o (o.nrows * o.ncol * o.ow))
    else .next s

/-! ### The watchdog and the engine's reset (R334 to R336) -/

/-- A pass whose segments are all in the silo: it completes before a reset in its clock (R207). -/
def Op.passDone (o : Op) : Bool := o.isPass && o.granted && !o.hang && decide (o.nseg ≤ o.pos)

/-- Each affected crew stops with ENGRESET, its rows poisoned and its entries discarded. -/
def State.engineReset (s : State) (engine : Nat) : State :=
  let e := s.engine engine
  let mine := s.ops.filter fun x => x.2.isPass && clusterIx x.2.core = engine && !x.2.passDone
  let s := mine.foldl (fun (s : State) x =>
    ({ s with ops := tdel s.ops x.1 } : State).poisonRows x.2.uid x.2.rows.1 x.2.rows.2 true) s
  let uids := (mine.map fun x => x.2.uid).eraseDups
  let s := uids.foldl (fun (s : State) u =>
    match mine.find? fun x => x.2.uid = u with
    | none => s
    | some x =>
      let rows := ((mine.filter fun y => y.2.uid = u).flatMap fun y =>
        (List.range y.2.nrows).map (y.2.rows.1 + ·)).eraseDups
      s.stopCrew x.2.core x.2.crew none
        { code := Code.engreset, pc := x.2.pc, b2c := BitVec.ofNat 32 engine, b30 := BitVec.ofNat 64 rows.length }) s
  (s.putEngine engine { e with resetting := true, resets := min (e.resets + 1) 65535 }).logEvent
    LogCode.engineReset (some engine) none

/-- Engines with a pass that never completes. -/
def State.hungEngines (s : State) : List Nat :=
  s.ops.filterMap fun e => if e.2.isPass && e.2.granted && e.2.hang then some (clusterIx e.2.core) else none

/-- ENGINE_WATCHDOG_EXPIRY: a pass that never completes has held its arrays for 2^20 clocks, or has a segment without
an accepted pair. Any other pass ends sooner (R195, log 29: DEDUCED, unsafe). Which one expires first is a free choice
(log 4: DESIGN CHOICE, safe). -/
def execEngineWatchdogExpiry (s : State) : Host.Outcome State Fault Refusal :=
  let x := s.free
  match s.hungEngines with
  | [] => .next s
  | e :: t => .next (x.2.engineReset ((e :: t).getD (x.1.toNat % (t.length + 1)) e))

/-- The mode that a self-test gives (R189): `failed` are the planes it finds failed, with those ERRINJ has
made to fail. -/
def Engine.selfTest (e : Engine) (failed : List Nat) : Engine :=
  let fs := (List.range 4).filter fun p => failed.contains p || e.injected.contains p
  { e with failed := fs, unusable := decide (2 ≤ fs.length), dup := false, resetting := false }

/-- ENGINE_RESUME. -/
def execEngineResume (engine : Nat) (failed : List Nat) (s : State) : Host.Outcome State Fault Refusal :=
  let e := s.engine engine
  if !e.resetting then .next s
  else
    let e' := e.selfTest failed
    let s := s.putEngine engine e'
    .next (if e'.failed.isEmpty then s else s.logEvent LogCode.planeFailed (some engine) none)

/-- EMSTAT (R336). -/
def Engine.emstat (e : Engine) : W64 :=
  BitVec.ofNat 64 (e.unusable.toNat + e.emode * 2 ^ 16 + e.plane * 2 ^ 18 + e.recov * 2 ^ 32 + e.resets * 2 ^ 48)

end Sys2Proof.Machine
end

