-- ==== Sys2Proof/Machine/Tenancy.lean ====
section
/-! DEFINITION. Partitions and address spaces (R290), heat counters (R297, R298), the fault ring and replay
(R301, R305, R306), page-table updates and shootdown (R307, R308, R382). -/

namespace Sys2Proof.Machine

/-! ### PARTITION_ENABLE and ASID_DISABLE (R290) -/

/-- RW bits of PARTD word 1. -/
def partdMask : W64 := 0x8000FFFFFFFFFFFF
/-- RW bits of an ASIDT entry. -/
def asidtMask : W64 := 0xBF0FFFFFFFFFF000

/-- A share, summed over the enabled partitions and partition `p`. -/
def State.shares (s : State) (p hi lo : Nat) : Nat :=
  ((List.range 64).map fun q => if q = p || s.partOn q then bitsOf (s.partd q 2) hi lo else 0).sum

/-- Whether EN = 1 is refused for a partition. -/
def State.partRefused (s : State) (p : Nat) : Bool :=
  let fl := bitsOf (s.partd p 2) 36 32
  ((List.range 64).any fun q => q != p && s.partOn q && (s.partd q 0 &&& s.partd p 0) != 0) ||
    decide (fl < 6) || decide (16 < fl) || decide (256 < s.shares p 7 0) || decide (256 < s.shares p 15 8)

/-- A write of PARTD word 1 with EN = 1. -/
def execPartitionEnable (part : Nat) (w : W64) (s : State) : Host.Outcome State Fault Refusal :=
  if 64 ≤ part || !bitOf w 63 then .next s
  else
    let v := w &&& partdMask
    .next (s.setCtl (0x2008 + 32 * part) (if s.partRefused part then v &&& 0x7FFFFFFFFFFFFFFF else v))

/-- Whether an ASID is in use: a crew resident or saved, a region, a queue. -/
def State.asidBusy (s : State) (asid : Nat) : Bool :=
  s.crews.any (fun e => e.2.asid = asid) || s.saved.any (fun e => e.2.crew.asid = asid) ||
    s.regions.any (fun e => e.2.asid = asid) ||
    (List.range 64).any fun n => bitOf (s.ctlw (0x1000 + 64 * n)) 63 && bitsOf (s.ctlw (0x1000 + 64 * n)) 11 0 = asid

/-- A write of an ASIDT entry with EN = 0. -/
def execAsidDisable (asid : Nat) (w : W64) (s : State) : Host.Outcome State Fault Refusal :=
  if 4096 ≤ asid || bitOf w 63 || (s.asidLive asid && s.asidBusy asid) then .next s
  else .next (({ s with goneRanges := s.goneRanges.filter fun e => e.1 != asid } : State).setCtl (0x10000 + 8 * asid) (w &&& asidtMask))

/-! ### Heat (R297, R298) -/

/-- Whether a frame has a counter: those of device memory and of pool windows do. -/
def State.hasHeat (s : State) (frame : Nat) : Bool := decide (frame * 4096 < s.dev.granary.memb) || s.inPool (frame * 4096)

/-- HEAT_SAMPLE: the counter of a sampled frame rises. -/
def execHeatSample (core frame : Nat) (s : State) : Host.Outcome State Fault Refusal :=
  if !(s.core core).samples.contains frame then .next s
  else
    let s := s.modCore core fun c => { c with samples := c.samples.erase frame }
    if !s.hasHeat frame then .next s
    else .next { s with heat := tset 0 s.heat frame (BitVec.ofNat 8 (min ((tget 0 s.heat frame).toNat + 1) 255)) }

def execHeatrd (f : Fields) (s : State) : Host.Outcome State Fault Refusal :=
  issue 2 f (shapeHeatrd f) s fun s _ r =>
    let f0 := bitsOf (s.gr r f.a.toNat) 51 15 * 8
    let c := fun n => if s.hasHeat (f0 + n) then (tget 0 s.heat (f0 + n)).toNat else 0
    let x := BitVec.ofNat 64 ((List.range 8).map fun n => c n * 2 ^ (8 * n)).sum
    let half := fun (h : Tab Byte) (n : Nat) =>
      if s.hasHeat (f0 + n) then tset 0 h (f0 + n) (BitVec.ofNat 8 (c n / 2)) else h
    let s' := if f.fnIs 1 then { s with heat := (List.range 8).foldl half s.heat } else s
    .done (s'.setG r f.d.toNat x) (r.next f)

/-! ### FAULT_RECORD_WRITE (R301, R305, R290) -/

/-- An informational record (R315, R250). -/
def FRec.informational (r : FRec) : Bool :=
  decide (0x400 ≤ r.code) || (r.code == Code.dblres && r.who == 0xFFFFFFFF)

/-- Where a partition's fault ring lies, and its records' number (R290, R301). -/
def State.fring (s : State) (part : Nat) : Nat := bitsOf (s.partd part 1) 47 12 * 4096
def State.frsize (s : State) (part : Nat) : Nat := 2 ^ bitsOf (s.partd part 2) 36 32
/-- Whether the whole ring is mapped pinned and writable: the partition's faults are recordable (R301). -/
def State.recordable (s : State) (part : Nat) : Bool :=
  (List.range ((64 + 64 * s.frsize part + 4095) / 4096)).all fun i =>
    (s.pinned noCore (s.fasid part) (s.fring part + 4096 * i)).isSome
/-- Whether the ring has no room. -/
def State.ringFull (s : State) (part : Nat) : Bool :=
  match s.ringRead noCore (s.fasid part) (s.fring part) 8, s.ringRead noCore (s.fasid part) (s.fring part + 8) 8 with
  | some w, some rd => decide (s.frsize part ≤ (w + 2 ^ 64 - rd) % 2 ^ 64)
  | _, _ => true

/-- The oldest record of a partition: written to the ring; dropped where the ring is unrecordable, or where
it is informational and the ring is full; else held. -/
def execFaultRecordWrite (part : Nat) (s : State) : Host.Outcome State Fault Refusal :=
  match s.records.find? fun x => x.1 = part with
  | none => .next s
  | some (_, r) =>
    let gone := { s with records := s.records.filter fun x => !(x.1 == part && x.2.id == r.id) }
    let w2 := s.partd part 2
    let size := s.frsize part
    let fa := s.fasid part
    let base := s.fring part
    if !s.recordable part then .next gone
    else match s.ringRead noCore fa base 8, s.ringRead noCore fa (base + 8) 8 with
    | some w, some rd =>
      if size ≤ (w + 2 ^ 64 - rd) % 2 ^ 64 then
        if !r.informational then .next s
        else match s.ringRead noCore fa (base + 16) 4 with
          | some d => .next ((gone.ringWrite noCore fa (base + 16) (leBytes 4 (min (d + 1) 0xFFFFFFFF))).getD gone)
          | none => .next gone
      else
        match gone.ringWrite noCore fa (base + 64 + 64 * (w % size)) r.bytes with
        | none => .next gone
        | some s' =>
          let s' := (s'.ringWrite noCore fa base (leBytes 8 (w + 1))).getD s'
          let v := bitsOf w2 45 40
          .next (if bitOf w2 46 && decide (4 ≤ v) then s'.vector v else s')
    | _, _ => .next gone

/-! ### FREPLAY (R300, R306) -/

/-- What a replay names: a page, or every waiter of the partition. -/
def State.replays (s : State) (part : Nat) (w : W64) (page : Nat × Nat) : Bool :=
  s.partOf page.1 == part && (bitOf w 63 || (bitsOf w 59 48 == page.1 && bitsOf w 47 12 == page.2))

/-- A stall that a replay ends. -/
def unstall (hit : Nat × Nat → Bool) (st : Option (Nat × Nat)) : Option (Nat × Nat) :=
  match st with
  | some p => if hit p then none else st
  | none => none

/-- A group after a replay: it leaves the page, its stalled stores go on. `hit` takes the PC of a waiting
instruction and its page. -/
def Group.replayed (r : Group) (asid : Nat) (hit : BitVec 48 → Nat × Nat → Bool) : Group :=
  let r := { r with outbox := r.outbox.map fun (e : Ent) =>
    if e.stall && e.vas.any (fun v => hit e.pc (asid, v / 4096)) then { e with stall := false } else e }
  match r.wait with
  | .page a v => if hit r.pc (a, v) then { r with wait := r.kept.anew, kept := .none } else r
  | _ => r

/-- Whether a waiter's record finds the ring full: the waiter stays stalled (R305). `who` is its WHO word with lane 0,
or all ones. -/
def State.recHeld (s : State) (part : Nat) (pc : BitVec 48) (who : W32) (page : Nat × Nat) : Bool :=
  s.ringFull part && s.records.any fun x => x.1 == part && x.2.replayable && x.2.pc == pc &&
    (x.2.who &&& 0x00FFFFFF == who &&& 0x00FFFFFF) && x.2.asid == page.1 && x.2.va.toNat / 4096 % 2 ^ 36 == page.2

/-- A saved crew after a replay: it awaits no page where one of its waiting groups is reached. -/
def Saved.replayed (sv : Saved) (hit : W32 → BitVec 48 → Nat × Nat → Bool) : Saved :=
  let reached := sv.groups.any fun e => match e.2.wait with
    | .page a v => hit (whoOf { core := sv.core, slot := e.1 } e.2.crew 0) e.2.pc (a, v)
    | _ => false
  if reached then { sv with pages := [] } else sv

/-- A write of FREPLAY. It reaches no waiter of a partition whose ring is unrecordable (R305, log 96: DEDUCED,
unsafe). -/
def State.freplay (s : State) (part : Nat) (w : W64) : State :=
  let hit := fun (who : W32) (pc : BitVec 48) (p : Nat × Nat) => s.replays part w p && !s.recHeld part pc who p
  let own := fun (pc : BitVec 48) => hit 0xFFFFFFFF pc
  if !s.recordable part then s else
  let s1 := { s with
    groups := s.groups.map fun (e : Nat × Group) =>
      (e.1, e.2.replayed (s.crewOf (keyGid e.1) e.2).asid (hit (whoOf (keyGid e.1) e.2.crew 0))),
    copies := s.copies.map fun (e : Nat × Copy) => (e.1, { e.2 with stall := unstall (own e.2.pc) e.2.stall }),
    ops := s.ops.map fun (e : Nat × Op) => (e.1, { e.2 with stall := unstall (own e.2.pc) e.2.stall }),
    pushes := s.pushes.map fun (e : Nat × Push) => (e.1, { e.2 with stall := unstall (own 0) e.2.stall }),
    lanes := s.lanes.map fun (e : Nat × Lane) => (e.1, { e.2 with stall := unstall (own 0) e.2.stall }),
    saved := s.saved.map fun (e : Nat × Saved) => (e.1, e.2.replayed hit) }
  let again := s.launches.filter fun e => match e.2.stall with | some p => own 0 p | none => false
  again.foldl (fun (s : State) e => s.completion e.1) s1

def execFreplay (part : Nat) (w : W64) (s : State) : Host.Outcome State Fault Refusal :=
  if 64 ≤ part then .next s else .next (s.freplay part w)

/-! ### PTEUPD (R307, R308, R382) -/

def pteOff (die k : Nat) : Nat := 0x4400 + 64 * die + 8 * k
def State.pte (s : State) (die k : Nat) : W64 := s.ctlw (pteOff die k)
def State.setStat (s : State) (die x : Nat) : State := s.setCtl (pteOff die 4) (BitVec.ofNat 64 x)

/-- Where the walk stands when it reaches a level: the entry's address; a larger leaf met on the way (entry,
level, address); or no table below. -/
inductive PteWalk where
  | entry (ea : Nat)
  | large (e : W64) (lvl ea : Nat)
  | none

/-- The walk towards level `want`, from a table at `lvl`. -/
def State.pteWalk (s : State) (asid va want : Nat) : Nat → Nat → PteWalk
  | 0, _ => .none
  | lvl + 1, tab =>
    let ea := tab + 8 * (va / 2 ^ (12 + 9 * lvl) % 512)
    let e := BitVec.ofNat 64 (s.pword ea 8)
    if !s.answers tab then .none
    else if lvl + 1 = want then .entry ea
    else if s.malformed asid va (lvl + 1) e || !bitOf e 0 then .none
    else if bitOf e 1 then .large e (lvl + 1) ea
    else s.pteWalk asid va want lvl (bitsOf e 51 12 * 4096)

/-- Takes a frame from the die's splinter pool. A pool, or a frame of it, on a peer that may not be accessed is as an
empty one (R370, log 120: DESIGN CHOICE, unsafe). -/
def State.splinterFrame (s : State) (die : Nat) : Option (Nat × State) :=
  let w := s.pte die 5
  let base := bitsOf w 51 12 * 4096
  let rd := s.pword (base + 8) 8
  let fr := s.ringEntry base (bitsOf w 4 0) rd / 4096 * 4096
  if !s.answers base || s.pword base 8 = rd || !s.answers fr then none
  else some (fr, s.pstore (base + 8) 8 (rd + 1))

/-- Fills a table with the 512 smaller leaves of a large one, and installs it. -/
def State.splinter (s : State) (e : W64) (lvl ea frame : Nat) : State :=
  let f0 := bitsOf e 51 12 * 4096
  let leaf := fun i => e.toNat - f0 + (f0 + i * pageSize (lvl - 1))
  let s := (List.range 512).foldl (fun (s : State) i => s.pstore (frame + 8 * i) 8 (leaf i)) s
  (s.pstore ea 8 (frame + 1)).dropLeaf ea

/-- Splinters until the named level is reached: the entry's address; or STAT's refusal. -/
def State.reach (s : State) (die asid va want : Nat) : Nat → Except Nat (State × Nat)
  | 0 => .error 0x11
  | n + 1 =>
    match s.pteWalk asid va want 4 (s.rootOf asid) with
    | .none => .error 0x11
    | .entry ea => .ok (s, ea)
    | .large e lvl ea =>
      match s.splinterFrame die with
      | none => .error 0x12
      | some (fr, s') => (s'.splinter e lvl ea fr).reach die asid va want n

/-- The stores of an ASID whose drain is to translate them anew stand, for their group's loads, where they lie now. -/
def State.restand (s : State) (asid : Nat) : State :=
  { s with groups := s.groups.map fun (e : Nat × Group) =>
      if (s.crewOf (keyGid e.1) e.2).asid = asid && e.2.outbox.any (·.anew) then
        (e.1, { e.2 with outbox := e.2.outbox.map fun x => (s.placeAnew (keyGid e.1).core asid x).2 })
      else e }

/-- Every core's translation agent and every L2 TLB drop their entries that cover the page or lie in it (R307). -/
def State.invalidate (s : State) (asid va lvl : Nat) : State :=
  let keep := fun (t : Tab (W64 × Nat × Nat)) => t.filter fun x => !tlbMeets asid va lvl x.1
  { s with cores := s.cores.map fun (e : Nat × Core) => (e.1, { e.2 with tlb := keep e.2.tlb }),
           dies := s.dies.map fun (e : Nat × Die) => (e.1, { e.2 with tlb := keep e.2.tlb }) }

/-- The instruction-cache blocks of a page, on every core of the ASID's partition (R382). -/
def State.dropCode (s : State) (asid va lvl : Nat) : State :=
  let lo := asid * 2 ^ 48 + va / pageSize lvl * pageSize lvl
  let p := s.partOf asid
  { s with cores := s.cores.map fun (e : Nat × Core) =>
    if s.owns p e.1 then (e.1, { e.2 with icache := tclear e.2.icache lo (lo + pageSize lvl) }) else e }

/-- A shootdown begins: STAT is busy until it is acknowledged. -/
def State.shoot (s : State) (die asid va lvl : Nat) : State :=
  let d := (tfind s.dies die).getD {}
  let s := ((s.invalidate asid va lvl).restand asid).setStat die 1
  let d' := (tfind s.dies die).getD d
  { s with dies := tput s.dies die { d' with pteBusy := true, pteAsid := asid, pteVa := va, pteLvl := lvl } }

/-- The page, ASID and level of a die's block. -/
def State.pteArgs (s : State) (die : Nat) : Nat × Nat × Nat :=
  (bitsOf (s.pte die 0) 47 12 * 4096, bitsOf (s.pte die 1) 11 0, bitsOf (s.pte die 0) 1 0)

/-- PTE_UPDATE. A block that is busy, or that names no level, ignores the write (log 30: DESIGN CHOICE, unsafe). -/
def execPteUpdate (die : Nat) (s : State) : Host.Outcome State Fault Refusal :=
  let (va, asid, want) := s.pteArgs die
  let old := s.pte die 2
  let new := s.pte die 3
  if 4 ≤ die || ((tfind s.dies die).getD {}).pteBusy || want = 0 then .next s
  else if s.malformed asid va want new then .next (s.setStat die 0x13)
  else
    let s := s.walkReads asid va
    match s.reach die asid va want 4 with
    | .error x => .next (s.setStat die x)
    | .ok (s1, ea) =>
      if s1.pword ea 8 != old.toNat then .next (s1.setStat die 0x11)
      else
        let s2 := s1.pstore ea 8 new.toNat
        let cmp := fun (e : W64) => want == 1 && bitOf e 0 && bitOf e 1 && bitOf e 7
        let s3 := if cmp old && cmp new then s2.movePage (placeOf old 1 ea va) (placeOf new 1 ea va) else s2
        let code := fun (e : W64) => bitOf e 0 && bitOf e 1 && bitOf e 3
        let s4 := if code old || code new then s3.dropCode asid va want else s3
        .next (s4.shoot die asid va want)

/-- PTE_INVALIDATE. -/
def execPteInvalidate (die : Nat) (s : State) : Host.Outcome State Fault Refusal :=
  let (va, asid, want) := s.pteArgs die
  if 4 ≤ die || ((tfind s.dies die).getD {}).pteBusy || want = 0 then .next s
  else .next (s.shoot die asid va want)

/-- Whether an access translated under the old entry has still to take its step at home: an outbox entry of the ASID on
the page, a lane of an atomic, or of a future instruction. A store whose drain met CAPF, or waits for one, is not
awaited: it is translated anew, and what serves the fault may need the update (R310). -/
def State.inFlight (s : State) (asid va lvl : Nat) : Bool :=
  let n := pageSize lvl
  let on := fun a => a / n == va / n
  s.groups.any fun e =>
    (s.crewOf (keyGid e.1) e.2).asid = asid &&
      ((e.2.outbox.any fun x => x.marker.isNone && !x.anew && x.vas.any on) ||
        match e.2.wait with
        | .atom todo _ => e.2.waits && todo.any fun t =>
          t.2.1 == 0 && t.2.2 != atomAnew && on (s.addrPlain e.2 e.2.ins true t.1).toNat
        | .futs _ ps => e.2.waits && ps.any fun p => on (p.1 * 4096)
        | _ => false)

/-- SHOOTDOWN_COMPLETE. -/
def execShootdownComplete (die : Nat) (s : State) : Host.Outcome State Fault Refusal :=
  match tfind s.dies die with
  | none => .next s
  | some d =>
    if !d.pteBusy || s.inFlight d.pteAsid d.pteVa d.pteLvl then .next s
    else .next (({ s with dies := tput s.dies die { d with pteBusy := false } } : State).setStat die 0x10)

end Sys2Proof.Machine
end

