-- ==== Sys2Proof/Machine/Thresher.lean ====
section
/-! DEFINITION. The Thresher: host rings, packets, rounds, indirect buffers, queue errors (R374 to R380), and
the device launch queues (R119). -/

namespace Sys2Proof.Machine

/-! ### Lanes -/

/-- Whether the Thresher runs (R387, R388). -/
def State.thresherUp (s : State) : Bool := s.dev.up && !s.dev.granary.recovery && !s.dev.hold
/-- Whether a lane is enabled and not stopped, and does not wait for a page. -/
def State.laneLive (s : State) (n : Nat) : Bool :=
  s.thresherUp && decide (n < 64) && bitOf (s.hqd n 0) 63 && !bitOf (s.hqd n 0) 59 && (s.lane n).stall.isNone
def State.laneKind (s : State) (n : Nat) : Bool := bitOf (s.hqd n 0) 62

/-- A fault of a lane's read or write: a replayable one stalls the lane, another stops the queue (R377). -/
def State.laneFault (s : State) (n : Nat) (fr : FRec) : State :=
  let asid := s.laneAsid n
  if fr.busy then s
  else if fr.replayable then
    let l := s.lane n
    (s.putLane n { l with stall := some (asid, fr.va.toNat / 4096), capf := fr.capfPage asid }).raise (s.partOf asid)
      { fr with asid := asid }
  else s.queueError n 5

/-- `n` bytes of a packet from an offset. -/
def pktNat (p : List Byte) (off n : Nat) : Nat := leNat ((p.drop off).take n)
def pktType (p : List Byte) : Nat := pktNat p 8 1
/-- The bits of the word at 8 that a type uses besides TYPE: COND, SZ8, INTR, VEC (R376). -/
def pktBits (t : Nat) : Nat :=
  match t with
  | 3 => 0x700
  | 4 => 0x3F0C00
  | 6 => 0x3F0800
  | _ => 0
/-- TYPE_BAD (R376): an unknown type, a reserved bit, a vector below 4. (Log 71: DEDUCED, unsafe.) -/
def pktBad (p : List Byte) : Bool :=
  let t := pktType p
  let c := pktNat p 8 8
  decide (6 < t) || BitVec.ofNat 64 c &&& ~~~ BitVec.ofNat 64 (0xFF + pktBits t) != 0 ||
    ((t == 4 || t == 6) && c / 2 ^ 11 % 2 == 1 && decide (c / 2 ^ 16 % 64 < 4)) ||
    (t != 1 && t != 3 && pktNat p 0x20 8 != 0) ||
    (p.drop (if t = 1 then 0x50 else 0x28)).any (· != 0)

/-! ### QUEUE_POLL (R375) -/

/-- Reads a packet of an open buffer. -/
def State.pollBuffer (s : State) (n a i cnt : Nat) (rest : List (Nat × Nat × Nat)) : State :=
  let l := s.lane n
  let va := a + 128 * i
  let s := s.putLane n { l with addr := va }
  match s.homeOf noCore (s.laneAsid n) va 128 Acc.queue false with
  | .error fr => s.laneFault n fr
  | .ok pa => (s.readElsewhere pa 128).putLane n { l with addr := va, pkt := some (s.bytes pa 128), ib := (a, i + 1, cnt) :: rest }

/-- The address of the slot of index `i`. -/
def State.slotAddr (s : State) (n i : Nat) : Nat :=
  s.ringAddr n + 128 + 128 * (i % 2 ^ bitsOf (s.hqd n 2) 4 0)

/-- A ring in a peer's memory that the domain's map does not give is ADDRV (R370, R379). -/
def State.ringFault (s : State) (n : Nat) : State :=
  (s.putLane n { s.lane n with addr := s.ringAddr n }).laneFault n { code := Code.addrv, acc := Acc.queue }

/-- Reads the ring slot of RIDX, if it is published. -/
def State.pollRing (s : State) (n : Nat) : State :=
  if !s.ringOk n then s.ringFault n else
  let i := s.ridx n
  let a := s.slotAddr n i
  if s.ringWord n a 8 != (i + 1) % 2 ^ 64 then s
  else
    let bs := if s.ringHost n then (List.range 128).map fun k => tget 0 s.hostMem (a + k) else s.bytes (s.home a) 128
    let s := if s.ringHost n then s else s.readElsewhere (s.home a) 128
    s.putLane n { s.lane n with addr := a, pkt := some bs }

def execQueuePoll (lane : Nat) (s : State) : Host.Outcome State Fault Refusal :=
  if !s.laneLive lane || s.laneKind lane || (s.lane lane).pkt.isSome then .next s
  else match (s.lane lane).ib with
    | (a, i, cnt) :: rest => .next (s.pollBuffer lane a i cnt rest)
    | [] => .next (s.pollRing lane)

/-! ### THRESHER_ROUND (R377) -/

/-- Whether a lane holds a packet it may take a step on. -/
def State.holds (s : State) (n : Nat) : Bool := s.laneLive n && (s.lane n).pkt.isSome && !(s.lane n).passed
def State.pktOf (s : State) (n : Nat) : List Byte := ((s.lane n).pkt).getD []

/-- The order of the types in a round: WRITE_VALUE, FENCE, WAIT_VALUE, LAUNCH, IB_CALL, TIMESTAMP, NOP. -/
def typeOrder : List Nat := [4, 5, 3, 1, 2, 6, 0]

/-- A round goes on with the lanes that may still take their step; once none may, the next begins: packets
that are TYPE_BAD stop their queues, and the others are served by type, then lane. -/
def execThresherRound (s : State) : Host.Outcome State Fault Refusal :=
  let left := s.dev.round.filter s.holds
  if !left.isEmpty then .next { s with dev := { s.dev with round := left } }
  else
    let ls := (List.range 64).filter s.holds
    let s1 := (ls.filter fun n => pktBad (s.pktOf n)).foldl (fun (s : State) n => s.queueError n 3) s
    let good := ls.filter fun n => !pktBad (s.pktOf n)
    let round := typeOrder.flatMap fun t => good.filter fun n => pktType (s.pktOf n) = t
    .next { s1 with dev := { s1.dev with round := round } }

/-- The step on a packet of one type: the lane that is next in the round takes its turn. -/
def State.serve (s : State) (t : Nat) (k : State → Nat → List Byte → State) : Host.Outcome State Fault Refusal :=
  match s.dev.round with
  | [] => .next s
  | n :: rest =>
    if !s.holds n || pktType (s.pktOf n) != t then .next s
    else .next (k { s with dev := { s.dev with round := rest } } n (s.pktOf n))

/-! ### Packets (R376, R378) -/

def execNopPacket (s : State) : Host.Outcome State Fault Refusal :=
  s.serve 0 fun s lane _ => s.packetTaken lane

/-- A queue's privilege (R374): 3 is taken as 0. -/
def State.lanePriv (s : State) (n : Nat) : Nat :=
  let p := bitsOf (s.hqd n 0) 61 60
  if p = 3 then 0 else p

/-- LAUNCH: the record goes to a dispatcher; the packet is taken once it is accepted (R375). -/
def execLaunch (s : State) : Host.Outcome State Fault Refusal :=
  s.serve 1 fun s lane p =>
    let ws := (List.range 8).map fun i => BitVec.ofNat 64 (pktNat p (0x10 + 8 * i) 8)
    let l := s.lane lane
    ((s.putLane lane { l with passed := true }).newLaunch ws (l.addr + 0x10) (s.laneAsid lane) (s.lanePriv lane) lane).2

def execIbCall (s : State) : Host.Outcome State Fault Refusal :=
  s.serve 2 fun s lane p =>
    let l := s.lane lane
    let a := pktNat p 0x10 8
    let n := pktNat p 0x18 8
    if 4 ≤ l.ib.length then s.queueError lane 1
    else if l.ib.any fun b => b.1 = a then s.queueError lane 2
    else if a % 128 != 0 || n = 0 || 65536 < n then s.queueError lane 4
    else s.putLane lane { l with pkt := none, ib := (a, 0, n) :: l.ib }

/-- A lane's read of a packet's target (R337). -/
def State.laneRead (s : State) (lane a n : Nat) : State :=
  match s.homeOf noCore (s.laneAsid lane) a n Acc.queue false with
  | .ok pa => s.readElsewhere pa n
  | .error _ => s

/-- The comparison of WAIT_VALUE. -/
def waitCond (c x y : Nat) : Bool :=
  match c with
  | 0 => x == y
  | 1 => x != y
  | 2 => decide (y ≤ x)
  | _ => decide (x < y)

/-- The access size of a packet. -/
def pktSize (p : List Byte) : Nat := if pktNat p 8 8 / 2 ^ 10 % 2 = 1 then 8 else 4

def execWaitValue (s : State) : Host.Outcome State Fault Refusal :=
  s.serve 3 fun s lane p =>
    let n := pktSize p
    let a := pktNat p 0x10 8
    if a % n != 0 then s.queueError lane 5
    else match s.homeLoad noCore (s.laneAsid lane) a n Acc.queue with
      | .error fr => s.laneFault lane fr
      | .ok x =>
        let s := s.laneRead lane a n
        -- 64 bits of VAL and MASK, whatever the access's size
        let mask : W64 := BitVec.ofNat 64 (pktNat p 0x20 8)
        let y : W64 := BitVec.ofNat 64 (pktNat p 0x18 8)
        if waitCond (pktNat p 8 8 / 2 ^ 8 % 4) (BitVec.ofNat 64 x &&& mask).toNat (y &&& mask).toNat then
          s.packetTaken lane
        else s

/-- A packet's write at home, then its vector with INTR, and the packet is taken. -/
def State.packetWrite (s : State) (lane : Nat) (p : List Byte) (n x : Nat) : State :=
  let a := pktNat p 0x10 8
  let c := pktNat p 8 8
  if a % n != 0 then s.queueError lane 5
  else match s.homeStore (.lane lane) noCore (s.laneAsid lane) a Acc.store (leBytes n x) with
    | .error fr => s.laneFault lane fr
    | .ok s' =>
      let s' := s'.putLane lane { s'.lane lane with capf := none }
      (if c / 2 ^ 11 % 2 = 1 then s'.vector (c / 2 ^ 16 % 64) else s').packetTaken lane

def execWriteValue (s : State) : Host.Outcome State Fault Refusal :=
  s.serve 4 fun s lane p => s.packetWrite lane p (pktSize p) (pktNat p 0x18 8)

def execTimestamp (s : State) : Host.Outcome State Fault Refusal :=
  s.serve 6 fun s lane p => s.packetWrite lane p 8 s.dev.hb.toNat

/-- FENCE: taken once no launch of the queue is outstanding. -/
def execFencePacket (s : State) : Host.Outcome State Fault Refusal :=
  s.serve 5 fun s lane _ => if (s.lane lane).outstanding.isEmpty then s.packetTaken lane else s

/-! ### QUEUE_RESTART (R380) -/

/-- A lane that stops or is disabled takes no further turn in the round: its next packet is of a later one. -/
def State.leaveRound (s : State) (n : Nat) : State :=
  { s with dev := { s.dev with round := s.dev.round.filter (· != n) } }

/-- RST on a stopped queue. A device launch queue's RIDX has passed the entry already. -/
def State.queueRestart (s : State) (lane : Nat) : State :=
  let s := if s.laneKind lane then s else s.setRidx lane (s.ridx lane + 1)
  let s := (s.putLane lane { s.lane lane with taken := none }).leaveRound lane
  let s := s.setCtl (hqdOff lane 0) (setBit (s.hqd lane 0) 59 false)
  (s.setCtl (hqdOff lane 3) 0).setCtl (hqdOff lane 4) 0

def execQueueRestart (lane : Nat) (s : State) : Host.Outcome State Fault Refusal :=
  if 64 ≤ lane || !bitOf (s.hqd lane 0) 59 then .next s else .next (s.queueRestart lane)

/-! ### DEVICE_LAUNCH_QUEUE_TAKE (R119) -/

/-- The record of a taken entry goes to a dispatcher with its maker's ASID (R291) at level 0. -/
def State.deviceLaunch (s : State) (lane i slot : Nat) (bs : List Byte) : State :=
  let k := s.lanePart lane * 2 ^ 64 + i
  let asid := (tfind s.dev.dlqAsid k).getD (s.laneAsid lane)
  let ws := (List.range 8).map fun j => BitVec.ofNat 64 (pktNat bs (8 * j) 8)
  let s := { s with dev := { s.dev with dlqAsid := tdel s.dev.dlqAsid k } }
  (s.newLaunch ws slot asid 0 64).2

/-- One of QPOP's steps on the partition's device launch queue; DLQD.EN only lets TSUB push (R119). -/
def execDeviceLaunchQueueTake (lane : Nat) (s : State) : Host.Outcome State Fault Refusal :=
  let part := s.lanePart lane
  let da := s.dlqDesc part
  let asid := s.laneAsid lane
  if !s.laneLive lane || !s.laneKind lane then .next s
  else
    let s := s.putLane lane { s.lane lane with addr := da.toNat }
    match (s.lane lane).taken with
    | none =>
      match s.qTake (.lane lane) noCore asid da Acc.queue with
      | .took s' i => .next (s'.putLane lane { s'.lane lane with taken := some i, capf := none })
      | .fault fr => .next (s.laneFault lane fr)
      | _ => .next s
    | some i =>
      match s.qEmpty (.lane lane) noCore asid da Acc.queue i with
      | .done s' bs =>
        let slot := match s.qdesc noCore asid da Acc.queue with
          | .ok q => q.slot i
          | .error _ => 0
        .next ((s'.putLane lane { s'.lane lane with taken := none, capf := none }).deviceLaunch lane i slot bs)
      | .fault fr => .next (s.laneFault lane fr)
      | _ => .next s

/-- A link error of a lane's access (R302, R370): of the packet in hand, or of its next read of a buffer, a ring or a
device launch queue that lies over a link. -/
def State.laneLink (s : State) (n : Nat) : State :=
  let fault := fun (s : State) => s.laneFault n { code := Code.addrv, acc := Acc.queue }
  let at_ := fun (va : Nat) => fault (s.putLane n { s.lane n with addr := va })
  if 64 ≤ n then s
  else if (s.lane n).pkt.isSome then fault s
  else if !s.laneLive n then s
  else if s.laneKind n then
    let da := (s.dlqDesc (s.lanePart n)).toNat
    if s.placeLinked noCore (s.laneAsid n) da 64 Acc.queue true then at_ da else s
  else match (s.lane n).ib with
    | (a, i, _) :: _ =>
      if s.placeLinked noCore (s.laneAsid n) (a + 128 * i) 128 Acc.queue false then at_ (a + 128 * i) else s
    | [] => if !s.ringHost n && overLink (s.home (s.ringAddr n)) then at_ (s.ringAddr n) else s

end Sys2Proof.Machine
end

