-- ==== Sys2Proof/Machine/Snapshot.lean ====
section
/-! DEFINITION. The latch of a snapshot: every unit's block as it stood in the latch clock (R32, R354). A
block's place and the order of its fields are the model's where the manual gives none, and what the model
does not hold (whether a ready group waits on the scoreboard, the counters of slots without issue, the L2
slices) is a free value (log 13: DESIGN CHOICE, unsafe). -/

namespace Sys2Proof.Machine

/-- Words of a block from an offset. -/
def wordsAt (off : Nat) (ws : List W64) : List (Nat × W64) :=
  (List.range ws.length).map fun i => (off + 8 * i, ws.getD i 0)

/-! ### Cores -/

/-- A group's state: 0 free, 1 ready, 2 scoreboard, 3 waiting, 4 halted, 5 parked, 6 handler. `fr` is free. -/
def Group.snapState (r : Group) (fr : Bool) : Nat :=
  if r.halt.cause != 0 then 4
  else if r.inHandler then 6
  else if !r.traps.isEmpty then 5
  else if r.wait != .none then 3
  else if fr then 2 else 1

/-- The two words of a group. -/
def Group.snapWords (r : Group) (fr : Bool) : List W64 :=
  [BitVec.ofNat 64 (r.pc.toNat + r.snapState fr * 2 ^ 48 + r.crew % 16 * 2 ^ 52), r.exec.setWidth 64]

/-- The parked participant of REPACK in a slot. -/
def State.parkedIn (s : State) (core n : Nat) : Option Group :=
  (s.crews.filter fun e => e.1 / 16 = core).findSome? fun e => (e.2.parts.find? fun p => p.1 = n).map (·.2)

/-- A slot's two words: the handler group that issues there, or the group, or a parked participant. -/
def State.slotWords (s : State) (core n : Nat) (fr : Bool) : List W64 :=
  match s.group? { core := core, slot := n, hnd := true } with
  | some r => r.snapWords fr
  | none => match s.group? { core := core, slot := n } with
    | some r => r.snapWords fr
    | none => match s.parkedIn core n with
      | some r => [BitVec.ofNat 64 (r.pc.toNat + 5 * 2 ^ 48 + r.crew % 16 * 2 ^ 52), r.exec.setWidth 64]
      | none => [0, 0]

/-- A core's block; `fv` gives its free values. -/
def State.coreBlock (s : State) (core : Nat) (fv : Nat → W64) : List W64 :=
  let c := s.core core
  let count := fun n => (c.watch.getD n {}).count
  ((List.range 32).flatMap fun n => s.slotWords core n ((fv 0).getLsbD n)) ++
    ((List.range 16).map fun i => if i < 2 then c.leaf.getD i 0 else fv i) ++
    ((List.range 8).map fun i => BitVec.ofNat 64 (count (2 * i) + count (2 * i + 1) * 2 ^ 32)) ++ [(s.avail core).bits]

/-! ### Engines, slices, Gleaners, the Thresher -/

/-- A reservation entry's two words. -/
def State.entryWords (s : State) (o : Op) : List W64 :=
  let prio := ((s.crewByUid o.core o.crew o.uid).map fun c => c.prio).getD 0
  [BitVec.ofNat 64 (o.core + o.crew * 2 ^ 8 + prio * 2 ^ 12 + o.granted.toNat * 2 ^ 15 + o.age % 2 ^ 16 * 2 ^ 16 +
      o.rows.1 * 2 ^ 32 + o.rows.2 * 2 ^ 48), BitVec.ofNat 64 o.pos]

def State.engineBlock (s : State) (n : Nat) : List W64 :=
  let es := s.ops.filterMap fun x => if x.2.kind < 2 && clusterIx x.2.core = n then some x.2 else none
  let ws := (es.take 16).flatMap s.entryWords
  ws ++ List.replicate (32 - ws.length) 0 ++ [(s.engine n).emstat]

/-- The phase of a region, and the lines a die owes each partner. -/
def State.gleanerBlock (s : State) (die : Nat) : List W64 :=
  (List.range 64).flatMap fun d =>
    match tfind s.regions d with
    | none => List.replicate 8 0
    | some x =>
      let owed := fun p => (x.owed.filter fun e => decide (e.1 / 2 ^ 40 = die) && bitOf e.2 p).length
      BitVec.ofNat 64 x.phase :: ((List.range 4).map fun p => BitVec.ofNat 64 (owed p)) ++ [0, 0, 0]

def State.thresherBlock (s : State) : List W64 :=
  (List.range 64).flatMap fun n =>
    [BitVec.ofNat 64 (s.ridx n),
      match (s.lane n).pkt with
      | some p => BitVec.ofNat 64 (256 + pktType p)
      | none => 0]

/-- Every block, in the order of R371: cores, engines, one block of L2 slices a die, Gleaners, the Thresher. -/
def State.snapBlocks (s : State) : List (Nat × W64) :=
  let fv := fun k => Config.freeValue (s.freeCtr + k)
  ((List.range 256).flatMap fun n => wordsAt (0x100000 + 0x1000 * n) (s.coreBlock n fun i => fv (16 * n + i))) ++
    ((List.range 64).flatMap fun n => wordsAt (0x200000 + 0x1000 * n) (s.engineBlock n)) ++
    ((List.range 4).flatMap fun n => wordsAt (0x240000 + 0x1000 * n) ((List.range 512).map fun i => fv (4096 + 512 * n + i))) ++
    ((List.range 4).flatMap fun n => wordsAt (0x244000 + 0x1000 * n) (s.gleanerBlock n)) ++
    wordsAt 0x248000 s.thresherBlock

/-! ### SNAPSHOT_LATCH -/

/-- SNAPWHO: of the groups that raised the trigger, the one on the lowest-numbered core; else all ones. -/
def snapWho : List W32 → W64
  | [] => 0xFFFFFFFFFFFFFFFF
  | w :: t => (t.foldl (fun (m x : W32) => if bitsOf x 7 0 < bitsOf m 7 0 then x else m) w).setWidth 64

def execSnapshotLatch (s : State) : Host.Outcome State Fault Refusal :=
  let sn := s.dev.snap
  if sn.pending = 0 || sn.held then .next s
  else
    let sn := { sn with held := true, pending := 0, src := sn.pending, hb := s.dev.hb, who := snapWho sn.pendWho,
                        pendWho := [], blocks := s.snapBlocks }
    .next (({ s with dev := { s.dev with snap := sn }, freeCtr := s.freeCtr + 6144 } : State).vector 1)

/-- SNAPCTL (R354). -/
def Snap.ctl (sn : Snap) : W64 :=
  BitVec.ofNat 64 (sn.held.toNat * 2 ^ 63 + sn.missed % 2 ^ 16 * 2 ^ 32 + sn.src.toNat)

end Sys2Proof.Machine
end

