-- ==== Sys2Proof/Machine/Host.lean ====
section
/-! DEFINITION. The host and the Granary: control-block registers (R371, R372), pool windows and BAR2 (R372),
MSI-X (R373), the mailbox (R385), firmware update and the event log (R386, R387), bring-up and power (R388),
peer links (R372), the clock step and the thermal stop (R384). -/

namespace Sys2Proof.Machine

def State.granary (s : State) : Granary := s.dev.granary
def State.putGranary (s : State) (x : Granary) : State := { s with dev := { s.dev with granary := x } }

/-! ### Reading the control block (R371, R383) -/

/-- The identity record (R383). -/
def State.identity (s : State) (off : Nat) : W64 :=
  let g := s.granary
  match off with
  | 0x00 => 0x303238342D585A45
  | 0x08 => BitVec.ofNat 64 (g.step % 256 + 0x0100 * 2 ^ 8 + g.fwver.toNat % 2 ^ 32 * 2 ^ 32)
  | 0x10 => BitVec.ofNat 64 (((List.range 64).map fun n => if (s.engine n).unusable then 2 ^ n else 0).sum)
  | 0x18 => BitVec.ofNat 64 g.memb
  | 0x20 => BitVec.ofNat 64 (g.cstep + g.recovery.toNat * 2 ^ 8)
  | 0x28 => BitVec.ofNat 64 s.lstore
  | _ => 0

/-- What a read of the word at an offset, a multiple of 8, returns. -/
def State.regRead (s : State) (off : Nat) : W64 :=
  if off < 0x1000 then (if s.dev.up then s.identity off else 0)
  else if 0x4600 ≤ off && off < 0x4800 then (s.engine ((off - 0x4600) / 8)).emstat
  else if off = 0x4800 then s.dev.snap.ctl
  else if off = 0x4808 then s.dev.snap.hb
  else if off = 0x4810 then s.dev.snap.who
  else if 0x2800 ≤ off && off < 0x3800 && off % 64 = 0x10 then 0
  else if off = 0x5000 then 0
  else if 0x100000 ≤ off then tget 0 s.dev.snap.blocks off
  else s.ctlw off

/-! ### REGISTER_WRITE (R371) -/

/-- The bits of a word that a write sets; none for a word that ignores writes or has its own event. -/
def regMask (off : Nat) : Option W64 :=
  if off % 8 != 0 then none
  else if 0x1000 ≤ off && off < 0x2000 then
    match off % 64 / 8 with
    | 0 => some 0xF13F000000000FFF
    | 1 => some 0xFFFFFFFFFFFFFF80
    | 2 => some 0x1F
    | _ => none
  else if 0x2000 ≤ off && off < 0x2800 then
    match off % 32 / 8 with
    | 0 => some 0xFFFFFFFFFFFFFFFF
    | 1 => some partdMask
    | 2 => some 0x00007F1FFFFFFFFF
    | _ => none
  else if 0x2800 ≤ off && off < 0x3800 then
    match off % 64 / 8 with
    | 0 => some 0x0000FFFFFFFFF01F
    | 1 => some 0x0000FFFFFFFFFFC1
    | 3 => some 0x801FFFFFFFFFF000
    | 4 => some 0x80FFFFFFFFFFF000
    | 5 => some 0xFC0FFFFFFFFFF000
    | _ => none
  else if 0x3800 ≤ off && off < 0x3C00 then (if off % 16 = 8 then some 0x0000FFFF0007FFFF else none)
  else if 0x3C00 ≤ off && off < 0x4400 then
    match off % 32 / 8 with
    | 0 => some 0x8FFFFFFFFFFFF000
    | 1 => some 0x7FFFF
    | _ => some 0x000FFFFFFFFFF01F
  else if 0x4400 ≤ off && off < 0x4500 then
    match off % 64 / 8 with
    | 0 => some 0x0000FFFFFFFFF003
    | 1 => some 0xFFF
    | 2 => some 0xFFFFFFFFFFFFFFFF
    | 3 => some 0xFFFFFFFFFFFFFFFF
    | 5 => some 0x000FFFFFFFFFF01F
    | _ => none
  else if off = 0x4820 then some 0x800FFFF000000000
  else if 0x4E00 ≤ off && off < 0x5000 then
    match off % 32 / 8 with
    | 0 => some 0x800FFFFFF0000000
    | 1 => some 0x000FFFFFF0000000
    | 2 => some 0xFFFF
    | _ => none
  else if 0x5008 ≤ off && off < 0x5028 then some 0xFFFFFFFFFFFFFFFF
  else if 0x10000 ≤ off && off < 0x18000 then some asidtMask
  else none

/-- The bits a write keeps as they are: STOP of HQD, STRETCH of LDESC, OVFCNT of CRGN. -/
def regKeep (off : Nat) : W64 :=
  if 0x1000 ≤ off && off < 0x2000 && off % 64 = 0 then 0x0800000000000000
  else if 0x3800 ≤ off && off < 0x3C00 then 0xFFFF000000000000
  else if 0x3C00 ≤ off && off < 0x4400 && off % 32 = 8 then 0xFFFFFFFF00000000
  else 0

/-- A word after a write. -/
def State.regValue (s : State) (off : Nat) (w m : W64) : W64 := (w &&& m) ||| (s.ctlw off &&& regKeep off)

/-- QBACKOFF of a sender, 4 bytes each (R91). -/
def State.backoffWrite (s : State) (off : Nat) (w : W64) : State :=
  let v := w &&& 0xFFFFF
  if off % 8 = 0 then s.setCtl off ((s.ctlw off &&& 0xFFFFFFFF00000000) ||| v)
  else s.setCtl (off - 4) ((s.ctlw (off - 4) &&& 0x00000000FFFFFFFF) ||| (v <<< 32))
/-- Log 56: DESIGN CHOICE, safe. -/
def isBackoff (off : Nat) : Bool := off % 4 == 0 && ((decide (0x4900 ≤ off) && decide (off < 0x4914)) || (decide (0x4A00 ≤ off) && decide (off < 0x4E00)))

/-- Whether a queue's EN stays 0: LOGN outside 4 to 16 (R374). -/
def hqdBad (w2 : W64) : Bool := decide (bitsOf w2 4 0 < 4) || decide (16 < bitsOf w2 4 0)
/-- A lane of a queue that is disabled gives up its packet and buffers. -/
def State.hqdOffLane (s : State) (n : Nat) : State :=
  if bitOf (s.hqd n 0) 63 then s
  else (s.putLane n { s.lane n with pkt := none, ib := [], passed := false, stall := none, capf := none, taken := none }).leaveRound n
/-- Writes word 0 or word 2 of a queue's descriptor; EN stays 0 where LOGN is bad. -/
def State.hqdWrite (s : State) (off : Nat) (v : W64) : State :=
  let n := (off - 0x1000) / 64
  let s := s.setCtl off v
  (if hqdBad (s.hqd n 2) then s.setCtl (hqdOff n 0) (setBit (s.hqd n 0) 63 false) else s).hqdOffLane n

/-- The mailbox commands that have an event of their own (R385). -/
def mailboxCodes : List Nat := [0x01, 0x10, 0x11, 0x12, 0x20, 0x21, 0x22, 0x23, 0x24, 0x30, 0x31, 0x40]
def State.mailBusy (s : State) : Bool := bitOf (s.ctlw 0x5028) 63

/-- Whether the write is one that has an event of its own. -/
def State.ownEvent (s : State) (off : Nat) (w : W64) : Bool :=
  if 0x2000 ≤ off && off < 0x2800 && off % 32 = 8 then bitOf w 63
  else if 0x2800 ≤ off && off < 0x3800 then off % 64 == 0x10
  else if 0x3800 ≤ off && off < 0x3C00 then off % 16 == 0
  else if 0x4400 ≤ off && off < 0x4500 then off % 64 == 32
  else if 0x4E00 ≤ off && off < 0x5000 && off % 32 = 0 then bitOf w 63 || bitOf (s.ctlw off) 63
  else if 0x10000 ≤ off && off < 0x18000 then !bitOf w 63 && bitOf (s.ctlw off) 63
  else if off = 0x5000 then mailboxCodes.contains (w.toNat % 256) && decide (w.toNat < 256)
  else false

/-- A mailbox command begins: STAT reads busy, and its result is kept for its completion. -/
def State.mailStart (s : State) (code result : Nat) : State :=
  ((s.setCtl 0x5000 (BitVec.ofNat 64 code)).setCtl 0x5028 0x8000000000000000).putGranary { s.granary with result := result }

/-- A vector's mask bit is cleared: an interrupt that it kept pending is sent. -/
def State.unmask (s : State) (vec : Nat) : State :=
  let m := s.dev.msix
  let m := { m with mask := setBit m.mask vec false }
  let m := if bitOf m.pending vec then { m with pending := setBit m.pending vec false, sent := m.sent ++ [vec] } else m
  { s with dev := { s.dev with msix := m } }

/-- A write of the MSI-X table, which the standard places in a BAR of the host's: the model has it behind the 64 MiB
of BAR0, 16 bytes a vector, with the mask in bit 0 of the last word (log 78: PRESUMED, unsafe). -/
def State.msixWrite (s : State) (off : Nat) (w : W64) : State :=
  let v := (off - 2 ^ 26) / 16
  if off % 16 != 12 || 64 ≤ v then s
  else if bitOf w 0 then { s with dev := { s.dev with msix := { s.dev.msix with mask := setBit s.dev.msix.mask v true } } }
  else s.unmask v

/-- A write of a register without a behaviour of its own sets its RW bits. (Log 16: DESIGN CHOICE, unsafe.) (Log 65:
DEDUCED, safe.) (Log 72: DESIGN CHOICE, safe.) PARTD's fields of an enabled partition are written unchecked (log 118:
DESIGN CHOICE, unsafe). -/
def execRegisterWrite (who : Agent) (off : Nat) (w : W64) (s : State) : Host.Outcome State Fault Refusal :=
  if who = .host && 2 ^ 26 ≤ off then .next (s.msixWrite off w)
  else if s.ownEvent off w then .next s
  else if isBackoff off then .next (s.backoffWrite off w)
  -- the Granary sets DOMID at bring-up, and DOMMAP as a peer link trains or fails, which it logs: no write of its own
  -- changes either (R372)
  else if off = 0x4818 || off = 0x4828 then .next s
  else if off = 0x5000 then
    -- a command that the manual does not list: its result is a free value (log 4: DESIGN CHOICE, safe)
    if s.mailBusy then .next s
    -- the loader accepts only its own (R387)
    else if s.granary.recovery then .next (s.mailStart (w.toNat % 2 ^ 64) 1) else
    let x := s.free
    .next (x.2.mailStart (w.toNat % 2 ^ 64) (x.1.toNat % 256))
  else match regMask off with
    | none => .next s
    | some m =>
      let v := s.regValue off w m
      if 0x1000 ≤ off && off < 0x2000 then
        -- RST = 1 on a stopped queue restarts it, and the word's fields are written (R374, R380, log 98: DEDUCED, unsafe)
        let n := (off - 0x1000) / 64
        if off % 64 = 0 && bitOf w 58 && bitOf (s.ctlw off) 59 then
          let s1 := s.queueRestart n
          .next (s1.hqdWrite off (s1.regValue off w m))
        else .next (s.hqdWrite off v)
      else if 0x3800 ≤ off && off < 0x3C00 then
        -- word 1 of a registered descriptor (R254)
        match tfind s.regions ((off - 0x3800) / 16) with
        | some x => .next (s.latDesc ((off - 0x3800) / 16) x.asid 5)
        | none => .next (s.setCtl off v)
      else .next (s.setCtl off v)

/-! ### POOL_WINDOW_ENABLE and POOL_WINDOW_DISABLE (R372) -/

def poolOff (port win : Nat) : Nat := 0x4E00 + 128 * port + 32 * win

/-- Whether EN = 1 of a window is refused. -/
def State.poolRefused (s : State) (port win : Nat) (w : W64) (trained : Bool) : Bool :=
  let base := bitsOf w 51 28 * 2 ^ 28
  let size := bitsOf (s.ctlw (poolOff port win + 16)) 15 0 * 2 ^ 28
  size = 0 || decide (base < s.granary.memb) || decide (2 ^ 51 < base + size) || !trained ||
    (({ s with ctl := tdel s.ctl (poolOff port win) } : State).poolWins).any fun x =>
      decide (x.2.1 < base + size) && decide (base < x.2.1 + x.2.2.1)

def execPoolWindowEnable (port win : Nat) (w : W64) (trained : Bool) (s : State) : Host.Outcome State Fault Refusal :=
  if 4 ≤ port || 4 ≤ win || !bitOf w 63 then .next s
  else
    let v := w &&& 0x800FFFFFF0000000
    .next (s.setCtl (poolOff port win) (if s.poolRefused port win w trained then setBit v 63 false else v))

/-- Whether a table at a level, or one below it, holds a leaf with POOL = 1 in [lo, hi). -/
def State.tableMaps (s : State) (lo hi : Nat) : Nat → Nat → Bool
  | 0, _ => false
  | lvl + 1, tab => (List.range 512).any fun i =>
    let e := BitVec.ofNat 64 (s.pword (tab + 8 * i) 8)
    let fr := bitsOf e 51 12 * 4096
    bitOf e 0 && (if bitOf e 1 then bitOf e 8 && decide (fr < hi) && decide (lo < fr + pageSize (lvl + 1))
      else s.tableMaps lo hi lvl fr)
/-- Whether any live address space does. -/
def State.poolMapped (s : State) (lo hi : Nat) : Bool :=
  s.ctl.any fun e => decide (0x10000 ≤ e.1) && decide (e.1 < 0x18000) && bitOf e.2 63 && s.tableMaps lo hi 4 (bitsOf e.2 51 12 * 4096)

/-- A record of the event log whose code the manual does not give: the code is a free value (log 4: DESIGN CHOICE,
safe). -/
def State.logFree (s : State) (source : Option Nat) : State :=
  let x := s.free
  x.2.logEvent (x.1.toNat % 65536) source none

def execPoolWindowDisable (port win : Nat) (w : W64) (s : State) : Host.Outcome State Fault Refusal :=
  if 4 ≤ port || 4 ≤ win || bitOf w 63 then .next s
  else
    let o := poolOff port win
    let base := bitsOf (s.ctlw o) 51 28 * 2 ^ 28
    if bitOf (s.ctlw o) 63 && s.poolMapped base (base + bitsOf (s.ctlw (o + 16)) 15 0 * 2 ^ 28) then .next (s.logFree (some port))
    else .next (s.setCtl o (w &&& 0x000FFFFFF0000000))

/-! ### BAR2 (R372) -/

/-- The address a BAR2 access reaches; none where it is unsupported. -/
def State.bar2 (s : State) (off size : Nat) : Option Nat :=
  let w := s.ctlw 0x4820
  let a := bitsOf w 51 36 * 2 ^ 36 + off
  if !bitOf w 63 || s.granary.memb < a + size || s.inLattice a size then none else some a
/-- A naturally aligned unit of the window; a larger access is several. -/
def bar2Unit (off size : Nat) : Bool := [1, 2, 4, 8].contains size && off % size == 0 && decide (off < 2 ^ 36)
def State.countUnsupported (s : State) : State := s.putGranary { s.granary with unsupported := s.granary.unsupported + 1 }
def State.setBar2 (s : State) (x : W64) : State := { s with dev := { s.dev with bar2Result := x } }

/-- Log 75: DEDUCED, safe. -/
def execBar2Read (off size : Nat) (s : State) : Host.Outcome State Fault Refusal :=
  if !bar2Unit off size then .next s
  else match s.bar2 off size with
    | none => .next (s.countUnsupported.setBar2 (BitVec.ofNat 64 (2 ^ (8 * size) - 1)))
    | some a =>
      if s.uncorrectable a size then
        -- logged (R337); the data is a free value (log 4: DESIGN CHOICE, safe)
        let x := (s.readElsewhere a size).free
        .next (x.2.setBar2 (BitVec.ofNat 64 (x.1.toNat % 2 ^ (8 * size))))
      else .next ((s.correct a size).setBar2 (BitVec.ofNat 64 (s.word a size)))

def execBar2Write (off size : Nat) (val : W64) (s : State) : Host.Outcome State Fault Refusal :=
  if !bar2Unit off size then .next s
  else match s.bar2 off size with
    | none => .next s.countUnsupported
    | some a => .next (s.storeWord a size val.toNat)

/-! ### MSI-X (R373) -/

def execMsixUnmask (vec : Nat) (s : State) : Host.Outcome State Fault Refusal :=
  if 64 ≤ vec then .next s
  else .next (s.unmask vec)

/-! ### The mailbox (R385) -/

def State.mailArg (s : State) (k : Nat) : W64 := s.ctlw (0x5008 + 8 * k)

/-- A command: ignored while busy; refused by the recovery loader, unless it is one it accepts (R387). What
it does comes with its result: 0 done, 1 refused, 2 bad argument. -/
def State.mailbox (s : State) (code : Nat) (k : State → State × Nat) : Host.Outcome State Fault Refusal :=
  if s.mailBusy then .next s
  else if s.granary.recovery && !(([0x01, 0x10, 0x11, 0x12] : List Nat).contains code) then .next (s.mailStart code 1)
  else
    let x := k s
    .next (x.1.mailStart code x.2)

/-- MAILBOX_COMMAND_COMPLETION: STAT takes the result, and vector 0 is raised. HSTEP completes once its
stepping has ended; a commit's image is then in flash. -/
def execMailboxCommandCompletion (s : State) : Host.Outcome State Fault Refusal :=
  if !s.mailBusy then .next s
  else
    let fin := fun (s : State) => Host.Outcome.next ((s.setCtl 0x5028 (BitVec.ofNat 64 (s.granary.result % 256))).vector 0)
    match s.granary.hstep with
    | some (k, lane, limit, n, skipped) =>
      let ends := fun b => fin (s.stepReport 0 k lane limit n skipped (some b))
      (match s.group? (keyGid k) with
      | none => ends (2 ^ 19)
      | some x => if x.stepper != some 0 then ends (2 ^ 19) else if x.halt.cause = 7 then ends (2 ^ 18) else .next s)
    | none =>
      if s.ctlw 0x5000 = 0x12 && s.granary.result = 0 then
        let x := s.free
        let g := { x.2.granary with imageValid := true, flashVer := x.1 &&& 0xFFFFFFFF, staged := none }
        fin ((x.2.putGranary g).logEvent LogCode.firmware none none)
      else fin s

/-- READ_EVENT_LOG. Records are numbered from the first ever written (log 32: DESIGN CHOICE, unsafe). -/
def execReadEventLog (s : State) : Host.Outcome State Fault Refusal :=
  s.mailbox 0x01 fun s =>
    let i := (s.mailArg 0).toNat
    let n := (s.mailArg 1).toNat
    let a := (s.mailArg 2).toNat
    let g := s.granary
    if i < g.logFirst || g.logFirst + g.log.length < i + n || g.memb < a + 32 * n || s.inLattice a (32 * n) then (s, 2)
    else (s.store a ((g.log.drop (i - g.logFirst)).take n).flatten, 0)

/-! Firmware update (R387) -/

/-- The flash's size (R386). -/
def flashSize : Nat := 2 ^ 22

/-- Log 73: DESIGN CHOICE, unsafe. -/
def execUpdateBegin (s : State) : Host.Outcome State Fault Refusal :=
  s.mailbox 0x10 fun s =>
    let n := (s.mailArg 0).toNat
    if n = 0 || flashSize < n then (s, 2) else (s.putGranary { s.granary with staged := some ([], n) }, 0)

/-- Bytes staged at an offset. -/
def stage (l : List Byte) (off : Nat) (bs : List Byte) : List Byte :=
  l.take off ++ List.replicate (off - l.length) 0 ++ bs ++ l.drop (off + bs.length)

def execUpdateData (s : State) : Host.Outcome State Fault Refusal :=
  s.mailbox 0x11 fun s =>
    let off := (s.mailArg 0).toNat
    let a := (s.mailArg 1).toNat
    let n := (s.mailArg 2).toNat
    match s.granary.staged with
    | none => (s, 1)
    | some (l, size) =>
      if size < off + n || s.granary.memb < a + n || s.inLattice a n then (s, 2)
      else
        let s := if n = 0 then s else s.readElsewhere a n
        (s.putGranary { s.granary with staged := some (stage l off (s.bytes a n), size) }, 0)

/-- UPDATE_COMMIT: once the signature is verified the flash is erased; it holds the new image when the
command completes. -/
def execUpdateCommit (s : State) : Host.Outcome State Fault Refusal :=
  s.mailbox 0x12 fun s =>
    match s.granary.staged with
    | none => (s, 1)
    | some x => if Config.signatureOk x.1 then (s.putGranary { s.granary with imageValid := false }, 0) else (s, 1)

/-! Halts and inspection -/

/-- GRANARY_HALT: the target takes CAUSE 8; with ARG1 bit 0, the crew's other groups a crew broadcast. -/
def execGranaryHalt (s : State) : Host.Outcome State Fault Refusal :=
  s.mailbox 0x20 fun s =>
    match s.target? (s.mailArg 0) with
    | none => (s, 1)
    | some t =>
      if t.r.halt.cause != 0 then (s, 1)
      else
        let s1 := s.putTarget t (t.r.broadcast 8)
        (if bitOf (s.mailArg 1) 0 then s1.broadcast t.g.core t.r.crew (some t.g) 3 else s1, 0)

/-- A selector's word is well formed (R350). -/
def hselWordOk (w : W64) : Bool := decide (w.toNat < 2 ^ 32) && hselOk { imm := w }

def State.setResult (s : State) (x : W64) : State := s.setCtl 0x5020 x

def execGranaryHrd (s : State) : Host.Outcome State Fault Refusal :=
  if !s.mailBusy && !s.granary.recovery && hselWordOk (s.mailArg 1) &&
      (match s.hrd (s.target? (s.mailArg 0)) (hselOf (s.mailArg 1)) with | .retry => true | _ => false) then .next s
  else s.mailbox 0x21 fun s =>
    if !hselWordOk (s.mailArg 1) then (s, 2)
    else match s.hrd (s.target? (s.mailArg 0)) (hselOf (s.mailArg 1)) with
      | .ok s' x => (s'.setResult x, 0)
      | _ => (s.setResult 0, 1)

def execGranaryHwr (s : State) : Host.Outcome State Fault Refusal :=
  if !s.mailBusy && !s.granary.recovery && hselWordOk (s.mailArg 1) &&
      (match s.hwr (s.target? (s.mailArg 0)) (hselOf (s.mailArg 1)) (s.mailArg 2) with | .retry => true | _ => false) then .next s
  else s.mailbox 0x22 fun s =>
    if !hselWordOk (s.mailArg 1) then (s, 2)
    else match s.hwr (s.target? (s.mailArg 0)) (hselOf (s.mailArg 1)) (s.mailArg 2) with
      | .ok s' _ => (s'.setResult 1, 0)
      | _ => (s.setResult 0, 1)

/-- GRANARY_HSTEP: limit 0 is the plain form. -/
def execGranaryHstep (s : State) : Host.Outcome State Fault Refusal :=
  s.mailbox 0x23 fun s =>
    let w := s.mailArg 1
    let limit := bitsOf w 15 8
    let lane := if limit = 0 then 32 else bitsOf w 4 0
    match s.target? (s.mailArg 0) with
    | none => (s.setResult (hreport 0 0 (2 ^ 22)), 1)
    | some t =>
      match t.stepRefused lane with
      | some b => (s.setResult (hreport 0 0 b), if b = 2 ^ 22 then 1 else 0)
      | none =>
        let s1 := s.putGroup t.g { t.r with stepper := some 0 }
        (s1.putGranary { s1.granary with hstep := some (gidKey t.g, lane, max limit 1, 0, 0) }, 0)

def execGranaryHres (s : State) : Host.Outcome State Fault Refusal :=
  s.mailbox 0x24 fun s =>
    let scope := bitsOf (s.mailArg 1) 1 0
    if scope = 3 then (s, 2)
    else
      let x := s.hres (s.target? (s.mailArg 0)) scope
      (x.1.setResult (if x.2 then 1 else 0), if x.2 then 0 else 1)

/-! Address spaces -/

/-- The resident crews of an ASID. -/
def State.crewsOf (s : State) (asid : Nat) : List (Nat × Nat) :=
  s.crews.filterMap fun e => if e.2.asid = asid && !e.2.tentative then some (e.1 / 16, e.1 % 16) else none

/-- Saved crews end where they lie, their grids' further crews with them (log 26: DESIGN CHOICE, unsafe). -/
def State.killSavedOf (s : State) (which : Saved → Bool) : State :=
  (s.saved.filter fun e => which e.2).foldl (fun (s : State) e =>
    let l := tmod s.launches e.2.crew.launch fun x => { x with code := some (x.code.getD Code.killed) }
    ((({ s with saved := tdel s.saved e.1, launches := l } : State).endReservation e.1).giveFrames
      (s.partOf e.2.crew.asid) e.2.frames).crewGone e.2.crew.launch) s

def execKillAsid (s : State) : Host.Outcome State Fault Refusal :=
  s.mailbox 0x30 fun s =>
    let asid := bitsOf (s.mailArg 0) 11 0
    if 4096 ≤ (s.mailArg 0).toNat then (s, 2)
    else (((s.crewsOf asid).foldl (fun (s : State) k => s.stopCrew k.1 k.2 none { code := Code.killed }) s).killSavedOf fun v => v.crew.asid = asid, 0)

def execPreemptAsid (s : State) : Host.Outcome State Fault Refusal :=
  s.mailbox 0x31 fun s =>
    let asid := bitsOf (s.mailArg 0) 11 0
    if 4096 ≤ (s.mailArg 0).toNat then (s, 2)
    else
      let name := fun (s : State) (k : Nat × Nat) =>
        match s.crew? k.1 k.2 with
        | none => s
        | some c =>
          let d := s.die (dieOf k.1)
          s.putDie (dieOf k.1) { d with preReqs := d.preReqs ++ [(k.1, c.uid)] }
      ((s.crewsOf asid).foldl name s, 0)

def execSnapshotCommand (s : State) : Host.Outcome State Fault Refusal :=
  s.mailbox 0x40 fun s => (s.trigger 2 [], 0)

/-! ### Bring-up, power, links (R372, R387, R388) -/

/-- The bytes that outlive a reset of this device: those of its peers, and of pool memory. (Log 31: DESIGN
CHOICE, unsafe.) -/
def State.outside (s : State) : Tab Byte := s.mem.filter fun e => isPeer e.1 || isPoolKey e.1

/-- The state a reset leaves before bring-up: what outlives it is the flash, the memories outside, and the
model's own counters. -/
def State.cold (s : State) : State :=
  let g := s.granary
  { State.reset with
    agenda := s.agenda, freeCtr := s.freeCtr, nextId := s.nextId, mem := s.outside, hostMem := s.hostMem,
    dev := { granary := { log := g.log, logFirst := g.logFirst, imageValid := g.imageValid, flashVer := g.flashVer,
                          memb := g.memb, blockAt := g.blockAt, step := g.step } } }

/-- POWER_ON_RESET (R388). `imageOk`: the image in flash passes its check; `failed`: the planes that the
self-tests find failed, by engine; `domId`: the identifier the image's settings hold. -/
def execPowerOnReset (imageOk : Bool) (failed : List (Nat × Nat)) (domId : Nat) (s : State) : Host.Outcome State Fault Refusal :=
  let boots := s.granary.imageValid && imageOk
  let s1 := s.cold
  let s2 := s1.putGranary { s1.granary with recovery := !boots, fwver := if boots then s1.granary.flashVer else 0 }
  let test := fun (s : State) (n : Nat) =>
    let ps := failed.filterMap fun x => if x.1 = n then some x.2 else none
    if ps.isEmpty then s
    else
      let e := ({} : Engine).selfTest ps
      let s := s.putEngine n e
      if e.failed.isEmpty then s else s.logEvent LogCode.planeFailed (some n) none
  let s3 := (List.range 64).foldl test s2
  -- without an image its settings hold none (R372)
  let s4 := s3.setCtl 0x4818 (BitVec.ofNat 64 (2 ^ 63 + if boots then domId % 64 else 0))
  let s5 := { s4 with dev := { s4.dev with up := true } }
  .next (if boots then s5 else s5.vector 3)

/-- POWER_LOSS: a commit that has erased the flash leaves no image (R387). -/
def execPowerLoss (s : State) : Host.Outcome State Fault Refusal :=
  let s1 := s.cold
  .next { s1 with dev := { s1.dev with power := false } }

/-- PEER_LINK_CHANGE: the device's bit in DOMMAP; the change is logged. Which device it is, and whether it is
now reachable, is a free value (log 4: DESIGN CHOICE, safe). -/
def execPeerLinkChange (s : State) : Host.Outcome State Fault Refusal :=
  let x := s.free
  let dev := bitsOf x.1 5 0
  if bitsOf (s.ctlw 0x4818) 5 0 = dev then .next x.2
  else .next ((x.2.setCtl 0x4828 (setBit (s.ctlw 0x4828) dev (bitOf x.1 6))).logFree (some dev))

/-! ### The clock step (R384) -/

/-- The clock moves to a step: CSTEP, the log, vector 0. -/
def State.clockStep (s : State) (n : Nat) : State :=
  ((s.putGranary { s.granary with cstep := n }).logEvent LogCode.clockStep none none).vector 0

/-- The thermal stop: the device holds, every group stops at once, and every crew stops with KILLED; each is killed
once its record is written and its work has settled (R305, R325). Saved crews end where they lie. (Log 74: DEDUCED,
unsafe.) -/
def State.thermalStop (s : State) : State :=
  let s := s.logEvent LogCode.thermal none none
  let s := { s with dev := { s.dev with hold := true } }
  let ks := s.crews.filterMap fun e => if e.2.tentative || e.2.stop.isSome then none else some (e.1 / 16, e.1 % 16)
  let s := ks.foldl (fun (s : State) k => s.stopCrew k.1 k.2 none { code := Code.killed }) s
  let s := { s with
    groups := s.groups.map fun (e : Nat × Group) => (e.1, e.2.joinHalt)
    crews := s.crews.map fun (e : Nat × Crew) =>
      (e.1, { e.2 with parts := e.2.parts.map fun (p : Nat × Group) => (p.1, p.2.joinHalt) }) }
  s.killSavedOf fun _ => true

/-- What a sample of the sensors leads to: the dies' temperatures in °C, and whether a rail exceeds its
limit. -/
def State.sample (s : State) (dieTemp : List Nat) (overLimit : Bool) : State :=
  let cool := dieTemp.all (· < 90) && !overLimit
  let s := s.putGranary { s.granary with coolPeriod := cool }
  let s := if (dieTemp.any (95 ≤ ·) || overLimit) && s.granary.cstep < 7 then s.clockStep (s.granary.cstep + 1) else s
  if dieTemp.any (110 ≤ ·) && !s.dev.hold then s.thermalStop else s

/-- SENSOR_SAMPLE: each cluster's reading, and whether a rail exceeds its limit, are free values (log 4: DESIGN
CHOICE, safe). A die reads what its hottest cluster does (log 99: DEDUCED, safe). -/
def execSensorSample (s : State) : Host.Outcome State Fault Refusal :=
  let temp := fun c => (Config.freeValue (s.freeCtr + c)).toNat % 2 ^ 16
  let die := fun d => ((List.range 16).map fun c => temp (16 * d + c)).foldl max 0
  .next (({ s with freeCtr := s.freeCtr + 65 } : State).sample ((List.range 4).map die)
    (bitOf (Config.freeValue (s.freeCtr + 64)) 0))

/-! ### LINK_RETRY_FAILURE (R302, R370) -/

/-- LINK_RETRY_FAILURE: the link's error counter rises, the failure is logged with the link as its source, and the
access that met it is ADDRV for whoever made it (R30: 32 memory links, 4 CXL ports, 12 peer lanes). -/
def execLinkRetryFailure (link : Nat) (who : LinkUser) (s : State) : Host.Outcome State Fault Refusal :=
  let n := s.granary.linkErrs.getD link 0 + 1
  let s := (s.putGranary { s.granary with linkErrs := s.granary.linkErrs.set link n }).logEvent LogCode.linkRetry
    (some link) (some n)
  .next (match who with
    | .group g => match s.group? g with
      | some r => s.groupLink g r
      | none => s
    | .copy id => s.copyLink id
    | .op id => s.opLink id
    | .lane k => s.laneLink k
    | .push k => s.pushLink k
    | .launch id => match tfind s.launches id with
      | some x => { s with launches := tput s.launches id { x with linkBad := true } }
      | none => s
    | .seq core slot => s.seqLink core slot
    | .other => s)

/-- COOL_PERIOD_EXPIRY: 10 ms of cool readings have passed. -/
def execCoolPeriodExpiry (s : State) : Host.Outcome State Fault Refusal :=
  if !s.granary.coolPeriod then .next s
  else
    let s := s.putGranary { s.granary with coolPeriod := false }
    .next (if s.granary.cstep = 0 then s else s.clockStep (s.granary.cstep - 1))

/-! ### The control block as level-2 crews see it (R292, R371) -/

/-- A mailbox command that has an event of its own (R385). -/
def State.command (s : State) (code : Nat) : Host.Outcome State Fault Refusal :=
  match code with
  | 0x01 => execReadEventLog s
  | 0x10 => execUpdateBegin s
  | 0x11 => execUpdateData s
  | 0x12 => execUpdateCommit s
  | 0x20 => execGranaryHalt s
  | 0x21 => execGranaryHrd s
  | 0x22 => execGranaryHwr s
  | 0x23 => execGranaryHstep s
  | 0x24 => execGranaryHres s
  | 0x30 => execKillAsid s
  | 0x31 => execPreemptAsid s
  | _ => execSnapshotCommand s

/-- A write of a register, by whichever row gives it its meaning. Whether a pool window's link has trained is a free
value (log 4: DESIGN CHOICE, safe). -/
def State.blockWord (s : State) (off : Nat) (w : W64) : Host.Outcome State Fault Refusal :=
  if off = 0x4800 then
    let s := if bitOf w 62 then execSnapshotRelease s else .next s
    match s with
    | .next s => if bitOf w 61 then execHostTrigger s else .next s
    | o => o
  else if !s.ownEvent off w then execRegisterWrite .device off w s
  else if off < 0x2800 then execPartitionEnable ((off - 0x2000) / 32) w s
  else if off < 0x3800 then execFreplay ((off - 0x2800) / 64) w s
  else if off < 0x3C00 then
    if bitOf w 63 then execRegionRegistration ((off - 0x3800) / 16) w s else execRegionDeregistration ((off - 0x3800) / 16) w s
  else if off < 0x4500 then
    if w.toNat = 1 then execPteUpdate ((off - 0x4400) / 64) s
    else if w.toNat = 2 then execPteInvalidate ((off - 0x4400) / 64) s else .next s
  else if off < 0x5000 then
    let x := s.free
    if bitOf w 63 then execPoolWindowEnable ((off - 0x4E00) / 128) ((off - 0x4E00) / 32 % 4) w (bitOf x.1 0) x.2
    else execPoolWindowDisable ((off - 0x4E00) / 128) ((off - 0x4E00) / 32 % 4) w s
  else if off = 0x5000 then s.command w.toNat
  else execAsidDisable ((off - 0x10000) / 8) w s

/-- Bytes of the control block. -/
def State.regBytes (s : State) (off n : Nat) : List Byte :=
  (List.range n).map fun i => (leBytes 8 (s.regRead ((off + i) / 8 * 8)).toNat).getD ((off + i) % 8) 0

/-- The word of 8 bytes at `off` with the bytes stored into it; a store of part of a word leaves the rest as it reads
(log 16: DESIGN CHOICE, unsafe). -/
def State.mergedReg (s : State) (off : Nat) (cs : List (Nat × Byte)) : W64 :=
  BitVec.ofNat 64 (leNat ((List.range 8).map fun i =>
    ((cs.find? fun c => c.1 = off + i).map (·.2)).getD ((s.regBytes (off + i) 1).headD 0)))

/-- A store to the control block: its words in rising order; the two halves of a back-off word are registers of their
own (R91). -/
def State.blockStore (s : State) (cs : List (Nat × Byte)) : Host.Outcome State Fault Refusal :=
  (sortNat (cs.map fun c => if isBackoff (c.1 / 4 * 4) then c.1 / 4 * 4 else c.1 / 8 * 8)).foldl (fun o off =>
    match o with
    | .next s =>
      let w := s.mergedReg (off / 8 * 8) cs
      s.blockWord off (if off % 8 = 4 then w >>> 32 else w)
    | z => z) (.next s)

/-- DRAIN (R213): an entry of the outbox leaves for its home; one for the control block writes its registers. -/
def execDrain (g : Gid) (k : Nat) (s : State) : Host.Outcome State Fault Refusal :=
  let cs := s.blockCells g k
  if cs.isEmpty then .next (s.drain g k) else (s.drain g k).blockStore cs

/-- A load of a register as its reply comes: what it reads now. -/
def State.regPending (s : State) (f : Fields) (p : Pending) : Pending :=
  match p.reg with
  | none => p
  | some off =>
    let bs := s.regBytes off (tyBytes f.ty)
    { p with dst := if p.lane = 32 then (halves (widenG f.ty bs)).map (f.d.toNat, ·) else loadWrites f bs }

/-- A wait whose registers have been read. -/
def State.regWait (s : State) (f : Fields) (w : Wait) : Wait :=
  match w with
  | .remote pend kind acq width offers =>
    .remote (pend.map (s.regPending f)) kind acq width (offers.map fun x =>
      match (pend.find? fun p => p.lane % 32 = x.1).bind (·.reg) with
      | some off => (x.1, BitVec.ofNat 64 (leNat (s.regBytes off (min (tyBytes f.ty) 8))), x.2.2)
      | none => x)
  | _ => w

/-- REMOTE_REPLY (R83, R234): the destinations are written. -/
def execRemoteReply (g : Gid) (s : State) : Host.Outcome State Fault Refusal :=
  s.onWait g fun r => s.remoteReply g r (s.regWait r.ins r.wait)

end Sys2Proof.Machine
end

