-- ==== Sys2Proof/Machine/Fetch.lean ====
section
/-! DEFINITION. Fetching an instruction and the checks of R49 before its privilege and its registers; who may
take a turn, and what surrounds the instruction of a group: a halt broadcast's skid, a step by a debugger. -/

namespace Sys2Proof.Machine

/-! ### Fetch (R36, R37, R49) -/

/-- The 32-byte block at an address, from the instruction cache (R15: 64 KiB) or from memory; either way the address
must be mapped as pinned, executable code (R37). -/
def State.fetchBlock (s : State) (core asid b : Nat) : Except FRec (State × List Byte) :=
  match s.translate core asid b Acc.fetch false true with
  | .ok pa _ =>
    match (if s.refetch then none else tfind (s.core core).icache (asid * 2 ^ 48 + b)) with
    | some bs => .ok (s, bs)
    | none =>
      if s.uncorrectable pa 32 then .error { code := Code.memerr, acc := Acc.fetch, asid := asid }
      else
        let bs := s.bytes pa 32
        let s1 := (s.correct pa 32).lookedUp false core asid b
        .ok (s1.modCore core fun c => { c with icache := tabFill 2048 c.icache (asid * 2 ^ 48 + b) bs }, bs)
  | .lattice _ _ => .error { code := Code.addrv, acc := Acc.fetch, asid := asid }
  -- code pages take no page fault (R37)
  | .fault fr => .error { fr with code := Code.addrv }

/-- What a fetch comes to. -/
inductive Fetched where
  | ok (s : State) (i : Instr)
  | fault (s : State) (fr : FRec)

/-- Decodes what stands at an offset of a block. -/
def decodeAt (matrix : Bool) (bs : List Byte) (off : Nat) : Except FRec Instr :=
  let rest := bs.drop off
  match lenOf ((rest.headD 0).toNat) with
  | none => .error { code := Code.illop }
  | some len =>
    if 32 < off + len.bytes then .error { code := Code.misplace }
    else match decode matrix rest with
      | .ok (i, _) => .ok i
      | .error _ => .error { code := Code.illop }

/-- Steps 1 to 6 of R49. `bad`: the address had a bit above 47 (R96). -/
def State.fetch (s : State) (core asid : Nat) (matrix : Bool) (pc : BitVec 48) (bad : Bool) : Fetched :=
  let va : W64 := pc.setWidth 64
  let off := pc.toNat % 32
  if pc.toNat % 4 != 0 || off = 28 then .fault s { code := Code.misplace }
  else if bad then .fault s { code := Code.addrv, acc := Acc.fetch, va := va }
  else match s.fetchBlock core asid (pc.toNat - off) with
    | .error fr => .fault s { fr with va := va }
    | .ok (s1, bs) =>
      match decodeAt matrix bs off with
      | .error fr => .fault s1 fr
      | .ok i => .ok s1 i

/-! ### Turns -/

/-- What a turn comes to: it is over, or the instruction is to run. -/
inductive Turn where
  | done (s : State)
  | run (s : State) (i : Instr)

/-- Waits in which the group itself asks again, in its own steps; another event ends the others. -/
def Wait.polled : Wait → Bool
  | .qpop _ _ => true
  | .qpush _ _ _ => true
  | .units _ => true
  | .atom _ _ => true
  | .futs _ _ => true
  | .join _ _ => true
  | .dump _ => true
  | .release => true
  | .rgclm _ => true
  | .spawn => true
  | .hstep _ _ _ _ _ => true
  | _ => false

/-- Whether a group may take a step of its own: it is running, or it is stepped by a debugger, or halted in a
wait that it goes on with (R347); it is not parked (R317); its crew is not being saved (R299). -/
def State.mayIssue (s : State) (g : Gid) (r : Group) : Bool :=
  let c := s.crewOf g r
  r.live != 0 &&
    (r.wait.polled || (r.wait == .none && r.traps.isEmpty && !c.saving)) &&
    (r.halt.cause = 0 || (r.stepper.isSome && r.halt.cause != 7) || (r.wait.polled && r.halt.cause != 7)) &&
    (match r.bcast with | some (n, _) => decide (n < 4) || r.wait.polled | none => true)

/-- The group as its instruction begins: a stepped group is not halted meanwhile; a write that met CAPF
is made now or meets it anew. -/
def Group.begin_ (r : Group) (i : Instr) : Group :=
  { r with cur := i, capf := none, halt := if r.stepper.isSome then {} else r.halt }

/-- Whether the group is run by the firmware (R319). -/
def Group.firmware (r : Group) : Bool :=
  match r.kind with
  | .handler d => d
  | .fatal d => d
  | _ => false

/-- The instruction of a group that may issue. -/
def State.groupRun (s : State) (g : Gid) (r : Group) (i : Instr) : State :=
  ({ s with actor := .grp g } : State).putGroup g (r.begin_ i)

/-- The lanes active in an instruction (R351). -/
def State.stepLanes (s : State) (r : Group) (i : Instr) : W32 :=
  match i.form with
  | none => 0
  | some x => (laneMask (s.activeLanes r x.f)) &&& ~~~ r.hlp

/-- After a group's instruction: `s` before it, `s1` as it began, `s2` after. A stepped group reports (R351), or waits
on where nothing was done; a group under a halt broadcast has issued one more (R347). (Log 37: DEDUCED, unsafe.) -/
def State.finish (s s1 s2 : State) (g : Gid) (r : Group) (act : W32) : State :=
  if r.stepper.isSome then (if s2 = s1 then s1.putGroup g r else s.stepped s2 g r act)
  else match r.bcast, s2.group? g with
    | some (n, c), some x =>
      if x.bcast = r.bcast && (s2.core g.core).leaf != (s1.core g.core).leaf
      then s2.putGroup g { x with bcast := some (n + 1, c) } else s2
    | _, _ => s2

/-- A group's turn. -/
def State.groupTurn (s : State) (g : Gid) : Turn :=
  match s.group? g with
  | none => .done s
  | some r =>
    if !s.mayIssue g r then .done s
    else if r.firmware then .done (s.firmware g r)
    else if r.wait != .none then
      -- a wait is one of a group instruction
      if r.cur.form.any fun x => !x.matrix then .run (s.groupRun g r r.cur) r.cur else .done s
    else match s.fetch g.core (s.crewOf g r).asid false r.pc r.pcBad with
      | .fault s1 fr => .done (s.finish s1 (s1.crewFatal g r fr) g r 0)
      | .ok s1 i =>
        if r.linkBad && s.fetchLinked g.core (s.crewOf g r).asid r.pc then
          .done (s.finish s (s.crewFatal g r { code := Code.addrv, acc := Acc.fetch, va := r.pc.setWidth 64 }) g r 0)
        else .run (s1.groupRun g r i) i

/-- A sequencer's turn (R174). -/
def State.seqTurn (s : State) (core slot : Nat) : Turn :=
  match s.crew? core slot with
  | none => .done s
  | some c =>
    if !c.seqr.exists_ || !c.seqr.running || c.seqr.halted || c.tentative || c.saving then .done s
    else match s.fetch core c.asid true c.seqr.mpc false with
      | .ok s1 i => .run { s1 with actor := .seq core slot } i
      | .fault s1 fr => .done (s1.seqFault core slot c fr)

/-! ### Moves -/

/-- Whether a device event is power-on reset. -/
def isReset : Instr → Bool
  | .powerOnReset _ _ _ => true
  | _ => false

/-- The events by which the host reaches the device through port 0. -/
def isHostAccess : Instr → Bool
  | .registerWrite who _ _ => who == .host
  | .bar2Read _ _ | .bar2Write _ _ _ | .msixUnmask _ | .hostTrigger | .snapshotRelease => true
  | .partitionEnable _ _ | .asidDisable _ _ | .regionRegistration _ _ | .regionDeregistration _ _ => true
  | .poolWindowEnable _ _ _ _ | .poolWindowDisable _ _ _ | .freplay _ _ | .pteUpdate _ | .pteInvalidate _ => true
  | .queueRestart _ | .readEventLog | .updateBegin | .updateData | .updateCommit => true
  | .granaryHalt | .granaryHrd | .granaryHwr | .granaryHstep | .granaryHres => true
  | .killAsid | .preemptAsid | .snapshotCommand => true
  | _ => false

/-- The events with which a crew or a group begins to run. -/
def isStart : Instr → Bool
  | .dispatchDecision _ | .admissionCommit _ | .crewRestore _ _ | .spawnRecordStart _ _ => true
  | _ => false

/-- Whether a move may be made at all: without power only a reset comes; before bring-up port 0 does not
answer (R388); a device that holds issues nothing, and nothing starts on it (R384). -/
def State.allows (s : State) : Move → Bool
  | .event i _ => isReset i || (s.dev.power && (s.dev.up || !isHostAccess i) && !(s.dev.hold && isStart i))
  | _ => s.dev.power && !s.dev.hold

/-- The next move, taken from the agenda or else from the schedule (log 1: DESIGN CHOICE, safe). -/
def State.nextMove (s : State) : Option Move × State :=
  match s.agenda with
  | m :: t => (some m, { s with agenda := t })
  | [] => (Config.schedule s.freeCtr, { s with freeCtr := s.freeCtr + 1 })

/-- The state after an instruction, seen through what surrounds it. -/
def afterwards (x : Host.Outcome State Fault Refusal) (k : State → State) : Host.Outcome State Fault Refusal :=
  match x with
  | .next s => .next (k s)
  | .fault e => .fault e
  | .refused e => .refused e

/-! ### Placing an instruction -/

/-- Bytes of an entry of a page table. -/
def placeEntry (s : State) (a e : Nat) : State := s.storeWord a 8 e

/-- The address space in which a placed instruction stands. -/
def placedAsid : Nat := 1

/-- An address space of four tables and one pinned code page at virtual address 0, which holds the bytes. -/
def State.placeCode (s : State) (bs : List Byte) : State :=
  let s := s.setCtl (0x10000 + 8 * placedAsid) 0x8000000000001000
  let s := { s with regions := s.regions.filter fun e => e.2.asid != placedAsid }
  let s := placeEntry s 0x1000 0x2001
  let s := placeEntry s 0x2000 0x3001
  let s := placeEntry s 0x3000 0x4001
  let s := placeEntry s 0x4000 0x501B
  s.store 0x5000 bs

/-- A crew on core 0 in slot 0 with one group at the placed instruction; with `matrix`, its sequencer stands
there. -/
def State.placeCrew (s : State) (matrix : Bool) : State :=
  let (cu, s) := s.fresh
  let (gu, s) := s.fresh
  let c : Crew := { uid := cu, asid := placedAsid, seqr := { exists_ := matrix, running := matrix } }
  (s.putCrew 0 0 c).putGroup { core := 0, slot := 0 } { crew := 0, uid := gu }

end Sys2Proof.Machine
end

