-- ==== Sys2Proof/Machine/Dispatch.lean ====
section
/-! DEFINITION. What each instruction and device event does: one meaning each. -/

namespace Sys2Proof.Machine

def exec (i : Instr) (s : State) : Host.Outcome State Fault Refusal :=
  match i with
  | .powerOnReset imageOk failed domId => Sys2Proof.Machine.execPowerOnReset imageOk failed domId s
  | .linkRetryFailure link who => Sys2Proof.Machine.execLinkRetryFailure link who s
  | .drain g k => Sys2Proof.Machine.execDrain g k s
  | .evict core line => Sys2Proof.Machine.execEvict core line s
  | .remoteReply g => Sys2Proof.Machine.execRemoteReply g s
  | .taskRecordValidation die => Sys2Proof.Machine.execTaskRecordValidation die s
  | .dispatchDecision die => Sys2Proof.Machine.execDispatchDecision die s
  | .admissionCommit die => Sys2Proof.Machine.execAdmissionCommit die s
  | .admissionRelease die => Sys2Proof.Machine.execAdmissionRelease die s
  | .coreReservation die => Sys2Proof.Machine.execCoreReservation die s
  | .preemptionRequest core slot => Sys2Proof.Machine.execPreemptionRequest core slot s
  | .crewEviction core slot => Sys2Proof.Machine.execCrewEviction core slot s
  | .crewRestore id core => Sys2Proof.Machine.execCrewRestore id core s
  | .fullTestEnd core => Sys2Proof.Machine.execFullTestEnd core s
  | .spawnRecordStart core k => Sys2Proof.Machine.execSpawnRecordStart core k s
  | .overflowRingMove core => Sys2Proof.Machine.execOverflowRingMove core s
  | .crewRetire core slot => Sys2Proof.Machine.execCrewRetire core slot s
  | .queueEntryReceipt link full => Sys2Proof.Machine.execQueueEntryReceipt link full s
  | .acknowledgement link => Sys2Proof.Machine.execAcknowledgement link s
  | .negativeAcknowledgement link => Sys2Proof.Machine.execNegativeAcknowledgement link s
  | .backoffExpiry link => Sys2Proof.Machine.execBackoffExpiry link s
  | .sleepExpiry g => Sys2Proof.Machine.execSleepExpiry g s
  | .yieldEnd g => Sys2Proof.Machine.execYieldEnd g s
  | .copyIssue g => Sys2Proof.Machine.execCopyIssue g s
  | .beat id k => Sys2Proof.Machine.execBeat id k s
  | .copyCompletion id => Sys2Proof.Machine.execCopyCompletion id s
  | .arbiterGrant engine => Sys2Proof.Machine.execArbiterGrant engine s
  | .passSegment id => Sys2Proof.Machine.execPassSegment id s
  | .passCompletion id => Sys2Proof.Machine.execPassCompletion id s
  | .siloOperationCompletion id => Sys2Proof.Machine.execSiloOperationCompletion id s
  | .engineResume engine failed => Sys2Proof.Machine.execEngineResume engine failed s
  | .push k => Sys2Proof.Machine.execPush k s
  | .exchange desc src line => Sys2Proof.Machine.execExchange desc src line s
  | .phaseEnd desc stretched => Sys2Proof.Machine.execPhaseEnd desc stretched s
  | .thresholdLoad g => Sys2Proof.Machine.execThresholdLoad g s
  | .tldtTimeout g => Sys2Proof.Machine.execTldtTimeout g s
  | .lsyncDone g => Sys2Proof.Machine.execLsyncDone g s
  | .futureWaitReturn g => Sys2Proof.Machine.execFutureWaitReturn g s
  | .fwaitExpiry g => Sys2Proof.Machine.execFwaitExpiry g s
  | .faultRecordWrite part => Sys2Proof.Machine.execFaultRecordWrite part s
  | .heatSample core frame => Sys2Proof.Machine.execHeatSample core frame s
  | .trapCompaction core slot => Sys2Proof.Machine.execTrapCompaction core slot s
  | .sheafHaltArrival core slot => Sys2Proof.Machine.execSheafHaltArrival core slot s
  | .fatalHandlerStart core slot => Sys2Proof.Machine.execFatalHandlerStart core slot s
  | .queuePoll lane => Sys2Proof.Machine.execQueuePoll lane s
  | .deviceLaunchQueueTake lane => Sys2Proof.Machine.execDeviceLaunchQueueTake lane s
  | .queueRestart lane => Sys2Proof.Machine.execQueueRestart lane s
  | .regionRegistration desc w => Sys2Proof.Machine.execRegionRegistration desc w s
  | .regionDeregistration desc w => Sys2Proof.Machine.execRegionDeregistration desc w s
  | .partitionEnable part w => Sys2Proof.Machine.execPartitionEnable part w s
  | .asidDisable asid w => Sys2Proof.Machine.execAsidDisable asid w s
  | .poolWindowEnable port win w trained => Sys2Proof.Machine.execPoolWindowEnable port win w trained s
  | .poolWindowDisable port win w => Sys2Proof.Machine.execPoolWindowDisable port win w s
  | .freplay part w => Sys2Proof.Machine.execFreplay part w s
  | .pteUpdate die => Sys2Proof.Machine.execPteUpdate die s
  | .pteInvalidate die => Sys2Proof.Machine.execPteInvalidate die s
  | .shootdownComplete die => Sys2Proof.Machine.execShootdownComplete die s
  | .bar2Read off size => Sys2Proof.Machine.execBar2Read off size s
  | .bar2Write off size val => Sys2Proof.Machine.execBar2Write off size val s
  | .registerWrite who off w => Sys2Proof.Machine.execRegisterWrite who off w s
  | .nop f => Sys2Proof.Machine.execNop f s
  | .exit f => Sys2Proof.Machine.execExit f s
  | .bra f => Sys2Proof.Machine.execBra f s
  | .brx f => Sys2Proof.Machine.execBrx f s
  | .call f => Sys2Proof.Machine.execCall f s
  | .callI f => Sys2Proof.Machine.execCallI f s
  | .ret f => Sys2Proof.Machine.execRet f s
  | .loop f => Sys2Proof.Machine.execLoop f s
  | .dpush f => Sys2Proof.Machine.execDpush f s
  | .delse f => Sys2Proof.Machine.execDelse f s
  | .dpop f => Sys2Proof.Machine.execDpop f s
  | .repack f => Sys2Proof.Machine.execRepack f s
  | .unpack f => Sys2Proof.Machine.execUnpack f s
  | .setfmt f => Sys2Proof.Machine.execSetfmt f s
  | .yield f => Sys2Proof.Machine.execYield f s
  | .sleep f => Sys2Proof.Machine.execSleep f s
  | .movs f => Sys2Proof.Machine.execMovs f s
  | .movsw f => Sys2Proof.Machine.execMovsw f s
  | .leader f => Sys2Proof.Machine.execLeader f s
  | .mov f => Sys2Proof.Machine.execMov f s
  | .movi f => Sys2Proof.Machine.execMovi f s
  | .sel f => Sys2Proof.Machine.execSel f s
  | .iadd f => Sys2Proof.Machine.execIadd f s
  | .iaddc f => Sys2Proof.Machine.execIaddc f s
  | .isub f => Sys2Proof.Machine.execIsub f s
  | .isubb f => Sys2Proof.Machine.execIsubb f s
  | .imul f => Sys2Proof.Machine.execImul f s
  | .imulh f => Sys2Proof.Machine.execImulh f s
  | .imad f => Sys2Proof.Machine.execImad f s
  | .imadw f => Sys2Proof.Machine.execImadw f s
  | .iabs f => Sys2Proof.Machine.execIabs f s
  | .ineg f => Sys2Proof.Machine.execIneg f s
  | .imin f => Sys2Proof.Machine.execImin f s
  | .imax f => Sys2Proof.Machine.execImax f s
  | .icmp f => Sys2Proof.Machine.execIcmp f s
  | .lea f => Sys2Proof.Machine.execLea f s
  | .and f => Sys2Proof.Machine.execAnd f s
  | .or f => Sys2Proof.Machine.execOr f s
  | .xor f => Sys2Proof.Machine.execXor f s
  | .not f => Sys2Proof.Machine.execNot f s
  | .btab f => Sys2Proof.Machine.execBtab f s
  | .shl f => Sys2Proof.Machine.execShl f s
  | .shr f => Sys2Proof.Machine.execShr f s
  | .sha f => Sys2Proof.Machine.execSha f s
  | .rot f => Sys2Proof.Machine.execRot f s
  | .bfx f => Sys2Proof.Machine.execBfx f s
  | .bfi f => Sys2Proof.Machine.execBfi f s
  | .popc f => Sys2Proof.Machine.execPopc f s
  | .clz f => Sys2Proof.Machine.execClz f s
  | .brev f => Sys2Proof.Machine.execBrev f s
  | .bysel f => Sys2Proof.Machine.execBysel f s
  | .dot4 f => Sys2Proof.Machine.execDot4 f s
  | .fadd f => Sys2Proof.Machine.execFadd f s
  | .fsub f => Sys2Proof.Machine.execFsub f s
  | .fmul f => Sys2Proof.Machine.execFmul f s
  | .ffma f => Sys2Proof.Machine.execFfma f s
  | .fmin f => Sys2Proof.Machine.execFmin f s
  | .fmax f => Sys2Proof.Machine.execFmax f s
  | .fcmp f => Sys2Proof.Machine.execFcmp f s
  | .fdiv f => Sys2Proof.Machine.execFdiv f s
  | .fsqrt f => Sys2Proof.Machine.execFsqrt f s
  | .frcp f => Sys2Proof.Machine.execFrcp f s
  | .frsq f => Sys2Proof.Machine.execFrsq f s
  | .fexp2 f => Sys2Proof.Machine.execFexp2 f s
  | .flog2 f => Sys2Proof.Machine.execFlog2 f s
  | .frnd f => Sys2Proof.Machine.execFrnd f s
  | .fclass f => Sys2Proof.Machine.execFclass f s
  | .pfma f => Sys2Proof.Machine.execPfma f s
  | .f2f f => Sys2Proof.Machine.execF2f f s
  | .f2i f => Sys2Proof.Machine.execF2i f s
  | .i2f f => Sys2Proof.Machine.execI2f f s
  | .qblk f => Sys2Proof.Machine.execQblk f s
  | .dqblk f => Sys2Proof.Machine.execDqblk f s
  | .lxch f => Sys2Proof.Machine.execLxch f s
  | .qswz f => Sys2Proof.Machine.execQswz f s
  | .qbcast f => Sys2Proof.Machine.execQbcast f s
  | .qdiff f => Sys2Proof.Machine.execQdiff f s
  | .pcoll f => Sys2Proof.Machine.execPcoll f s
  | .redg f => Sys2Proof.Machine.execRedg f s
  | .scang f => Sys2Proof.Machine.execScang f s
  | .bcastg f => Sys2Proof.Machine.execBcastg f s
  | .matchg f => Sys2Proof.Machine.execMatchg f s
  | .plop f => Sys2Proof.Machine.execPlop f s
  | .pmov f => Sys2Proof.Machine.execPmov f s
  | .qlop f => Sys2Proof.Machine.execQlop f s
  | .ld f => Sys2Proof.Machine.execLd f s
  | .st f => Sys2Proof.Machine.execSt f s
  | .lds f => Sys2Proof.Machine.execLds f s
  | .sts f => Sys2Proof.Machine.execSts f s
  | .ldc f => Sys2Proof.Machine.execLdc f s
  | .ldb f => Sys2Proof.Machine.execLdb f s
  | .stb f => Sys2Proof.Machine.execStb f s
  | .spill f => Sys2Proof.Machine.execSpill f s
  | .fill f => Sys2Proof.Machine.execFill f s
  | .pref f => Sys2Proof.Machine.execPref f s
  | .cctlIc f => Sys2Proof.Machine.execCctlIc f s
  | .cctlView f => Sys2Proof.Machine.execCctlView f s
  | .cctlWb f => Sys2Proof.Machine.execCctlWb f s
  | .atom f => Sys2Proof.Machine.execAtom f s
  | .atoms f => Sys2Proof.Machine.execAtoms f s
  | .fence f => Sys2Proof.Machine.execFence f s
  | .fsc f => Sys2Proof.Machine.execFsc f s
  | .cpyt f => Sys2Proof.Machine.execCpyt f s
  | .cpyo f => Sys2Proof.Machine.execCpyo f s
  | .cpyb f => Sys2Proof.Machine.execCpyb f s
  | .binit f => Sys2Proof.Machine.execBinit f s
  | .barv f => Sys2Proof.Machine.execBarv f s
  | .bwait f => Sys2Proof.Machine.execBwait f s
  | .barw f => Sys2Proof.Machine.execBarw f s
  | .bexp f => Sys2Proof.Machine.execBexp f s
  | .btest f => Sys2Proof.Machine.execBtest f s
  | .sqcfg f => Sys2Proof.Machine.execSqcfg f s
  | .sqwait f => Sys2Proof.Machine.execSqwait f s
  | .sqrel f => Sys2Proof.Machine.execSqrel f s
  | .jst f => Sys2Proof.Machine.execJst f s
  | .mst f => Sys2Proof.Machine.execMst f s
  | .tld f => Sys2Proof.Machine.execTld f s
  | .tldt f => Sys2Proof.Machine.execTldt f s
  | .lpeek f => Sys2Proof.Machine.execLpeek f s
  | .ljoin f => Sys2Proof.Machine.execLjoin f s
  | .lcmp f => Sys2Proof.Machine.execLcmp f s
  | .lsync f => Sys2Proof.Machine.execLsync f s
  | .freg f => Sys2Proof.Machine.execFreg f s
  | .fregWait f => Sys2Proof.Machine.execFregWait f s
  | .fres f => Sys2Proof.Machine.execFres f s
  | .fpois f => Sys2Proof.Machine.execFpois f s
  | .spawn f => Sys2Proof.Machine.execSpawn f s
  | .tsub f => Sys2Proof.Machine.execTsub f s
  | .qpop f => Sys2Proof.Machine.execQpop f s
  | .qpush f => Sys2Proof.Machine.execQpush f s
  | .claim f => Sys2Proof.Machine.execClaim f s
  | .release f => Sys2Proof.Machine.execRelease f s
  | .rgsur f => Sys2Proof.Machine.execRgsur f s
  | .rgclm f => Sys2Proof.Machine.execRgclm f s
  | .clqry f => Sys2Proof.Machine.execClqry f s
  | .helperOn f => Sys2Proof.Machine.execHelperOn f s
  | .helperOff f => Sys2Proof.Machine.execHelperOff f s
  | .helperRd f => Sys2Proof.Machine.execHelperRd f s
  | .mma f => Sys2Proof.Machine.execMma f s
  | .mmas f => Sys2Proof.Machine.execMmas f s
  | .mzero f => Sys2Proof.Machine.execMzero f s
  | .mfill f => Sys2Proof.Machine.execMfill f s
  | .mdrain f => Sys2Proof.Machine.execMdrain f s
  | .mcpyOut f => Sys2Proof.Machine.execMcpyOut f s
  | .mcpyIn f => Sys2Proof.Machine.execMcpyIn f s
  | .mtld f => Sys2Proof.Machine.execMtld f s
  | .mcfgFmt f => Sys2Proof.Machine.execMcfgFmt f s
  | .mcfgFmtm f => Sys2Proof.Machine.execMcfgFmtm f s
  | .mcfgGrp f => Sys2Proof.Machine.execMcfgGrp f s
  | .msync f => Sys2Proof.Machine.execMsync f s
  | .mbarArv f => Sys2Proof.Machine.execMbarArv f s
  | .mbarWait f => Sys2Proof.Machine.execMbarWait f s
  | .mstat f => Sys2Proof.Machine.execMstat f s
  | .seqMovi f => Sys2Proof.Machine.execSeqMovi f s
  | .seqIadd f => Sys2Proof.Machine.execSeqIadd f s
  | .seqIsub f => Sys2Proof.Machine.execSeqIsub f s
  | .seqIcmp f => Sys2Proof.Machine.execSeqIcmp f s
  | .seqBra f => Sys2Proof.Machine.execSeqBra f s
  | .seqLoop f => Sys2Proof.Machine.execSeqLoop f s
  | .seqExit f => Sys2Proof.Machine.execSeqExit f s
  | .trap f => Sys2Proof.Machine.execTrap f s
  | .trapHset f => Sys2Proof.Machine.execTrapHset f s
  | .trapFset f => Sys2Proof.Machine.execTrapFset f s
  | .tret f => Sys2Proof.Machine.execTret f s
  | .tretWr f => Sys2Proof.Machine.execTretWr f s
  | .bkpt f => Sys2Proof.Machine.execBkpt f s
  | .bkptCrew f => Sys2Proof.Machine.execBkptCrew f s
  | .dump f => Sys2Proof.Machine.execDump f s
  | .errinj f => Sys2Proof.Machine.execErrinj f s
  | .wpset f => Sys2Proof.Machine.execWpset f s
  | .wpclr f => Sys2Proof.Machine.execWpclr f s
  | .wprd f => Sys2Proof.Machine.execWprd f s
  | .hrd f => Sys2Proof.Machine.execHrd f s
  | .hwr f => Sys2Proof.Machine.execHwr f s
  | .hstep f => Sys2Proof.Machine.execHstep f s
  | .hstepLane f => Sys2Proof.Machine.execHstepLane f s
  | .hres f => Sys2Proof.Machine.execHres f s
  | .hresCrew f => Sys2Proof.Machine.execHresCrew f s
  | .hresSheaf f => Sys2Proof.Machine.execHresSheaf f s
  | .snap f => Sys2Proof.Machine.execSnap f s
  | .probe f => Sys2Proof.Machine.execProbe f s
  | .trace f => Sys2Proof.Machine.execTrace f s
  | .heatrd f => Sys2Proof.Machine.execHeatrd f s
  | .cctlCompletion g => Sys2Proof.Machine.execCctlCompletion g s
  | .msixUnmask vec => Sys2Proof.Machine.execMsixUnmask vec s
  | .peerLinkChange => Sys2Proof.Machine.execPeerLinkChange s
  | .backInvalidate => Sys2Proof.Machine.execBackInvalidate s
  | .tick => Sys2Proof.Machine.execTick s
  | .sensorSample => Sys2Proof.Machine.execSensorSample s
  | .coolPeriodExpiry => Sys2Proof.Machine.execCoolPeriodExpiry s
  | .engineWatchdogExpiry => Sys2Proof.Machine.execEngineWatchdogExpiry s
  | .snapshotTrigger => Sys2Proof.Machine.execSnapshotTrigger s
  | .snapshotLatch => Sys2Proof.Machine.execSnapshotLatch s
  | .thresherRound => Sys2Proof.Machine.execThresherRound s
  | .nopPacket => Sys2Proof.Machine.execNopPacket s
  | .launch => Sys2Proof.Machine.execLaunch s
  | .ibCall => Sys2Proof.Machine.execIbCall s
  | .waitValue => Sys2Proof.Machine.execWaitValue s
  | .writeValue => Sys2Proof.Machine.execWriteValue s
  | .fencePacket => Sys2Proof.Machine.execFencePacket s
  | .timestamp => Sys2Proof.Machine.execTimestamp s
  | .snapshotRelease => Sys2Proof.Machine.execSnapshotRelease s
  | .hostTrigger => Sys2Proof.Machine.execHostTrigger s
  | .readEventLog => Sys2Proof.Machine.execReadEventLog s
  | .updateBegin => Sys2Proof.Machine.execUpdateBegin s
  | .updateData => Sys2Proof.Machine.execUpdateData s
  | .updateCommit => Sys2Proof.Machine.execUpdateCommit s
  | .granaryHalt => Sys2Proof.Machine.execGranaryHalt s
  | .granaryHrd => Sys2Proof.Machine.execGranaryHrd s
  | .granaryHwr => Sys2Proof.Machine.execGranaryHwr s
  | .granaryHstep => Sys2Proof.Machine.execGranaryHstep s
  | .granaryHres => Sys2Proof.Machine.execGranaryHres s
  | .killAsid => Sys2Proof.Machine.execKillAsid s
  | .preemptAsid => Sys2Proof.Machine.execPreemptAsid s
  | .snapshotCommand => Sys2Proof.Machine.execSnapshotCommand s
  | .mailboxCommandCompletion => Sys2Proof.Machine.execMailboxCommandCompletion s
  | .powerLoss => Sys2Proof.Machine.execPowerLoss s

end Sys2Proof.Machine
end

