-- ==== Sys2Proof/Machine/Step.lean ====
section
/-! DEFINITION. One step of the machine, and placing an instruction where the next step fetches it. -/

namespace Sys2Proof.Machine

/-- Makes a move (R212). A move that may not be made changes nothing (log 3: DESIGN CHOICE, safe). -/
def State.move (s : State) (m : Move) : Host.Outcome State Fault Refusal :=
  if !s.allows m then .next s
  else match m with
    | .issue g rf =>
      let s := { s with refetch := rf }
      match s.groupTurn g with
      | .done s' => .next s'
      | .run s1 i => afterwards (exec i s1) fun s2 =>
          match s.group? g with
          | some r => s.finish s1 s2 g r (s.stepLanes r i)
          | none => s2
    | .seq core slot rf =>
      match ({ s with refetch := rf } : State).seqTurn core slot with
      | .done s' => .next s'
      | .run s1 i => exec i s1
    | .stop g => .next (s.stopGroup g)
    | .event i rf =>
      -- an instruction of a stream is no event
      if i.form.isSome then .next s else exec i { s with actor := .device, refetch := rf }
    | .memError pa bad => .next (s.memError pa bad)
    | .crewError core slot bad => .next (s.crewError core slot bad)
    | .peek g k => .next (s.peekRead g k)

/-- Makes a move, a halt that it brings landing after a wait that had ended (R349). -/
def State.make (s : State) (m : Move) : Host.Outcome State Fault Refusal := afterwards (s.move m) s.endedFirst

/-- One step: the next move is made. -/
def step (s : State) : Host.Outcome State Fault Refusal :=
  match s.nextMove with
  | (none, s') => .next s'
  | (some m, s') => s'.make m

/-- Places an instruction, given by its table word, where the next step fetches it: pinned code at address 0
of an address space, a crew that stands there, and the move that issues it. (Log 2: DESIGN CHOICE, safe.) -/
def State.withFetchWord (s : State) (nbits w : Nat) : State :=
  let bs := bytesOfNat 16 (w % 2 ^ nbits)
  let matrix := (match decode false bs with | .ok _ => false | .error _ => true) &&
    (match decode true bs with | .ok _ => true | .error _ => false)
  let s := { s with dev := { s.dev with power := true, hold := false } }
  let s := (s.placeCode bs).placeCrew matrix
  { s with agenda := (if matrix then .seq 0 0 true else .issue { core := 0, slot := 0 } true) :: s.agenda }

end Sys2Proof.Machine
end

