-- ==== Sys2Proof/Safety.lean ====
section
/-! DEFINITION. The terms in which statements about the machine are made: when an instruction issues,
what it means that it completes with a result and changes nothing else, and what a safe run is. -/

namespace Sys2Proof.Machine

/-! ### Safe runs -/

/-- A step goes on: it ends neither in a fault nor in a refusal. -/
def GoesOn (o : Host.Outcome State Fault Refusal) : Prop := ∃ t, o = .next t

/-- A safe run of the machine: every state it reaches from `s` has a next state. -/
def SafeFrom (s : State) : Prop := ∀ n : Nat, GoesOn (Sys2Proof.core.run n s)

/-! ### When a group instruction issues -/

/-- The privilege level an instruction needs (R292, R351): 0 but for those that act on another group, and
the two that only a level-2 crew may run. -/
def needsLevel : Instr → Nat
  | .hrd _ | .hwr _ | .hstep _ | .hstepLane _ | .hres _ | .hresCrew _ | .hresSheaf _ => 1
  | .errinj _ | .heatrd _ => 2
  | _ => 0

/-- No watch predicate of the core is enabled (R340, bit 63 of its control word). -/
def State.unwatched (s : State) (core : Nat) : Prop :=
  ∀ w ∈ (s.core core).watch, bitOf w.ctl 63 = false

/-- The conditions under which the legal instruction `i`, with fields and shape `x`, has its effect when
the group `r` at `g` issues it: the group's privilege suffices (R292), the V registers it names lie in the
group's granules (R50), the group's guard holds if it is group-wide (R41), no posted pass holds a
register it writes (R182), no PROBE or LPEEK still owes a register it names or an end that it awaits (R356, R222),
the group does not wait yet, and no watch predicate is enabled on the core. -/
structure Issues (i : Instr) (x : Form) (s : State) (g : Gid) (r : Group) : Prop where
  form : i.form = some x
  legal : x.legal = true
  actor : s.actor = .grp g
  group : s.group? g = some r
  level : needsLevel i ≤ s.levelOf g r
  extent : x.shape.extent x.f ≤ 32 * r.gran
  guard : x.f.u = true → s.guard r x.f 0 = true
  free : s.writesHeld r (x.shape.writes x.f) = false
  owed : r.owes x.f x.shape = false
  first : r.wait = .none
  unwatched : s.unwatched g.core

/-- Whether the issue slot counts as useful (R355): some lane that is no helper lane is Active, or the
instruction is group-wide. -/
def State.useful (s : State) (r : Group) (f : Fields) : Bool := f.u || !(s.contrib r f).isEmpty

/-- As `Issues`, for an instruction the group already waits in and that makes its next step (R49, R213):
the slot was counted when it first issued. -/
structure Continues (i : Instr) (x : Form) (s : State) (g : Gid) (r : Group) : Prop where
  form : i.form = some x
  legal : x.legal = true
  actor : s.actor = .grp g
  group : s.group? g = some r
  level : needsLevel i ≤ s.levelOf g r
  extent : x.shape.extent x.f ≤ 32 * r.gran
  guard : x.f.u = true → s.guard r x.f 0 = true
  free : s.writesHeld r (x.shape.writes x.f) = false
  owed : r.owes x.f x.shape = false
  waiting : r.wait ≠ .none
  unwatched : s.unwatched g.core

/-- As `Issues`, on a core whose predicates may be enabled (R340): the group is no handler group, under no halt, and
`skips` says whether it passes over the predicates before the access once (R346). -/
structure IssuesWatched (i : Instr) (x : Form) (s : State) (g : Gid) (r : Group) (skips : Bool) : Prop where
  form : i.form = some x
  legal : x.legal = true
  actor : s.actor = .grp g
  group : s.group? g = some r
  level : needsLevel i ≤ s.levelOf g r
  extent : x.shape.extent x.f ≤ 32 * r.gran
  guard : x.f.u = true → s.guard r x.f 0 = true
  free : s.writesHeld r (x.shape.writes x.f) = false
  owed : r.owes x.f x.shape = false
  first : r.wait = .none
  running : r.halt.cause = 0 ∧ r.bcast = none ∧ r.inHandler = false
  skipping : r.wskip = skips

/-- `s` with the issue slot counted and the group's record `r'`; an evaluation that a halt skipped is
over. -/
def State.retired (s : State) (g : Gid) (r : Group) (f : Fields) (r' : Group) : State :=
  (s.countIssue g (s.useful r f)).putGroup g { r' with wskip := false }

/-! ### What registers hold after a write -/

/-- V registers from `s` to `t`: in each lane listed that holds a thread, each register paired with a
value holds it; every other register of every thread is as before. -/
def VWritten (s t : State) (r : Group) (ls : List Nat) (ws : Nat → List (Nat × W32)) : Prop :=
  (∀ l ∈ ls, r.home l ≠ 0 → ∀ w ∈ ws l, tget 0 t.vreg (vkey (r.home l) w.1 l) = w.2) ∧
  (∀ k, (∀ l ∈ ls, r.home l ≠ 0 → ∀ w ∈ ws l, k ≠ vkey (r.home l) w.1 l) →
    tget 0 t.vreg k = tget 0 s.vreg k)

/-- P registers from `s` to `t`, bit by bit, as for V registers: bit `l` of a P register is lane `l`'s. -/
def PWritten (s t : State) (r : Group) (ls : List Nat) (ws : Nat → List (Nat × Bool)) : Prop :=
  (∀ l ∈ ls, r.home l ≠ 0 → ∀ w ∈ ws l, (tget 0 t.preg (pkey (r.home l) w.1)).getLsbD l = w.2) ∧
  (∀ k b, (∀ l ∈ ls, r.home l ≠ 0 → ∀ w ∈ ws l, ¬ (k = pkey (r.home l) w.1 ∧ b = l)) →
    (tget 0 t.preg k).getLsbD b = (tget 0 s.preg k).getLsbD b)

/-- G registers from `s` to `t`. -/
def GWritten (s t : State) (r : Group) (ws : List (Nat × W64)) : Prop :=
  (∀ w ∈ ws, tget 0 t.greg (gkey r.uid w.1) = w.2) ∧
  (∀ k, (∀ w ∈ ws, k ≠ gkey r.uid w.1) → tget 0 t.greg k = tget 0 s.greg k)

/-- What a group instruction that touches only registers does: the group's record after it, and by lane
the V and P registers it writes (of the lanes `ls`), and the G registers. -/
structure Effect where
  after : Group
  ls : List Nat := []
  v : Nat → List (Nat × W32) := fun _ => []
  p : Nat → List (Nat × Bool) := fun _ => []
  g : List (Nat × W64) := []

/-- The instruction completes with exactly this effect: its next state exists, holds the values given,
and is `s` in everything else (every other register, all memory, every other group, crew and unit); the
core's own record differs in the issue-slot counter alone. -/
def Completes (i : Instr) (x : Form) (s : State) (g : Gid) (r : Group) (e : Effect) : Prop :=
  ∃ t, exec i s = .next t ∧
    t = { s.retired g r x.f e.after with vreg := t.vreg, preg := t.preg, greg := t.greg } ∧
    VWritten s t r e.ls e.v ∧ PWritten s t r e.ls e.p ∧ GWritten s t r e.g

/-- Whenever `i` issues in group `r` of `s`, it completes with this effect and no other. -/
def Does (i : Instr) (s : State) (r : Group) (e : Effect) : Prop :=
  ∀ x g, Issues i x s g r → Completes i x s g r e

/-- Whenever `i` issues in group `r` of `s`, the group stops precisely with a crew-fatal fault (R324): the
instruction has no effect, and its crew's fault is this code. -/
def Faults (i : Instr) (s : State) (r : Group) (code : Nat) : Prop :=
  ∀ x g, Issues i x s g r →
    exec i s = .next ((s.countIssue g (s.useful r x.f)).crewFatal g r { code := code })

/-- Whenever `i` issues in group `r` of `s`, the group waits in it: its record is `r'`, with the
instruction's fields kept, and nothing else changes. -/
def WaitsIn (i : Instr) (s : State) (r r' : Group) : Prop :=
  ∀ x g, Issues i x s g r →
    exec i s = .next (s.retired g r x.f { r' with ins := x.f, insSh := x.shape })

/-- The condition under which a wait's end reaches the group at `g`: it stands there, no crew-fatal stop
has abandoned the wait (R325), no posted pass holds a register the instruction writes (R182), and no watch
predicate is enabled on its core. -/
structure WaitsAt (s : State) (g : Gid) (r : Group) : Prop where
  group : s.group? g = some r
  going : r.halt.cause ≠ 7
  free : s.writesHeld r (r.insSh.writes r.ins) = false
  unwatched : s.unwatched g.core

/-- The group's record when the instruction it waits in completes: its PC moves on, and the wait is
over. -/
def Group.woken (r : Group) : Group := { r with wait := .none, pc := nextPc r.pc r.ins.len, wskip := false }

/-- As `Does`, for an instruction that raises flags (R131, R132), `fl l` in lane `l`: each contributing
lane's %fpx gains its flags and loses none, and a lane that enables one of them traps with FPTRAP after
the results are written. The group is no handler group, where a trap is HFAULT (R322). -/
def DoesWithFlags (i : Instr) (s : State) (r : Group) (e : Effect) (fl : Nat → Nat) : Prop :=
  ∀ x g, Issues i x s g r → r.inHandler = false →
    let ls := s.contrib r x.f
    let trapping := ls.filter fun l => fl l &&& bitsOf (s.fpxOf r l) 23 16 ≠ 0
    let frames := trapping.map fun l => s.trapFrame r x.f x.shape l Code.fptrap 0 (BitVec.ofNat 32 (fl l))
    ∃ t, exec i s = .next t ∧
      t = { s.retired g r x.f { e.after with traps := e.after.traps ++ frames } with
        vreg := t.vreg, preg := t.preg, greg := t.greg, fpx := t.fpx } ∧
      VWritten s t r e.ls e.v ∧ PWritten s t r e.ls e.p ∧ GWritten s t r e.g ∧
      (∀ l ∈ ls, r.home l ≠ 0 → t.fpxOf r l = s.fpxOf r l ||| BitVec.ofNat 32 (fl l % 256)) ∧
      (∀ k, (∀ l ∈ ls, r.home l ≠ 0 → k ≠ r.home l * 32 + l) → tget 0 t.fpx k = tget 0 s.fpx k)

/-! ### Memory accesses -/

/-- The group's partition does not trace (R357). -/
def State.untraced (s : State) (g : Gid) (r : Group) : Prop := bitOf (s.trctl (s.asidOf g r)) 63 = false

/-- `t` is `s` in everything but V and G registers, the group at `g`, whose record is `r'`, and what a read leaves: in
its core's record the view (R213), the translation cache and the samples (R296, R297) and one count of issue slots
(R355); in its die's the translation cache; and what a read that meets a soft error leaves (R337: it is corrected or its
frame withdrawn, and logged). So all of memory, scratch and every control-block register are as before. With no soft
error in memory the device's record is as before. -/
def OnlyLoads (s t : State) (g : Gid) (r' : Group) : Prop :=
  let granary := { s.dev.granary with
    corrected := t.dev.granary.corrected, withdrawn := t.dev.granary.withdrawn,
    log := t.dev.granary.log, logFirst := t.dev.granary.logFirst }
  t = { s with vreg := t.vreg, greg := t.greg, groups := tput s.groups (gidKey g) r', cores := t.cores,
               dies := t.dies, softErr := t.softErr, freeCtr := t.freeCtr,
               dev := { s.dev with granary := granary, msix := t.dev.msix } } ∧
  (s.softErr = [] → t.dev = s.dev ∧ t.freeCtr = s.freeCtr ∧ t.softErr = []) ∧
  (∀ n, n ≠ g.core → tfind t.cores n = tfind s.cores n) ∧
  t.core g.core = { s.core g.core with
    view := (t.core g.core).view, tlb := (t.core g.core).tlb, sample := (t.core g.core).sample,
    samples := (t.core g.core).samples, leaf := (t.core g.core).leaf } ∧
  (∃ slot, slot < 2 ∧ (t.core g.core).leaf = (s.core g.core).leaf.modify slot (· + 1)) ∧
  (∀ n, n ≠ dieOf g.core → tfind t.dies n = tfind s.dies n) ∧
  (tfind t.dies (dieOf g.core)).getD {} =
    { (tfind s.dies (dieOf g.core)).getD {} with tlb := ((tfind t.dies (dieOf g.core)).getD {}).tlb }

/-- The checks of R226 pass for a lane's access of `n` bytes: no fault, no range lock (R218), and the place
is in this device's memory; a pool access meets no link error (R302). -/
def LaneClear (s : State) (g : Gid) (r : Group) (n : Nat) (c : LChk) (a : W64) : Prop :=
  c.fault?.isNone ∧ s.lockedAt g r n c a = false ∧
    ∀ pa, c = .ok pa → isAway pa = false ∧ (isPoolKey pa = true → r.linkBad = false)

/-- The bytes of lane `l` that go to each unit in turn, with the space, the place, the address as the group
names it, and the lane. -/
def cutCells (l : Nat) : List (LChk × Nat × Nat) → List Byte → List (Space × Nat × Nat × Byte × Nat)
  | [], _ => []
  | u :: t, bs => laneCells l u.1 u.2.1 (bs.take u.2.2) ++ cutCells l t (bs.drop u.2.2)

/-- From `s` to `t` the group at `g` stops precisely, and its crew with it, for a fault of an access (R226, R324):
nothing is accessed and nothing written, and the crew's record gives the code, the address and the lanes that failed.
-/
def StopsFor (s t : State) (g : Gid) (r : Group) (fr : FRec) (lanes : W32) : Prop :=
  (∃ r', t.group? g = some r' ∧ r'.halt.cause = 7 ∧ r'.pc = r.pc ∧ r'.wait = r.wait ∧ r'.outbox = r.outbox) ∧
  t.vreg = s.vreg ∧ t.preg = s.preg ∧ t.greg = s.greg ∧ t.mem = s.mem ∧ t.scratch = s.scratch ∧ t.regions = s.regions ∧
  ∃ c st, t.crew? g.core r.crew = some c ∧ c.stop = some st ∧ st.frec.code = fr.code ∧ st.frec.va = fr.va ∧
    st.frec.pc = r.pc ∧ st.frec.lanes = lanes

/-- From `s` to `t` the group at `g` waits for a page, at the instruction (R226, R299): nothing is accessed and nothing
written, and a record gives the code, the address and the lanes that failed. -/
def WaitsOnPage (s t : State) (g : Gid) (r : Group) (f : Fields) (fr : FRec) (lanes : W32) : Prop :=
  let asid := s.asidOf g r
  (∃ r', t.group? g = some r' ∧ r'.wait = .page asid (fr.va.toNat / 4096 % 2 ^ 36) ∧ r'.pc = r.pc ∧ r'.outbox = r.outbox ∧
    r'.ins = f ∧ r'.halt = r.halt) ∧
  t.vreg = s.vreg ∧ t.preg = s.preg ∧ t.greg = s.greg ∧ t.mem = s.mem ∧ t.scratch = s.scratch ∧ t.regions = s.regions ∧
  ∃ note, t.records = s.records ++ [(s.partOf asid, note)] ∧ note.code = fr.code ∧ note.va = fr.va ∧ note.pc = r.pc ∧
    note.lanes = lanes

/-! ### Integer results (R150 to R155) -/

/-- What an integer instruction gives D: the width of the result, whether a 32-bit group-wide result is
filled with copies of bit 31, the result of each lane (lane 0's for a group-wide form), and the CC its
group-wide `.cc` form writes. -/
structure IntRow where
  f : Fields
  w : Nat
  signed : Bool
  val : Nat → W64
  cc : Option (BitVec 4) := none

/-- D of each Active lane, one register or a pair; or G[D] of a group-wide form, its upper half filled
(R150); CC under `.cc`. -/
def IntRow.effect (y : IntRow) (s : State) (r : Group) : Effect :=
  if y.f.u then
    { after := { r.next y.f with cc := if y.f.ccw then y.cc.getD r.cc else r.cc },
      g := [(y.f.d.toNat, if y.w = 32 then
        (if y.signed then ((y.val 0).setWidth 32).signExtend 64 else ((y.val 0).setWidth 32).setWidth 64) else y.val 0)] }
  else
    { after := r.next y.f, ls := s.activeLanes r y.f,
      v := fun l => (y.f.d.toNat, (y.val l).setWidth 32) ::
        (if y.w = 32 then [] else [(y.f.d.toNat + 1, (y.val l).extractLsb' 32 32)]) }

/-- A row whose result has a width of its own. -/
def IntRow.wide (f : Fields) (w : Nat) (signed : Bool) (val : Nat → W64) : IntRow :=
  { f := f, w := w, signed := signed, val := val }
/-- A row of the type the instruction's F.fn names. -/
def IntRow.typed (f : Fields) (val : Nat → W64) (cc : Option (BitVec 4) := none) : IntRow :=
  { f := f, w := f.width, signed := f.signed, val := val, cc := cc }

end Sys2Proof.Machine
end

