-- ==== Sys2Proof/Certificates/Slice0/Obligations.lean ====
section
/-! DEFINITION. The statements about the model, each from the manual's numbered rules. -/

open Sys2Proof Sys2Proof.Machine

/-- Moves and arithmetic (R150, R152, R153): for each Active lane with U=0, or once with U=1, D takes the
exact result mod 2^w, or saturated with .sat; a group-wide `.cc` form writes CC. Nothing else changes but
the PC. -/
def Claims.IntegerArithmetic : Prop :=
  ∀ (f : Fields) (s : State) (r : Group),
    let A := fun l => valOf f.width f.signed (s.opA r f l)
    let B := fun l => valOf f.width f.signed (s.opB r f l)
    let C := fun l => valOf f.width f.signed (s.opC r f l)
    let fit := narrow f.width f.signed f.sat
    let wrap := narrow f.width f.signed false
    let is := fun (i : Instr) (y : IntRow) => Does i s r (y.effect s r)
    is (.mov f) (.typed f (s.opA r f) (some (ccLogic f.width (s.opA r f 0)))) ∧
    is (.movi f) (.typed f (fun _ => Fields.immW f f.width f.signed)
      (some (ccLogic f.width (Fields.immW f f.width f.signed)))) ∧
    is (.sel f) (.typed f fun l => if s.predC r f l then s.opA r f l else s.opB r f l) ∧
    is (.iadd f) (.typed f (fun l => fit (A l + B l))
      (some (ccAdd f.width (s.opA r f 0) (s.opB r f 0) 0 (fit (A 0 + B 0))))) ∧
    is (.isub f) (.typed f (fun l => fit (A l - B l))
      (some (ccSub f.width (s.opA r f 0) (s.opB r f 0) 0 (fit (A 0 - B 0))))) ∧
    is (.imul f) (.typed f fun l => fit (A l * B l)) ∧
    is (.imulh f) (.typed f fun l => wrap ((A l * B l).fdiv (2 ^ f.width))) ∧
    is (.imad f) (.typed f fun l => fit (A l * B l + C l)) ∧
    is (.imadw f) (.wide f 64 f.signed fun l => narrow 64 f.signed false
      (valOf 32 f.signed ((s.a32 r f l).setWidth 64) * valOf 32 f.signed ((s.b32 r f l).setWidth 64)
        + valOf 64 f.signed (s.src64 r f.u f.kc f.c l))) ∧
    is (.iabs f) (.typed f (fun l => fit |A l|) (some (ccAbs f.width (s.opA r f 0) (fit |A 0|)))) ∧
    is (.ineg f) (.typed f (fun l => fit (-A l)) (some (ccSub f.width 0 (s.opA r f 0) 0 (fit (-A 0))))) ∧
    is (.imin f) (.typed f fun l => wrap (min (A l) (B l))) ∧
    is (.imax f) (.typed f fun l => wrap (max (A l) (B l))) ∧
    is (.lea f) (.wide f 64 f.signed fun l => narrow 64 false false
      ((s.src64 r f.u f.ka f.a l).toNat + B l * 2 ^ f.sub)) ∧
    is (.dot4 f) (.wide f 32 f.signed fun l =>
      let t := fun i => ext8 (byteOf (s.a32 r f l) i) (f.sub % 2 == 1) *
        ext8 (byteOf (s.b32 r f l) i) (f.sub / 2 % 2 == 1)
      narrow 32 true f.sat ((s.c32 r f l).toInt + (t 0 + t 1 + t 2 + t 3)))

/-- Bitwise instructions, byte selection, bit counts and reversal (R154, R155). -/
def Claims.BitwiseAndCounts : Prop :=
  ∀ (f : Fields) (s : State) (r : Group),
    let is := fun (i : Instr) (y : IntRow) => Does i s r (y.effect s r)
    let logic := fun (v : Nat → W64) => IntRow.typed f v (some (ccLogic f.width (v 0)))
    let w := if f.fnBits 8 8 = 0 then 32 else 64
    let ofNat := fun (v : Nat → Nat) l => BitVec.ofNat 64 (v l)
    is (.and f) (logic fun l => s.opA r f l &&& s.opB r f l) ∧
    is (.or f) (logic fun l => s.opA r f l ||| s.opB r f l) ∧
    is (.xor f) (logic fun l => s.opA r f l ^^^ s.opB r f l) ∧
    is (.not f) (logic fun l => ~~~ s.opA r f l) ∧
    is (.btab f) (.wide f w false fun l => btab (f.fnBits 7 0) (s.srcW r w f.u f.ka f.a l)
      (if f.w64 then s.srcW r w f.u f.kb f.b l else Fields.immW f w false) (s.srcW r w f.u f.kc f.c l)) ∧
    is (.bysel f) (.wide f 32 f.signed (ofNat fun l =>
      let c := (s.c32Imm r f l).toNat
      let byte := byselByte (s.a32 r f l) (s.src32 r f.u f.kb f.b l)
      byte (c % 16) + byte (c / 16 % 16) * 2 ^ 8 + byte (c / 256 % 16) * 2 ^ 16 + byte (c / 4096 % 16) * 2 ^ 24)) ∧
    is (.popc f) (.wide f 32 f.signed (ofNat fun l => popcount (s.opA r f l).toNat f.width)) ∧
    is (.clz f) (.wide f 32 f.signed (ofNat fun l => leadZeros (s.opA r f l).toNat f.width)) ∧
    is (.brev f) (.typed f (ofNat fun l => bitRev (s.opA r f l).toNat f.width))

/-- Shifts and bit fields (R154): the count is B[7:0]; a shift by the width or more leaves 0, or copies of
the sign. -/
def Claims.ShiftsAndBitFields : Prop :=
  ∀ (f : Fields) (s : State) (r : Group),
    let is := fun (i : Instr) (y : IntRow) => Does i s r (y.effect s r)
    let logic := fun (v : Nat → W64) => IntRow.typed f v (some (ccLogic f.width (v 0)))
    let n := fun l => (s.b32 r f l).toNat % 256
    let A := fun l => (s.opA r f l).toNat
    let w := f.width
    is (.shl f) (logic fun l => if w ≤ n l then 0 else narrow w false false (A l * 2 ^ n l)) ∧
    is (.shr f) (logic fun l => if w ≤ n l then 0 else BitVec.ofNat 64 (A l / 2 ^ n l)) ∧
    is (.sha f) (logic fun l => narrow w false false ((valOf w true (s.opA r f l)).fdiv (2 ^ min (n l) w))) ∧
    is (.rot f) (.typed f fun l =>
      BitVec.ofNat 64 (A l * 2 ^ (n l % w) % 2 ^ w) ||| BitVec.ofNat 64 (A l / 2 ^ (w - n l % w))) ∧
    is (.bfx f) (.typed f fun l =>
      let len := min ((s.b32 r f l).toNat / 256 % 256) w
      let x : Int := (valOf w f.signed (s.opA r f l)).fdiv (2 ^ n l) % 2 ^ len
      if len = 0 then 0
      else narrow w false false (if f.signed && decide (2 ^ (len - 1) ≤ x) then x - 2 ^ len else x)) ∧
    is (.bfi f) (.typed f fun l =>
      let pos := (s.c32Imm r f l).toNat % 256
      let len := min ((s.c32Imm r f l).toNat / 256 % 256) w
      let m := BitVec.ofNat 64 ((2 ^ len - 1) * 2 ^ pos % 2 ^ w)
      if w ≤ pos || len = 0 then s.opA r f l
      else (s.opA r f l &&& ~~~ m) ||| (BitVec.ofNat 64 ((s.srcW r w f.u f.kb f.b l).toNat * 2 ^ pos) &&& m))

/-- Sums and differences with a carry (R152, R153): the carry comes in and goes out through Pc of the lane
with U=0, and through CC.C with U=1, where only `.cc` writes it out. -/
def Claims.CarryThroughPOrCC : Prop :=
  ∀ (f : Fields) (s : State) (r : Group),
    let w := f.width
    let A := fun l => (s.opA r f l).toNat
    let B := fun l => (s.opB r f l).toNat
    let carry := fun (flag : Bool) l => (if f.u then flag else s.p r f.c.toNat l).toNat
    let is := fun (i : Instr) (x : Nat → Int) (cc : BitVec 4) (out : Nat → Bool) =>
      Does i s r { (IntRow.typed f (fun l => narrow w false false (x l)) (some cc)).effect s r with
        p := fun l => if f.u then [] else [(f.c.toNat, out l)] }
    let sum := fun l => A l + B l + carry r.flagC l
    let dif := fun l => (A l : Int) - B l - carry (!r.flagC) l
    is (.iaddc f) (fun l => sum l)
      (ccAdd w (s.opA r f 0) (s.opB r f 0) (carry r.flagC 0) (narrow w false false (sum 0)))
      (fun l => decide (2 ^ w ≤ sum l)) ∧
    is (.isubb f) dif (ccSub w (s.opA r f 0) (s.opB r f 0) (carry (!r.flagC) 0) (narrow w false false (dif 0)))
      (fun l => decide (dif l < 0))

/-- ICMP (R153, R154): the condition of each Active lane goes to its Pd, or once to Qd; with `.cc` CC is
that of A - B too. -/
def Claims.IntegerCompare : Prop :=
  ∀ (f : Fields) (s : State) (r : Group),
    let w := f.width
    let holds := fun (c : Nat) (a b : Int) =>
      (c = 0 && a == b) || (c = 1 && a != b) || (c = 2 && decide (a < b)) || (c = 3 && decide (a ≤ b)) ||
        (c = 4 && decide (a > b)) || (c = 5 && decide (a ≥ b))
    let c := fun l => holds f.sub (valOf w f.signed (s.opA r f l)) (valOf w f.signed (s.opB r f l))
    let sub := narrow w false false (valOf w false (s.opA r f 0) - valOf w false (s.opB r f 0))
    Does (.icmp f) s r
      (if f.u then
        let r := { r.next f with q := setBit r.q f.d.toNat (c 0) }
        { after := if f.ccw then { r with cc := ccSub w (s.opA r f 0) (s.opB r f 0) 0 sub } else r }
      else { after := r.next f, ls := s.activeLanes r f, p := fun l => [(f.d.toNat, c l)] })

/-- Integer instructions (R150 to R155): arithmetic, bitwise, shifts and fields, the carry chains, and compare.
BTAB's immediate (log 19), the CC of ICMP (log 70) and the one register of a 64-bit count (log 84) are the model's
readings. -/
def Obligations.IntegerInstructions : Prop :=
  Claims.IntegerArithmetic ∧ Claims.BitwiseAndCounts ∧ Claims.ShiftsAndBitFields ∧ Claims.CarryThroughPOrCC ∧
    Claims.IntegerCompare

/-! ### Control flow, divergence, formats, special registers -/

/-- Branches, calls and loops (R36, R96 to R98): the next PC, and the G register written.
That BRX's target had bits 63:48 is held in a field of the model's own (log 9). -/
def Obligations.BranchesCallsLoops : Prop :=
  ∀ (f : Fields) (s : State) (r : Group),
    -- NextPC: past the instruction, and past the four bytes at offset 28 of a block
    let past := r.pc + BitVec.ofNat 48 f.len.bytes
    let next : Group := { r with pc := if past.toNat % 32 = 28 then past + 4 else past }
    let rel : Group := { r with pc := r.pc + f.i32.signExtend 48 }
    let a := s.gr r f.a.toNat
    let far : Group := { r with pc := a.setWidth 48, pcBad := a.toNat / 2 ^ 48 != 0 }
    let jumped : Group := { r with pc := a.setWidth 48, pcBad := false }
    let n := s.gr r f.d.toNat
    Does (.nop f) s r { after := next } ∧
    Does (.bra f) s r { after := if r.cond (f.fnBits 3 0) then rel else next } ∧
    Does (.brx f) s r { after := if r.cond (f.fnBits 3 0) then far else next } ∧
    Does (.call f) s r { after := rel, g := [(f.d.toNat, next.pc.setWidth 64)] } ∧
    Does (.callI f) s r { after := jumped, g := [(f.d.toNat, next.pc.setWidth 64)] } ∧
    Does (.ret f) s r { after := jumped } ∧
    Does (.loop f) s r (if n = 0 then { after := next }
      else { after := if n - 1 = 0 then next else rel, g := [(f.d.toNat, n - 1)] })

/-- The divergence stack (R102, R103): DPUSH splits EXEC on a predicate, DELSE turns to the other path, DPOP closes;
each DELSE and DPOP brings back the FMT of the push. Pushing on a full stack, and turning or closing an empty,
sealed or already turned one, is DIVDEPTH. -/
def Obligations.DivergenceStack : Prop :=
  ∀ (f : Fields) (s : State) (r : Group),
    let mask := laneMask (allLanes.filter fun l => s.p r f.a.toNat l)
    let m := if f.fnIs 1 then ~~~ mask else mask
    let e := r.stack.getD (r.depth - 1) {}
    let rejoin := (r.pc + f.i32.signExtend 48).extractLsb' 2 46
    let new : SEntry := { exec := r.exec, els := r.exec &&& ~~~ m, fmt := r.fmt, rejoin := rejoin }
    let pushed : Group := { r.next f with stack := r.stack.set r.depth new, depth := r.depth + 1, exec := r.exec &&& m }
    let turned : Group := { r with stack := r.stack.set (r.depth - 1) { e with elseDone := true }, exec := e.els, fmt := e.fmt }
    let turnedPc := if e.els = 0 then e.rejoin ++ (0 : BitVec 2) else nextPc r.pc f.len
    (r.depth ≠ 16 → Does (.dpush f) s r { after := pushed }) ∧
    (r.depth = 16 → Faults (.dpush f) s r Code.divdepth) ∧
    (r.depth ≠ 0 → e.isSealed = false → e.elseDone = false → Does (.delse f) s r { after := { turned with pc := turnedPc } }) ∧
    (r.depth = 0 ∨ e.isSealed = true ∨ e.elseDone = true → Faults (.delse f) s r Code.divdepth) ∧
    (r.depth ≠ 0 → e.isSealed = false → Does (.dpop f) s r { after :=
      { r.next f with exec := e.exec, fmt := e.fmt, depth := r.depth - 1 } }) ∧
    (r.depth = 0 ∨ e.isSealed = true → Faults (.dpop f) s r Code.divdepth)

/-- Formats, helper lanes, lane choice and special registers (R55, R108, R110 to R112): the selectors in their order.
A reserved format code from a register is FMTX. -/
def Claims.FormatsHelpersSpecials : Prop :=
  ∀ (f : Fields) (s : State) (r : Group),
    let ls := s.activeLanes r f
    let x := (s.gr r f.a.toNat).setWidth 16
    let quads := laneMask (allLanes.filter fun l => (List.range 4).any fun i => r.exec.getLsbD (l - l % 4 + i))
    let helpers := quads &&& ~~~ r.exec
    -- %lane, %quad, %grp, %crew, %sheaf, %core, %cluster, %die, %hb, %asid and, last, %fpx
    let selector := fun (g : Gid) (grp l : Nat) =>
      let c := s.crewOf g r
      let cluster := g.core / 64 * 64 + g.core / 8 % 8 / 2 * 16 + g.core % 8 / 2 * 2
      (BitVec.ofNat 64 ([l, l / 4, grp, c.index, c.sheaf, g.core, cluster, g.core / 64, s.dev.hb.toNat, c.asid].getD
        f.a.toNat (s.fpxOf r l).toNat) : W64)
    (f.fnIs 0 = true → Does (.setfmt f) s r { after := { r.next f with fmt := f.imm.setWidth 16 } }) ∧
    (f.fnIs 0 = false → fmtReserved x = false → Does (.setfmt f) s r { after := { r.next f with fmt := x } }) ∧
    (f.fnIs 0 = false → fmtReserved x = true → Faults (.setfmt f) s r Code.fmtx) ∧
    Does (.leader f) s r { after := r.next f, ls := ls, p := fun l =>
      [(f.d.toNat, l = if f.fnIs 1 then ls.getLastD 32 else ls.headD 32)] } ∧
    Does (.helperOn f) s r { after := { r.next f with hlp := r.hlp ||| helpers, exec := r.exec ||| helpers } } ∧
    Does (.helperOff f) s r { after := { r.next f with exec := r.exec &&& ~~~ r.hlp, hlp := 0 } } ∧
    Does (.helperRd f) s r { after := r.next f, ls := ls, p := fun l => [(f.d.toNat, r.hlp.getLsbD l)] } ∧
    (f.u = true → ∀ x g, Issues (.movs f) x s g r →
      Completes (.movs f) x s g r { after := r.next f, g := [(f.d.toNat, selector g r.grp 0)] }) ∧
    (f.u = false → ∀ x g, Issues (.movs f) x s g r →
      let sel := fun l => selector g (r.homes.getD l (0, r.grp)).2 l
      Completes (.movs f) x s g r { after := r.next f, ls := ls, v := fun l => (f.d.toNat, (sel l).setWidth 32) ::
        (if f.a = 8 then [(f.d.toNat + 1, (sel l).extractLsb' 32 32)] else []) })

/-- MOVSW writes %fpx of each Active lane from A, its reserved bits ignored (R9, R110, R131), and nothing
else. -/
def Claims.MovswWritesFpx : Prop :=
  ∀ (f : Fields) (s : State) (r : Group) x g, Issues (.movsw f) x s g r →
    ∃ t, exec (.movsw f) s = .next t ∧ t = { s.retired g r f (r.next f) with fpx := t.fpx } ∧
      (∀ l ∈ s.activeLanes r f, r.home l ≠ 0 → t.fpxOf r l = s.a32 r f l &&& 0x00FF00FF) ∧
      (∀ k, (∀ l ∈ s.activeLanes r f, r.home l ≠ 0 → k ≠ r.home l * 32 + l) → tget 0 t.fpx k = tget 0 s.fpx k)

/-- YIELD and SLEEP pace a group (R109): it waits in the instruction, and when its time is over goes on
past it; no register or memory changes. -/
def Claims.YieldAndSleep : Prop :=
  (∀ (f : Fields) (s : State) (r : Group),
    WaitsIn (.yield f) s r { r with wait := .yield } ∧ WaitsIn (.sleep f) s r { r with wait := .sleep }) ∧
  ∀ (s : State) (g : Gid) (r : Group), WaitsAt s g r →
    (r.wait = .yield → exec (.yieldEnd g) s = .next (s.putGroup g r.woken)) ∧
    (r.wait = .sleep → exec (.sleepExpiry g) s = .next (s.putGroup g r.woken))

/-- Formats, helper marks, lane choice, special registers, and the two pacing instructions (R55, R108 to R112).
The group-wide %grp of a regrouped group, and the helper lanes of exited threads, are the model's readings (logs
38 and 85). -/
def Obligations.FormatsPacingSpecials : Prop :=
  Claims.FormatsHelpersSpecials ∧ Claims.MovswWritesFpx ∧ Claims.YieldAndSleep

/-! ### Quad, cross-lane and predicate instructions -/

/-- Values moved across lanes (R166, R168, R170): each Active lane reads A of its source lane, whatever
that lane's masks are. -/
def Claims.LaneMoves : Prop :=
  ∀ (f : Fields) (s : State) (r : Group),
    let A := fun l => s.src32 r false f.ka f.a l
    let is := fun (i : Instr) (v : Nat → W32) =>
      Does i s r { after := r.next f, ls := s.activeLanes r f, v := fun l => [(f.d.toNat, v l)] }
    let C := s.contrib r f
    let same := fun l => C.filter fun x =>
      if f.fn.toNat < 2 then A x == A l else s.src64 r false f.ka f.a x == s.src64 r false f.ka f.a l
    is (.lxch f) (fun l =>
      let mode := f.fnBits 1 0
      let n := 2 ^ f.fnBits 4 2
      let base := l - l % n
      let i := l % n
      let k := (s.b32 r f l).toNat % 256
      let S := base + (if mode = 0 then k % n else if mode = 1 then (i + k) % n
        else if mode = 2 then (((i : Int) - k) % n).toNat else (i ^^^ k) % n)
      let valid := f.fnBits 5 5 ≠ 1 ∨ (mode = 1 → i + k < n) ∧ (mode = 2 → k ≤ i)
      if valid then A S else A l) ∧
    is (.qswz f) (fun l => A (l - l % 4 + f.imm.toNat / 2 ^ (2 * (l % 4)) % 4)) ∧
    is (.qbcast f) (fun l => A (l - l % 4 + f.imm.toNat % 4)) ∧
    is (.matchg f) (fun l =>
      if l ∈ C then (if f.fn.toNat % 2 = 1 then BitVec.ofNat 32 ((same l).headD 0) else laneMask (same l))
      else if f.fn.toNat % 2 = 1 then 0xFFFFFFFF else 0) ∧
    Does (.bcastg f) s r { after := r.next f, g := [(f.d.toNat,
      (if f.fnIs 0 then A f.imm.toNat else match C with | [] => 0 | l :: _ => A l).setWidth 64)] }

/-- Predicates over lanes and groups (R155, R170, R171). -/
def Claims.PredicateOps : Prop :=
  ∀ (f : Fields) (s : State) (r : Group),
    let ls := s.activeLanes r f
    let C := s.contrib r f
    let set := C.filter fun l => s.p r f.a.toNat l
    let T := fun (a b c : Bool) => f.fn.toNat.testBit (a.toNat + 2 * b.toNat + 4 * c.toNat)
    let toQ := fun (b : Bool) => ({ after := { r.next f with q := setBit r.q f.d.toNat b } } : Effect)
    let toG := fun (x : W64) => ({ after := r.next f, g := [(f.d.toNat, x)] } : Effect)
    let toP := fun (b : Nat → Bool) => ({ after := r.next f, ls := ls, p := fun l => [(f.d.toNat, b l)] } : Effect)
    Does (.pcoll f) s r (match f.fn.toNat with
      | 0 => toQ (C.any fun l => s.p r f.a.toNat l)
      | 1 => toQ (C.all fun l => s.p r f.a.toNat l)
      | 2 => toQ (set.length = 0 || set.length = C.length)
      | 3 => toG ((laneMask set).setWidth 64)
      | _ => toG (BitVec.ofNat 64 set.length)) ∧
    Does (.plop f) s r (toP fun l => T (s.p r f.a.toNat l) (s.p r f.b.toNat l) (s.p r f.c.toNat l)) ∧
    Does (.qlop f) s r (toQ (T (r.q.getLsbD f.a.toNat) (r.q.getLsbD f.b.toNat) (r.q.getLsbD f.c.toNat))) ∧
    Does (.pmov f) s r (match f.fn.toNat with
      | 0 => toP fun l => s.p r f.a.toNat l
      | 1 => toP fun l => s.v r f.a.toNat l != 0
      | 2 => { after := r.next f, ls := ls, v := fun l => [(f.d.toNat, if s.p r f.a.toNat l then 1 else 0)] }
      | 3 => toG ((laneMask (ls.filter fun l => s.p r f.a.toNat l)).setWidth 64)
      | _ => toP fun l => (s.gr r f.a.toNat).getLsbD l)

/-! ### Floating point -/

/-- Arithmetic (R156, R158): each Active lane's D is the exact result rounded once to F32 under RM, with
the flags of the special operands and of the rounding. -/
def Claims.FloatArithmetic : Prop :=
  ∀ (f : Fields) (s : State) (r : Group),
    let rm := f.fnBits 1 0
    let A := fun l => fmtF32.read (s.a32 r f l).toNat
    let B := fun l => fmtF32.read (s.b32 r f l).toNat
    let C := fun l => fmtF32.read (s.c32 r f l).toNat
    let is := fun (i : Instr) (exact : Nat → Machine.Num × Nat) =>
      let y := fun l => fmtF32.round rm false (exact l).1
      DoesWithFlags i s r
        { after := r.next f, ls := s.activeLanes r f, v := fun l => [(f.d.toNat, BitVec.ofNat 32 (y l).1)] }
        fun l => (exact l).2 ||| (y l).2
    is (.fadd f) (fun l => Machine.Num.add rm (A l) (B l)) ∧
    is (.fsub f) (fun l => Machine.Num.add rm (A l) (B l).neg) ∧
    is (.fmul f) (fun l => Machine.Num.mul (A l) (B l)) ∧
    is (.ffma f) (fun l => Machine.Num.fma rm (A l) (B l) (C l)) ∧
    is (.fdiv f) (fun l => Machine.Num.div (A l) (B l)) ∧
    is (.fsqrt f) (fun l => (A l).sqrt) ∧
    is (.frcp f) (fun l => Machine.Num.div (.fin false 1 1) (A l)) ∧
    is (.frsq f) (fun l => (A l).rsqrt) ∧
    is (.fexp2 f) (fun l => (A l).exp2) ∧
    is (.flog2 f) (fun l => (A l).log2)

/-- Comparison, selection, classification, and the packed multiply-add (R159, R160). -/
def Claims.FloatCompareAndPacked : Prop :=
  ∀ (f : Fields) (s : State) (r : Group),
    let ls := s.activeLanes r f
    let is := fun (i : Instr) (y : Nat → W32 × Nat) =>
      DoesWithFlags i s r { after := r.next f, ls := ls, v := fun l => [(f.d.toNat, (y l).1)] } fun l => (y l).2
    let A := fun l => fmtF32.read (s.a32 r f l).toNat
    let B := fun l => fmtF32.read (s.b32 r f l).toNat
    let un := fun l => (A l).isNan || (B l).isNan
    let k := fun l => Machine.Num.cmp (A l) (B l)
    let c := f.fnBits 2 0
    let t := if f.fnBits 2 2 = 0 then fmtBF16 else fmtH16
    let half := fun (h : Nat) l =>
      let part := fun (x : W32) => t.read (x.toNat / 65536 ^ h % 65536)
      let exact := Machine.Num.fma (f.fnBits 1 0) (part (s.a32 r f l)) (part (s.b32 r f l)) (part (s.c32 r f l))
      let y := t.round (f.fnBits 1 0) (f.fnBits 3 3 == 1) exact.1
      (y.1, exact.2 ||| y.2)
    is (.fmin f) (fun l => (fminBits (s.a32 r f l) (s.b32 r f l) false, 0)) ∧
    is (.fmax f) (fun l => (fminBits (s.a32 r f l) (s.b32 r f l) true, 0)) ∧
    is (.frnd f) (fun l => frnd (f.fnBits 1 0) (s.a32 r f l)) ∧
    is (.fclass f) (fun l => (fclass (s.a32 r f l), 0)) ∧
    is (.pfma f) (fun l => (BitVec.ofNat 32 ((half 0 l).1 + (half 1 l).1 * 65536), (half 0 l).2 ||| (half 1 l).2)) ∧
    DoesWithFlags (.fcmp f) s r { after := r.next f, ls := ls, p := fun l => [(f.d.toNat,
        if c = 0 then !un l && k l == 0 else if c = 1 then un l || k l != 0
        else if c = 2 then !un l && decide (k l < 0) else if c = 3 then !un l && decide (k l ≤ 0)
        else if c = 4 then !un l && decide (k l > 0) else if c = 5 then !un l && decide (k l ≥ 0)
        else if c = 6 then un l else !un l)] }
      fun l => if 2 ≤ c ∧ c ≤ 5 then (if un l then 1 else 0) else if (A l).isSig || (B l).isSig then 1 else 0

/-- The floating-point instructions of one format, and the packed ones (R156 to R160).
How FEXP2 and FLOG2 are computed, and where saturation judges the exact value, are the model's (logs 20 and 102). -/
def Obligations.FloatInstructions : Prop :=
  Claims.FloatArithmetic ∧ Claims.FloatCompareAndPacked

/-- Conversions and block quantisation (R161 to R165). A format QBLK and DQBLK do not accept is FMTX. -/
def Claims.Conversions : Prop :=
  ∀ (f : Fields) (s : State) (r : Group),
    let ls := s.activeLanes r f
    let is := fun (i : Instr) (y : Nat → W32 × Nat) =>
      DoesWithFlags i s r { after := r.next f, ls := ls, v := fun l => [(f.d.toNat, (y l).1)] } fun l => (y l).2
    let mode := if f.fnBits 8 7 = 0 then bitsOf r.fmt 15 14 else f.fnBits 8 7
    let ty := cvtTy (f.fnBits 5 3)
    let src := fsel (f.fnBits 2 0)
    let int := fun l =>
      let v := src.read ((s.a32 r f l).toNat % 2 ^ src.bits)
      let y := roundInt mode (leastOf ty.1 ty.2) (greatestOf ty.1 ty.2) v
      ((BitVec.ofInt 64 y.1 : W64), (if v.isSig then 1 else 0) ||| y.2)
    let lead := fun l => ((blkLanes (bitsOf r.fmt 9 8) l).filter ls.contains).headD l
    is (.f2f f) (fun l =>
      let y := f2f (fsel (f.fnBits 5 3)) src mode (f.fnBits 6 6 == 1) (s.a32 r f l).toNat
      (BitVec.ofNat 32 y.1, y.2)) ∧
    is (.i2f f) (fun l =>
      let x := valOf ty.1 ty.2 (s.srcW r (if ty.1 = 64 then 64 else 32) false f.ka f.a l)
      let y := (fsel (f.fnBits 2 0)).round mode (f.fnBits 6 6 == 1) (.fin (decide (x < 0)) x.natAbs 1)
      (BitVec.ofNat 32 y.1, y.2)) ∧
    DoesWithFlags (.f2i f) s r { after := r.next f, ls := ls, v := fun l => (f.d.toNat, (int l).1.setWidth 32) ::
        (if ty.1 = 64 then [(f.d.toNat + 1, (int l).1.extractLsb' 32 32)] else []) } (fun l => (int l).2) ∧
    (blkFmtOk r.fmt = true → is (.dqblk f) (fun l =>
      dequant (bitsOf r.fmt 3 0) (bitsOf r.fmt 13 12) (s.a32 r f l) ((s.src32 r f.u f.kc f.c (lead l)).toNat % 256))) ∧
    (blkFmtOk r.fmt = false → Faults (.dqblk f) s r Code.fmtx ∧ Faults (.qblk f) s r Code.fmtx)

/-- QBLK (R163, R164): a scale group with a value that is not finite gets the NaN scale and zero elements,
with IV; else the scale of its greatest magnitude, and each element divided by it and rounded. A group
without a contributing lane is not written. Where C names D's register, the scale is written last. -/
def Claims.BlockQuantisation : Prop :=
  ∀ (f : Fields) (s : State) (r : Group), blkFmtOk r.fmt = true →
    let af := bitsOf r.fmt 3 0
    let sf := bitsOf r.fmt 13 12
    let A := fun l => fmtF32.read (s.a32 r f l).toNat
    let vals := fun l => ((blkLanes (bitsOf r.fmt 9 8) l).filter (s.contrib r f).contains).map A
    let scale := fun l => blkScale sf af (amaxOf (vals l)).1 (amaxOf (vals l)).2
    let fin := fun l => (vals l).all Machine.Num.isFinite
    let elem := fun l => quantElem af (bitsOf r.fmt 15 14) (A l) (scale l).2.1 (scale l).2.2
    DoesWithFlags (.qblk f) s r
      { after := r.next f, ls := s.activeLanes r f, v := fun l =>
          let d := if fin l then (elem l).1 else 0
          let c := if fin l then BitVec.ofNat 32 (scale l).1 else if sf = 1 then 0xFF else 0x7F
          if vals l = [] then [] else if f.c = f.d then [(f.c.toNat, c)] else [(f.d.toNat, d), (f.c.toNat, c)] }
      fun l => if vals l = [] then 0 else if fin l then (elem l).2 else 1

/-- The conversions between formats, and to and from block-scaled form (R161 to R165).
QBLK with one register for both results, F2F between equal formats, and where saturation judges the exact value
and where the rounded one, are the model's readings (logs 69, 100, 102 and 113). -/
def Obligations.ConversionInstructions : Prop :=
  Claims.Conversions ∧ Claims.BlockQuantisation

/-- Differences, reductions and scans across lanes (R166, R168, R169): helper lanes do not contribute, and
the order of an F32 sum is fixed. That a lone NaN under codes 9 and 10 gives the canonical NaN is the
model's reading (log 101), and that an exclusive scan adds the last lane too its choice (log 129). -/
def Claims.ReductionsAndScans : Prop :=
  ∀ (f : Fields) (s : State) (r : Group),
    let A := fun l => s.src32 r false f.ka f.a l
    let con := s.contrib r f
    let code := f.fn.toNat
    let tree := treeSum 5 (allLanes.map fun l => if l ∈ con then some (A l) else none)
    let sumF : W32 × Nat := match tree.1 with
      | none => (redId 8, 0)
      | some x => (if (fmtF32.read x.toNat).isNan then 0x7FC00000 else x,
          (if con.any fun l => (fmtF32.read (A l).toNat).isSig then 1 else 0) ||| tree.2)
    let red : W32 × Nat := if code = 8 then sumF
      else if code < 8 then (con.foldl (fun x l => redOp code x (A l)) (redId code), 0)
      else (con.foldl (fun x l => fminBits x (A l) (code = 10)) (redId code), 0)
    DoesWithFlags (.redg f) s r { after := r.next f, g := [(f.d.toNat, red.1.setWidth 64)] } (fun _ => red.2) ∧
    (let run := scanOf (f.fnBits 3 0) A con (redId (f.fnBits 3 0))
     let at_ := fun l => run.find? fun e => e.1 = l
     DoesWithFlags (.scang f) s r
      { after := r.next f, ls := s.activeLanes r f, v := fun l => [(f.d.toNat, match at_ l with
          | some e => if f.fnBits 4 4 = 1 then e.2.1 else e.2.2.1
          | none => redId (f.fnBits 3 0))] }
      fun l => match at_ l with | some e => e.2.2.2 | none => 0) ∧
    (let step := if f.fn.toNat % 2 = 0 then 1 else 2
     let b := fun l => if f.fn.toNat < 2 then l else l - l % 4
     let lo := fun l => if b l / step % 2 = 1 then b l - step else b l
     let x := fun l => Machine.Num.add 0 (fmtF32.read (A (lo l + step)).toNat) (fmtF32.read (A (lo l)).toNat).neg
     let y := fun l => fmtF32.round 0 false (x l).1
     DoesWithFlags (.qdiff f) s r
      { after := r.next f, ls := s.activeLanes r f, v := fun l => [(f.d.toNat, BitVec.ofNat 32 (y l).1)] }
      fun l => (x l).2 ||| (y l).2)

/-- The quad, cross-lane and predicate instructions (R166 to R171). -/
def Obligations.CrossLaneInstructions : Prop :=
  Claims.LaneMoves ∧ Claims.PredicateOps ∧ Claims.ReductionsAndScans

/-- Rounding leaves what is representable alone (R127, R129): every finite value of every format rounds to
its own encoding under every mode, and raises no flag. -/
def Obligations.RoundingKeepsRepresentable : Prop :=
  ∀ t ∈ [fmtF32, fmtBF16, fmtH16, fmtE5M2, fmtE4M3, fmtE2M1], ∀ (mode : Nat) (sat : Bool) (x : Nat),
    x < 2 ^ t.bits → t.isNan x = false → t.isInf x = false → t.round mode sat (t.read x) = (x, 0)

/-! ### Memory -/

/-- LD, LDS and LDC (R213, R225 to R228): each Active lane's D receives the bytes its load-issue step
finds, widened as TY gives; a helper lane whose access would fault receives zero (R112). Nothing is stored:
all of memory and scratch is as before. The bytes of each access lie in one 64-byte line, as its alignment
makes them. -/
def Claims.LoadsWriteDestinations : Prop :=
  ∀ (f : Fields) (s : State) (g : Gid) (r : Group),
    let n := tyBytes f.ty
    let act := s.activeLanes r f
    let global := fun l => s.chkGlobal g.core (s.asidOf g r) (s.addr r f true l) n n Acc.load false
    let is := fun (i : Instr) (addr : Nat → W64) (chk : Nat → LChk) =>
      let zero := fun l => r.hlp.getLsbD l = true ∧ ((chk l).fault?.isSome ∨ s.lockedAt g r n (chk l) (addr l) = true)
      ∀ x, Issues i x s g r → s.untraced g r →
        (∀ l ∈ act, s.loadBlocked r n (chk l) = false ∧ (zero l ∨ LaneClear s g r n (chk l) (addr l)) ∧
          ∀ pa, chk l = .ok pa → pa % 64 + n ≤ 64) →
        ∃ t, exec i s = .next t ∧ OnlyLoads s t g { r.next f with wskip := false } ∧ t.greg = s.greg ∧
          VWritten s t r act fun l => pieces f.d.toNat (widen f.ty
            (if r.hlp.getLsbD l && ((chk l).fault?.isSome || s.lockedAt g r n (chk l) (addr l)) then List.replicate n 0
             else (s.loadUnit g r n (chk l)).1))
    is (.ld f) (s.addr r f true) global ∧
    is (.lds f) (s.addr r f false) (fun l => s.chkScratch g r (s.addr r f false l) n n Acc.load (f.fnBits 8 8 == 1)) ∧
    (f.u = false → is (.ldc f) (s.addr r f true) global) ∧
    (f.u = true → ∀ x, Issues (.ldc f) x s g r → s.untraced g r → s.loadBlocked r n (global 0) = false →
      LaneClear s g r n (global 0) (s.addr r f true 0) →
      ∃ t, exec (.ldc f) s = .next t ∧ OnlyLoads s t g { r.next f with wskip := false } ∧ t.vreg = s.vreg ∧
        GWritten s t r [(f.d.toNat, widenG f.ty (s.loadUnit g r n (global 0)).1)])

/-- What a load-issue step finds (R213): the youngest entry of the group's own outbox that covers the unit;
else, on this device, the core's view copy of the line, or the bytes at home, which then have a copy in the
view; else the crew's scratch. -/
def Claims.LoadFindsNewest : Prop :=
  ∀ (s : State) (g : Gid) (r : Group) (n : Nat),
    (∀ pa, isAway pa = false → pa % 64 + n ≤ 64 →
      let line := pa / 64
      let x := s.loadUnit g r n (.ok pa)
      (∀ bs, r.forward? .global pa n = some bs → x = (bs, s)) ∧
      (r.forward? .global pa n = none → ∀ v, tfind (s.core g.core).view line = some v →
        x = ((v.drop (pa % 64)).take n, s)) ∧
      (r.forward? .global pa n = none → tfind (s.core g.core).view line = none →
        x.1 = (List.range n).map (fun i => s.byte (pa + i)) ∧ x.2.mem = s.mem ∧
        tfind (x.2.core g.core).view line = some ((List.range 64).map fun i => s.byte (line * 64 + i)))) ∧
    (∀ uid off c k, s.loadUnit g r n (.scr uid off c k) =
      ((r.forward? (.scratch uid) off n).getD ((List.range n).map fun i => s.sbyte uid (off + i)), s))

/-- Loads (R213, R225 to R229): each Active lane's destinations take the bytes its address names, widened, a helper
lane's load that faults giving 0; and each byte comes from the youngest covering entry of the group's own
outbox, else the view, else the home. Nothing else changes but what a read leaves (`OnlyLoads`): the view, which takes
the line, the translation caches, the sample and issue counters, and the record of a soft error.
The size of the line a view takes is the model's choice (log 6). -/
def Obligations.Loads : Prop :=
  Claims.LoadsWriteDestinations ∧ Claims.LoadFindsNewest

/-- ST and STS (R213, R225 to R228): each contributing lane's bytes join the group's outbox, at the address
the lane computes, little-endian, in entries of one 16-byte unit; a later lane's byte stands. Nothing is
stored yet: every byte of memory and scratch reads as before, and no register changes. -/
def Claims.StoresJoinOutbox : Prop :=
  ∀ (f : Fields) (s : State) (g : Gid) (r : Group),
    let n := tyBytes f.ty
    let is := fun (i : Instr) (addr : Nat → W64) (chk : Nat → LChk) => ∀ x, Issues i x s g r → s.untraced g r →
      (∀ l ∈ s.contrib r f, s.storeBlocked n (chk l) = false ∧ (chk l).fault?.isNone ∧
        s.lockedAt g r n (chk l) (addr l) = false) →
      let es := storeEntries ((s.contrib r f).flatMap fun l => laneCells l (chk l) (addr l).toNat (s.storeData r f l))
      ∃ t, exec i s = .next t ∧ t.vreg = s.vreg ∧ t.greg = s.greg ∧ OnlyLoads s t g
        { r.next f with wskip := false, outbox := r.outbox ++ es.map fun e => { e with pc := r.pc } }
    is (.st f) (s.addr r f true) (fun l => s.chkWord g r (s.addr r f true l) n Acc.store true) ∧
    is (.sts f) (s.addr r f false)
      (fun l => s.chkScratch g r (s.addr r f false l) n n Acc.store (f.fnBits 8 8 == 1))

/-- The entries of one store instruction hold each byte stored once, with its last value in lane order, and
no other byte (R213). -/
def Claims.EntriesHoldStoredBytes : Prop :=
  ∀ (sp : Space) (cs : List (Nat × Nat × Byte × Nat)) (a : Nat),
    let held := (unitEntries sp cs).flatMap fun e => e.cells.filter fun c => c.1 = a
    held = match cs.reverse.find? fun c => c.1 = a with
      | some c => [(a, c.2.2.1)]
      | none => []

/-- Stores (R213, R225 to R228): the entries ST and STS add to the outbox, one 16-byte unit each, and the bytes the
entries hold; memory and registers are as before.
The 16-byte unit is the model's reading (log 5). -/
def Obligations.Stores : Prop :=
  Claims.StoresJoinOutbox ∧ Claims.EntriesHoldStoredBytes

/-- DRAIN of an entry for memory, scratch or a peer (R213): it leaves the outbox, and its bytes are written there. -/
def Claims.DrainWritesMemory : Prop :=
  ∀ (s : State) (g : Gid) (r : Group) (k : Nat) (e : Ent), s.group? g = some r → r.drainable k = true →
    r.outbox[k]? = some e → e.marker = none → r.kind = .own → r.live ≠ 0 →
    (e.cells.map (·.1)).Nodup → e.vas.length = e.cells.length →
    (e.space = .peer → ∀ c ∈ e.cells, isBlockKey c.1 = false) →
    ∃ t, exec (.drain g k) s = .next t ∧
      t.group? g = some { r with outbox := dropMarkers (r.outbox.take k ++ r.outbox.drop (k + 1)) } ∧
      t.vreg = s.vreg ∧ t.preg = s.preg ∧ t.greg = s.greg ∧ t.hostMem = s.hostMem ∧
      match e.space with
      | .scratch uid => t.mem = s.mem ∧
          (∀ c ∈ e.cells, tget 0 t.scratch (scrKey uid c.1) = c.2) ∧
          ∀ a, (∀ c ∈ e.cells, a ≠ scrKey uid c.1) → tget 0 t.scratch a = tget 0 s.scratch a
      | .peer => t.scratch = s.scratch ∧ (∀ c ∈ e.cells, t.byte c.1 = c.2) ∧
          ∀ a, (∀ c ∈ e.cells, a ≠ c.1) → t.byte a = s.byte a
      | .global => e.anew = false → (∀ c ∈ e.cells, plainKey c.1 = true) → t.scratch = s.scratch ∧ (∀ c ∈ e.cells, t.byte c.1 = c.2) ∧
          (∀ a, (∀ c ∈ e.cells, a ≠ c.1) → t.byte a = s.byte a) ∧
          ∀ c ∈ e.cells, ∀ v, tfind (s.core g.core).view (c.1 / 64) = some v →
            ∃ v', tfind (t.core g.core).view (c.1 / 64) = some v' ∧ v'.length = v.length ∧
              (c.1 % 64 < v.length → v'[c.1 % 64]? = some c.2)

/-- DRAIN of an entry that met CAPF or waited for one (R299, R304, R307): its bytes are translated anew, and written
where they lie now. That they are is the model's reading (log 121). -/
def Claims.DrainTranslatesAnew : Prop :=
  ∀ (s : State) (g : Gid) (r : Group) (k : Nat) (e : Ent) (places : List Nat), s.group? g = some r →
    r.drainable k = true → r.outbox[k]? = some e → e.marker = none → r.kind = .own → r.live ≠ 0 → e.space = .global →
    e.anew = true → e.vas.length = e.cells.length → places.length = e.cells.length → places.Nodup →
    (∀ i < e.cells.length, s.chkGlobal g.core (s.crewOf g r).asid (BitVec.ofNat 64 (e.vas.getD i 0)) 1 1 Acc.store true =
      .ok (places.getD i 0) ∧ plainKey (places.getD i 0) = true) →
    ∃ t, exec (.drain g k) s = .next t ∧
      t.group? g = some { r with outbox := dropMarkers (r.outbox.take k ++ r.outbox.drop (k + 1)) } ∧
      t.vreg = s.vreg ∧ t.preg = s.preg ∧ t.greg = s.greg ∧ t.hostMem = s.hostMem ∧ t.scratch = s.scratch ∧
      (∀ i < e.cells.length, t.byte (places.getD i 0) = (e.cells.getD i (0, 0)).2) ∧
      ∀ a, a ∉ places → t.byte a = s.byte a

/-- DRAIN of an entry for the control block (R213, R371): the register takes the word's RW bits, those under the first
mask, and keeps those under the second (STOP, STRETCH, OVFCNT); no other register and no byte of memory changes. The
registers are the writable words of R371 but those whose write has an event of its own, and the words that ignore a
write; QBACKOFF in pairs. -/
def Claims.DrainWritesRegister : Prop :=
  ∀ (s : State) (g : Gid) (r : Group) (k n : Nat) (e : Ent) (w : W64), s.group? g = some r → r.drainable k = true →
    r.outbox[k]? = some e → e.marker = none → r.kind = .own → r.live ≠ 0 → e.space = .peer →
    let words := fun (ok : Bool) (l : List (Nat × W64 × W64)) => if ok then l else []
    let logn := (s.ctlw (0x1000 + 64 * n + 16)).toNat % 32
    let en := fun (o : Nat) => (s.ctlw o).getLsbD 63
    let keeps := fun (o : Nat) => (o, (0 : W64), (0xFFFFFFFFFFFFFFFF : W64))
    let regs : List (Nat × W64 × W64) :=
      -- a queue whose LOGN is legal, restarted by nothing (R374)
      words (n < 64 && 4 ≤ logn && logn ≤ 16 && !(w.getLsbD 58 && (s.ctlw (0x1000 + 64 * n)).getLsbD 59))
        [(0x1000 + 64 * n, 0xF13F000000000FFF, 0x0800000000000000)] ++
      words (n < 64 && 4 ≤ logn && logn ≤ 16) [(0x1008 + 64 * n, 0xFFFFFFFFFFFFFF80, 0)] ++
      words (n < 64 && 4 ≤ w.toNat % 32 && w.toNat % 32 ≤ 16) [(0x1010 + 64 * n, 0x1F, 0)] ++
      -- a partition, its enabling apart, and its registers but FREPLAY (R290)
      words (n < 64) [(0x2000 + 32 * n, 0xFFFFFFFFFFFFFFFF, 0), (0x2010 + 32 * n, 0x00007F1FFFFFFFFF, 0)] ++
      words (n < 64 && !w.getLsbD 63) [(0x2008 + 32 * n, partdMask, 0)] ++
      words (n < 64) [(0x2800 + 64 * n, 0x0000FFFFFFFFF01F, 0), (0x2808 + 64 * n, 0x0000FFFFFFFFFFC1, 0),
        (0x2818 + 64 * n, 0x801FFFFFFFFFF000, 0), (0x2820 + 64 * n, 0x80FFFFFFFFFFF000, 0),
        (0x2828 + 64 * n, 0xFC0FFFFFFFFFF000, 0)] ++
      -- word 1 of a lattice descriptor that no region stands at (R253); a compressible region (R303)
      words (n < 64 && (tfind s.regions n).isNone) [(0x3808 + 16 * n, 0x0000FFFF0007FFFF, 0xFFFF000000000000)] ++
      words (n < 64) [(0x3C00 + 32 * n, 0x8FFFFFFFFFFFF000, 0), (0x3C08 + 32 * n, 0x7FFFF, 0xFFFFFFFF00000000),
        (0x3C10 + 32 * n, 0x000FFFFFFFFFF01F, 0), (0x3C18 + 32 * n, 0x000FFFFFFFFFF01F, 0)] ++
      -- a die's PTEUPD, its command apart (R307)
      words (n < 4) [(0x4400 + 64 * n, 0x0000FFFFFFFFF003, 0), (0x4408 + 64 * n, 0xFFF, 0),
        (0x4410 + 64 * n, 0xFFFFFFFFFFFFFFFF, 0), (0x4418 + 64 * n, 0xFFFFFFFFFFFFFFFF, 0),
        (0x4428 + 64 * n, 0x000FFFFFFFFFF01F, 0)] ++
      -- WIN2; the back-offs of the senders, two to a word (R91); a pool window, its enabling apart (R372)
      [(0x4820, 0x800FFFF000000000, 0)] ++
      words (n < 2) [(0x4900 + 8 * n, 0x000FFFFF000FFFFF, 0)] ++ words (n < 128) [(0x4A00 + 8 * n, 0x000FFFFF000FFFFF, 0)] ++
      words (n < 16) [(0x4E08 + 32 * n, 0x000FFFFFF0000000, 0), (0x4E10 + 32 * n, 0xFFFF, 0)] ++
      -- the mailbox's arguments (R385); an address space that is or was not enabled (R290)
      words (n < 4) [(0x5008 + 8 * n, 0xFFFFFFFFFFFFFFFF, 0)] ++
      words (n < 4096 && (w.getLsbD 63 || !en (0x10000 + 8 * n))) [(0x10000 + 8 * n, asidtMask, 0)] ++
      -- read-only: the identity record, EMSTAT, DOMID and DOMMAP
      words (n < 512) [keeps (8 * n)] ++ words (n < 64) [keeps (0x4600 + 8 * n)] ++ [keeps 0x4818, keeps 0x4828]
    ∀ reg ∈ regs, e.cells = (List.range 8).map (fun i => (blockKey + reg.1 + i, (leBytes 8 w.toNat).getD i 0)) →
      ∃ t, exec (.drain g k) s = .next t ∧
        t.group? g = some { r with outbox := dropMarkers (r.outbox.take k ++ r.outbox.drop (k + 1)) } ∧
        t.ctlw reg.1 = (w &&& reg.2.1) ||| (s.ctlw reg.1 &&& reg.2.2) ∧ (∀ o, o ≠ reg.1 → t.ctlw o = s.ctlw o) ∧
        t.vreg = s.vreg ∧ t.preg = s.preg ∧ t.greg = s.greg ∧ t.scratch = s.scratch ∧ t.mem = s.mem ∧ t.hostMem = s.hostMem

/-- DRAIN (R213): an entry that nothing older holds back leaves the outbox, and its bytes are written at
home, in scratch or at the peer: exactly those bytes, and every other byte of memory is as before. The
core's view copies of them follow. The group lives on, and its page is not compressible. A store to the control block
writes its register (R371); that a level-2 crew's leaf reaches the block so is the model's choice (log 16), and that an
entry which met CAPF is translated anew its reading (log 121). -/
def Obligations.DrainWritesEntry : Prop :=
  Claims.DrainWritesMemory ∧ Claims.DrainTranslatesAnew ∧ Claims.DrainWritesRegister

/-- A spill restores what it saved (R147): the words a slot's format byte and bytes give back are the words
that were spilled, whichever form they took. -/
def Obligations.SpillRestores : Prop :=
  ∀ xs : List W32, xs.length = 32 →
    let form := spillForm xs
    unspill form.1 form.2 = xs ∧ spillLen form.1 = some form.2.length

/-- LDB, STB, SPILL and FILL (R147, R226, R229, R230) complete, where every unit's checks pass, no range of it, or of the
4,096-byte frame, is locked (R218), and no older store or copy holds them back: LDB and FILL write their registers,
STB and SPILL add their entries to the outbox, and no byte of memory changes yet; all else is as before but what a read
or a translation leaves (`OnlyLoads`). -/
def Obligations.BlockMovesAndSpills : Prop :=
  ∀ (f : Fields) (s : State) (g : Gid) (r : Group),
    let a := fun l => s.src64 r false f.ka f.a l
    let b := fun l => s.src64 r false f.kb f.b l
    let units := fun acc w l => s.chkBlk r g.core (s.asidOf g r) (a l) (b l) f.gb acc w
    let clear := fun (us : LChk × List (LChk × Nat × Nat)) => us.2.all fun u => u.1.fault?.isNone &&
      !s.locked g.core (s.asidOf g r) u.2.1 u.2.2
    let near := fun (us : List (LChk × Nat × Nat)) => us.all fun u =>
      match u.1 with | .ok pa => !isPeer pa | _ => true
    let meets := fun (us : LChk × List (LChk × Nat × Nat)) => us.2.any fun u =>
      match u.1.space with
      | some (sp, x) => r.outbox.any fun e => e.overlaps sp x u.2.2
      | none => false
    let act := s.activeLanes r f
    let frame := s.gr r f.a.toNat
    let slot := f.imm.toNat
    let fill := fun (k n acc : Nat) w => s.frameUnits g r f (frame + BitVec.ofNat 64 k) n acc w
    let fit := fun (us : List (LChk × Nat × Nat)) => us.all fun u => u.1.fault?.isNone &&
      !s.storeBlocked u.2.2 u.1 && !s.lockedAt g r u.2.2 u.1 (BitVec.ofNat 64 u.2.1)
    let older := fun (us : List (LChk × Nat × Nat)) => us.any fun u => s.loadBlocked r u.2.2 u.1
    (∀ x, Issues (.ldb f) x s g r → s.untraced g r → (∀ l ∈ act, r.hlp.getLsbD l = false ∧
        clear (units Acc.load false l) = true ∧ near (units Acc.load false l).2 = true ∧
        meets (units Acc.load false l) = false) →
      let word := fun l i => BitVec.ofNat 32 (leNat ((((units Acc.load false l).2.flatMap fun u =>
        s.homeUnit (dieOf g.core) u).drop (4 * i)).take (if i = f.gb / 4 then 1 else 4)))
      ∃ t, exec (.ldb f) s = .next t ∧ OnlyLoads s t g { r.next f with wskip := false } ∧ t.greg = s.greg ∧
        VWritten s t r act fun l => pieces f.d.toNat ((List.range (f.gb / 4 + 1)).map (word l))) ∧
    (∀ x, Issues (.stb f) x s g r → s.untraced g r → (∀ l ∈ s.contrib r f, clear (units Acc.store true l) = true) →
      let ent := fun l =>
        let cs := cutCells l (units Acc.store true l).2 ((List.range (f.gb / 4)).flatMap (fun i =>
          leBytes 4 (s.v r (f.c.toNat + i) l).toNat) ++ leBytes 1 (s.v r (f.c.toNat + f.gb / 4) l).toNat)
        ({ space := if cs.all fun c => c.1 == .peer then .peer else .global,
           cells := cs.map fun c => (c.2.1, c.2.2.2.1), vas := cs.map fun c => c.2.2.1,
           lanes := cs.map fun c => c.2.2.2.2, pc := r.pc } : Ent)
      ∃ t, exec (.stb f) s = .next t ∧ t.vreg = s.vreg ∧ t.greg = s.greg ∧
        OnlyLoads s t g { r.next f with wskip := false, outbox := r.outbox ++ (s.contrib r f).map ent }) ∧
    (∀ x, Issues (.spill f) x s g r →
      let form := spillForm (allLanes.map fun l => s.v r f.c.toNat l)
      let us := fill (128 * (slot + 1)) form.2.length Acc.store true
      let fb := fill slot 1 Acc.store true
      frame.toNat % 4096 = 0 → fit (us ++ fb) = true → s.frameLocked g r f frame = false →
      let es := storeEntries (cutCells 0 us form.2) ++ storeEntries (cutCells 0 fb [BitVec.ofNat 8 form.1])
      ∃ t, exec (.spill f) s = .next t ∧ t.vreg = s.vreg ∧ t.greg = s.greg ∧ OnlyLoads s t g
        { r.next f with wskip := false, outbox := r.outbox ++ es.map fun e => { e with pc := r.pc } }) ∧
    (∀ x, Issues (.fill f) x s g r →
      let fb := fill slot 1 Acc.load false
      let x0 := (s.countIssue g (s.useful r f)).loadUnits g r fb
      frame.toNat % 4096 = 0 → s.frameLocked g r f frame = false → fit fb = true → near fb = true → older fb = false → ∀ n, spillLen (leNat x0.1) = some n →
      let us := fill (128 * (slot + 1)) n Acc.load false
      fit us = true → near us = true → older us = false →
      ∃ t, exec (.fill f) s = .next t ∧ OnlyLoads s t g { r.next f with wskip := false } ∧ t.greg = s.greg ∧
        VWritten s t r allLanes fun l => [(f.d.toNat, (unspill (leNat x0.1) (x0.2.loadUnits g r us).1).getD l 0)])

/-- Fences, prefetches and cache control (R214 to R216, R231, R232). A release leaves a marker behind older
entries, an acquire beyond the crew empties the core's view; FSC waits, its outbox empty, for the tick; CCTL
waits for its completion. FSC does not issue before its outbox is empty, nor CCTL.ic before it holds no marker
(the model's reading, log 34). None of them changes a register or a byte of memory; a prefetch leaves what its
translations do. -/
def Obligations.FencesAndCacheControl : Prop :=
  ∀ (f : Fields) (s : State) (r : Group),
    let kind := f.fnBits 1 0
    let scope := f.fnBits 4 2
    let marker : Ent := { marker := some (scope = 4) }
    let ob := if kind = 1 ∨ scope = 0 ∨ r.outbox = [] then r.outbox else r.outbox ++ [marker]
    let empties := fun (s : State) (g : Gid) => s.modCore g.core fun c => { c with view := [] }
    let fenced : Group := { r.next f with outbox := ob, wskip := false }
    let sc : Group := { r with wait := .fsc, ins := f, insSh := shapeFsc f, wskip := false }
    let lo := (s.gr r f.a.toNat).toNat
    let len := (s.gr r f.b.toNat).toNat
    (∀ x g, Issues (.fence f) x s g r →
      let s1 := s.countIssue g (s.useful r f)
      exec (.fence f) s = .next
        (State.putGroup (if kind ≠ 2 ∧ 2 ≤ scope then empties s1 g else s1) g fenced)) ∧
    (r.outbox = [] → ∀ x g, Issues (.fsc f) x s g r →
      exec (.fsc f) s = .next ((empties (s.countIssue g (s.useful r f)) g).putGroup g sc)) ∧
    (∀ x g, Issues (.pref f) x s g r → ∃ t, exec (.pref f) s = .next t ∧ t.vreg = s.vreg ∧ t.greg = s.greg ∧
      OnlyLoads s t g { r.next f with wskip := false }) ∧
    (r.outbox ≠ [] → ∀ x g, Issues (.fsc f) x s g r → exec (.fsc f) s = .next s) ∧
    ((r.outbox.all fun e => e.marker.isNone) = true → WaitsIn (.cctlIc f) s r { r with wait := .cctl 0 lo len }) ∧
    ((r.outbox.all fun e => e.marker.isNone) = false → ∀ x g, Issues (.cctlIc f) x s g r →
      exec (.cctlIc f) s = .next s) ∧
    WaitsIn (.cctlView f) s r { r with wait := .cctl 1 0 0 } ∧
    WaitsIn (.cctlWb f) s r { r with wait := .cctl 2 lo len }

/-- The events that end those waits, and the other events of caches and views (R211, R213, R216, R232,
R302): TICK raises the heartbeat and ends FSC; CCTL_COMPLETION empties the view, or drops the blocks of the
range from the instruction caches; EVICT drops a line of one view and BACK_INVALIDATE, of a line that is a
free value, of all. Each group they end goes on; no byte of memory changes.
The free value and the line of 64 bytes are the model's choices (logs 4 and 6). -/
def Obligations.CacheEvents : Prop :=
  ∀ (s : State) (g : Gid) (r : Group),
    let ticked := { s with dev := { s.dev with hb := s.dev.hb + 1 } }
    let quiet := fun (k : Nat) => ∀ h, tfind s.groups k = some h → h.wait ≠ .fsc ∧ h.probes = []
    -- no participant parked at a REPACK has a PROBE pending
    let calm := ∀ k c, tfind s.crews k = some c → ∀ e ∈ c.parts, e.2.probes = []
    ((∀ k, quiet k) → calm → exec .tick s = .next ticked) ∧
    (WaitsAt s g r → g.slot < 32 → r.wait = .fsc → r.probes = [] → (∀ k, k ≠ gidKey g → quiet k) → calm →
      exec .tick s = .next (ticked.putGroup g r.woken)) ∧
    (WaitsAt s g r → ∀ lo len, r.wait = .cctl 1 lo len →
      exec (.cctlCompletion g) s = .next ((s.modCore g.core fun c => { c with view := [] }).putGroup g r.woken)) ∧
    (WaitsAt s g r → ∀ lo len, r.wait = .cctl 2 lo len →
      exec (.cctlCompletion g) s = .next (s.putGroup g r.woken)) ∧
    (WaitsAt s g r → ∀ lo len, 0 < len → r.wait = .cctl 0 lo len → ∃ t, exec (.cctlCompletion g) s = .next t ∧
      t = { s.putGroup g r.woken with cores := t.cores } ∧ ∀ core block, s.owns (s.partOf (s.asidOf g r)) core = true →
        core < 256 → block / 2 ^ 48 = s.asidOf g r → lo < block % 2 ^ 48 + 32 → block % 2 ^ 48 < lo + len →
        tfind (t.core core).icache block = none) ∧
    (∀ core line, ∃ t, exec (.evict core line) s = .next t ∧ t = { s with cores := t.cores } ∧
      ∀ k, tfind (t.core core).view k = if k = line then none else tfind (s.core core).view k) ∧
    (∃ t, exec .backInvalidate s = .next t ∧ t = { s with cores := t.cores, freeCtr := s.freeCtr + 1 } ∧
      ∀ core k, tfind (t.core core).view k =
        if k = (Config.freeValue s.freeCtr).toNat then none else tfind (s.core core).view k)

/-- REMOTE_REPLY (R83, R214, R234): the destinations of the remote access take its values, those of a load from the
control block what its register reads then (R371, by the model's choice of log 16); an acquire empties the view, and
the group goes on. A link whose retries fail stops the group where it is, crew-fatally, and the link's error counter
rises (R370); a failure that no access meets leaves every group, register and byte alone. -/
def Obligations.RemoteAccessEnds : Prop :=
  ∀ (s : State) (g : Gid) (r : Group) (pend : List Pending) (kind width : Nat) (acq : Bool)
      (offers : List (Nat × W64 × Nat)),
    let dst := fun (p : Pending) => match p.reg with
      | none => p.dst
      | some off => pieces r.ins.d.toNat (widen r.ins.ty ((List.range (tyBytes r.ins.ty)).map fun i =>
          (leBytes 8 (s.regRead ((off + i) / 8 * 8)).toNat).getD ((off + i) % 8) 0))
    r.wait = .remote pend kind acq width offers →
    (WaitsAt s g r → (∀ p ∈ pend, p.lane < 32 ∧ ((dst p).map (·.1)).Nodup) →
      (pend.map (·.lane)).Nodup →
      ∃ t, exec (.remoteReply g) s = .next t ∧ t.group? g = some r.woken ∧
        t = { s.putGroup g r.woken with vreg := t.vreg, cores := t.cores } ∧
        (if acq then (t.core g.core).view = [] else t.cores = s.cores) ∧
        VWritten s t r (pend.map (·.lane)) fun l => ((pend.find? fun p => p.lane = l).map dst).getD []) ∧
    (∀ link, s.group? g = some r → r.kind = .own → ∃ t, exec (.linkRetryFailure link (.group g)) s = .next t ∧
      (∀ n, s.dev.granary.linkErrs[link]? = some n → t.dev.granary.linkErrs[link]? = some (n + 1)) ∧
      ∃ r', t.group? g = some r' ∧ r'.halt.cause = 7 ∧ r'.pc = r.pc ∧ t.mem = s.mem ∧ t.vreg = s.vreg) ∧
    (∀ link, ∃ t, exec (.linkRetryFailure link .other) s = .next t ∧
      t = { s with dev := t.dev, freeCtr := t.freeCtr } ∧
      ∀ n, s.dev.granary.linkErrs[link]? = some n → t.dev.granary.linkErrs[link]? = some (n + 1))

/-- The operations of an atomic (R234): the new value from the old value and the operands, in 32 and in 64 bits, and the
flags, which only `.add.f32` raises: its sum is rounded to nearest, ties to even. -/
def Claims.AtomicOperations : Prop :=
  (∀ (old x c : W32) (signed : Bool),
    let new := fun (opc : Nat) => atomNew opc 32 signed (old.setWidth 64) (x.setWidth 64) (c.setWidth 64)
    let less := fun (a b : W32) => if signed then a.slt b else a.ult b
    let is := fun (opc : Nat) (y : W32) => new opc = (y.setWidth 64, 0)
    is 0 (old + x) ∧ is 1 (if less x old then x else old) ∧ is 2 (if less old x then x else old) ∧
    is 3 (old &&& x) ∧ is 4 (old ||| x) ∧ is 5 (old ^^^ x) ∧ is 6 x ∧ is 7 (if old = c then x else old) ∧
    let exact := Machine.Num.add 0 (fmtF32.read old.toNat) (fmtF32.read x.toNat)
    let sum := fmtF32.round 0 false exact.1
    new 8 = ((BitVec.ofNat 32 sum.1).setWidth 64, exact.2 ||| sum.2)) ∧
  ∀ (old x c : W64) (signed : Bool),
    let less := fun (a b : W64) => if signed then a.slt b else a.ult b
    let is := fun (opc : Nat) (y : W64) => atomNew opc 64 signed old x c = (y, 0)
    is 0 (old + x) ∧ is 1 (if less x old then x else old) ∧ is 2 (if less old x then x else old) ∧
    is 3 (old &&& x) ∧ is 4 (old ||| x) ∧ is 5 (old ^^^ x) ∧ is 6 x ∧ is 7 (if old = c then x else old)

/-- A step of ATOM or ATOMS, the first as well as a later one (R213, R233, R234): it reads the unit of the lowest lane
left, writes the new value there and no other byte, and gives that lane's D the old value and its %fpx the flags; the
instruction is over after its last lane, when an acquire empties the view, and waits for the next lane's step before. -/
def Claims.AtomicLanes : Prop :=
  ∀ (f : Fields) (s : State) (g : Gid) (r : Group) (l : Nat) (rest : List Nat) (place : Nat × Nat),
    let w := Fields.atomW f
    let n := w / 8
    let ord := f.fnBits 8 6
    let releases := ord ∈ [2, 3, 5, 6]
    let new := fun (old : W64) =>
      atomNew (f.fnBits 3 0) w (f.fnBits 4 4 == 0) old (s.srcW r w false f.kb f.b l) (s.srcW r w false f.kc f.c l)
    let dst := fun (old : W64) => (f.d.toNat, old.setWidth 32) ::
      (if w = 32 then [] else [(f.d.toNat + 1, old.extractLsb' 32 32)])
    let steps := fun (i : Instr) (scratch : Bool) (before : List Nat) =>
      let old : W64 := BitVec.ofNat 64 (if scratch then leNat (s.sbytes place.1 place.2 n) else s.word place.2 n)
      ∃ t, exec i s = .next t ∧ VWritten s t r [l] (fun _ => dst old) ∧ t.preg = s.preg ∧ t.greg = s.greg ∧
        t.hostMem = s.hostMem ∧ (r.home l ≠ 0 → t.fpxOf r l = s.fpxOf r l ||| BitVec.ofNat 32 (new old).2) ∧
        (if scratch then t.mem = s.mem ∧ t.sbytes place.1 place.2 n = leBytes n (new old).1.toNat ∧
            ∀ k, (∀ j < n, k ≠ scrKey place.1 (place.2 + j)) → tget 0 t.scratch k = tget 0 s.scratch k
          else t.scratch = s.scratch ∧ t.bytes place.2 n = leBytes n (new old).1.toNat ∧
            ∀ a, (∀ j < n, a ≠ place.2 + j) → t.byte a = s.byte a) ∧
        ∃ r', t.group? g = some r' ∧
          if rest = [] then r'.wait = .none ∧ r'.pc = nextPc r.pc f.len ∧
            (ord ∈ (if scratch then [4, 6] else [1, 3, 4, 6]) → (t.core g.core).view = [])
          else r'.pc = r.pc ∧ ∃ todo did, r'.wait = .atom todo did ∧ todo.map (·.1) = rest ∧ did.map (·.1) = before ++ [l]
    let first := fun (i : Instr) (scratch : Bool) (addr : Nat → W64) (chk : Nat → LChk) => ∀ x, Issues i x s g r →
      s.contrib r f = l :: rest → s.untraced g r → r.inHandler = false →
      (∀ l ∈ s.contrib r f, s.storeBlocked n (chk l) = false ∧ LaneClear s g r n (chk l) (addr l) ∧
        ∀ pa, chk l = .ok pa → ∀ i < n, plainKey (pa + i) = true) →
      (match chk l with | .scr uid off _ _ => (uid, off) | .ok pa => (0, pa) | _ => (0, 0)) = place →
      (match chk l with | .scr uid _ _ _ => uid ≠ 0 | .ok _ => True | _ => False) →
      (r.atomReady (Fields.atomRel f) n place = true → steps i scratch []) ∧
      (releases → r.outbox ≠ [] → exec i s = .next s)
    -- a later lane, at the place that the checks found; no lane's step before was at a peer
    let later := fun (i : Instr) (scratch : Bool) => ∀ x todo did, Continues i x s g r → r.inHandler = false →
      r.wait = .atom ((l, place) :: todo) did → todo.map (·.1) = rest → did ≠ [] → (∀ d ∈ did, d.2.2.2 = false) →
      (if scratch then place.1 ≠ 0 else place.1 = 0 ∧ place.2 ≠ atomAnew ∧ isAway place.2 = false ∧ (r.linkBad && overLink place.2) = false ∧
        ∀ i < n, plainKey (place.2 + i) = true) →
      r.atomReady (Fields.atomRel f) n place = true → steps i scratch (did.map (·.1))
    first (.atom f) false (s.addrPlain r f true)
      (fun l => s.chkGlobal g.core (s.asidOf g r) (s.addrPlain r f true l) n n Acc.atomic true) ∧
    first (.atoms f) true (s.addrPlain r f false)
      (fun l => s.chkScratch g r (s.addrPlain r f false l) n n Acc.atomic false) ∧
    later (.atom f) false ∧ later (.atoms f) true

/-- ATOM and ATOMS (R213, R233, R234): the value each operation makes, and the step of each lane in turn. The unit is on
this device, in a page that is not compressible; a replayed page fault between two lanes' steps is not spoken of (log
88). -/
def Obligations.AtomicStep : Prop := Claims.AtomicOperations ∧ Claims.AtomicLanes

/-- Translation keeps the offset in the page (R293, R294): a byte of a page that is not compressible stands
in its frame at the offset its virtual address has. -/
def Obligations.TranslationKeepsOffset : Prop :=
  ∀ (s : State) (core asid va acc : Nat) (write x : Bool) (pa : Nat) (e : W64),
    s.translate core asid va acc write x = .ok pa e → bitOf e 7 = false →
    pa % 4096 = va % 4096 ∧ s.asidLive asid = true ∧ va < 2 ^ 48 ∧ (write = true → bitOf e 2 = true) ∧
      (x = true → bitOf e 3 = true ∧ bitOf e 4 = true)

/-! ### Barriers, stages, regrouping -/

/-- The barrier instructions of a crew (R220, R241, R243), where the arrival does not complete the phase:
BINIT sets the register up, BEXP adds pending bytes, BARV and BARW arrive (BARV.q keeps the parity in Qd, BARW
waits on it), BWAIT waits or goes on by the parity, BTEST reads. A register that BINIT has not set up is
BARX for each of the others; so is an arrival where ARR is EXP, and a BINIT of one in use. -/
def Claims.BarrierInstructions : Prop :=
  ∀ (f : Fields) (s : State) (g : Gid) (r : Group) (c : Crew), s.crew? g.core r.crew = some c →
    let n := f.a.toNat
    let b := c.bars.getD n {}
    let set := fun (b' : Bar) => (s.retired g r f (r.next f)).putCrew g.core r.crew { c with bars := c.bars.set n b' }
    let bytes : W32 := if f.fnIs 0 then f.i32 else (s.gr r f.b.toNat).setWidth 32
    let arrived := { b with arr := b.arr + 1, amask := setBit b.amask r.grp true }
    let par := r.q.getLsbD f.b.toNat
    let own := f.fnBits 0 0 = 0
    let q := if f.fnBits 1 1 = 1 then { r.next f with q := setBit r.q f.d.toNat b.phase } else r.next f
    let waits := { r with wait := .bar c.uid n b.phase false, ins := f, insSh := shapeBarw f }
    (∀ x, Issues (.binit f) x s g r → (b.init = false ∨ s.barBusy g.core r.crew c n = false) →
      exec (.binit f) s = .next (set { exp := f.imm.toNat, init := true, shf := f.fnIs 1 })) ∧
    (∀ x, Issues (.bexp f) x s g r → b.init = true → (b.arr ≠ b.exp ∨ b.pend + bytes ≠ 0) →
      exec (.bexp f) s = .next (set { b with pend := b.pend + bytes })) ∧
    (∀ x, Issues (.barv f) x s g r → own → r.outbox = [] → b.init = true → b.arr ≠ b.exp →
      (b.arr + 1 ≠ b.exp ∨ b.pend ≠ 0) →
      exec (.barv f) s = .next ((s.retired g r f q).putCrew g.core r.crew { c with bars := c.bars.set n arrived })) ∧
    (∀ x, Issues (.barw f) x s g r → own → r.outbox = [] → b.init = true → b.arr ≠ b.exp →
      (b.arr + 1 ≠ b.exp ∨ b.pend ≠ 0) →
      exec (.barw f) s = .next
        ((s.retired g r f waits).putCrew g.core r.crew { c with bars := c.bars.set n arrived })) ∧
    (∀ x, Issues (.bwait f) x s g r → b.init = true → exec (.bwait f) s = .next (s.retired g r f
      (if b.phase ≠ par then r.next f
       else { r with wait := .bar c.uid n par false, ins := f, insSh := shapeBwait f }))) ∧
    (∀ x, Issues (.btest f) x s g r → b.init = true → Completes (.btest f) x s g r
      { after := r.next f, g := [(f.d.toNat, if f.fnIs 0 then BitVec.ofNat 64 (b.exp + b.arr * 2 ^ 12 +
        b.shf.toNat * 2 ^ 29 + b.init.toNat * 2 ^ 30 + b.phase.toNat * 2 ^ 31 + b.pend.toNat * 2 ^ 32)
        else b.amask.setWidth 64)] }) ∧
    (let barx := fun (i : Instr) => ∀ x, Issues i x s g r →
      exec i s = .next ((s.countIssue g (s.useful r f)).crewFatal g r { code := Code.barx })
     (b.init = false → barx (.bwait f) ∧ barx (.btest f) ∧ barx (.bexp f)) ∧
     (own → b.init = false ∨ b.arr = b.exp ∧ b.pend ≠ 0 → barx (.barv f) ∧ barx (.barw f)) ∧
     (b.init = true → s.barBusy g.core r.crew c n = true → barx (.binit f)))

/-- Completion of a phase (R220, R241): the arrival that brings ARR to EXP with no bytes pending flips PHASE,
clears ARR and the mask of arrivals, and every group that waited on the old parity goes on in the same step.
No group of the crew regroups there. -/
def Claims.BarrierCompletion : Prop :=
  ∀ (f : Fields) (s : State) (g : Gid) (r : Group) (c : Crew) x, Issues (.barw f) x s g r →
    s.crew? g.core r.crew = some c → c.bars.length = 16 → f.fnBits 0 0 = 0 → r.outbox = [] → r.halt.cause ≠ 7 →
    g.slot < 32 → c.parts = [] → s.repackers g.core r.crew f.a.toNat = [] → s.packedGroups g.core r.crew f.a.toNat = [] →
    let n := f.a.toNat
    let b := c.bar n
    b.init = true → b.arr + 1 = b.exp → b.pend = 0 → (∀ core, s.unwatched core) →
    ∃ t c', exec (.barw f) s = .next t ∧ t.crew? g.core r.crew = some c' ∧
      c'.bar n = { b with phase := !b.phase, arr := 0, amask := 0 } ∧
      (∃ r', t.group? g = some r' ∧ r'.wait = .none ∧ r'.pc = nextPc r.pc f.len) ∧
      (∀ h rh, h ≠ g → h.slot < 32 → s.group? h = some rh → rh.halt.cause ≠ 7 →
        (∃ st, rh.wait = .bar c.uid n b.phase st) → t.group? h = some rh.woken) ∧
      t.mem = s.mem ∧ t.vreg = s.vreg ∧ t.greg = s.greg

/-- Barriers (R220, R241 to R243): what each barrier instruction does to its register; the last arrival flips the
phase and the groups that wait for it go on; a register not set up is BARX for every one of them but BINIT. -/
def Obligations.Barriers : Prop :=
  Claims.BarrierInstructions ∧ Claims.BarrierCompletion

/-- Stages (R244 to R246): SQCFG sets up a full and an empty barrier for each stage; SQWAIT goes on when the
stage's barrier has completed the round its number asks for, and waits before; SQREL arrives at it. -/
def Obligations.StageInstructions : Prop :=
  ∀ (f : Fields) (s : State) (g : Gid) (r : Group) (c : Crew), s.crew? g.core r.crew = some c →
    let x := s.gr r f.a.toNat
    let empty := f.fnIs 1
    let n := c.sqsBase + x.toNat % c.sqsDepth + if empty then c.sqsDepth else 0
    let b := c.bars.getD n {}
    let round := x.toNat / c.sqsDepth
    let par := (if empty then round - 1 else round) % 2 == 1
    let arrived := { b with arr := b.arr + 1, amask := setBit b.amask r.grp true }
    let base := f.a.toNat
    let d := f.immBits 3 0
    (∀ y, Issues (.sqcfg f) y s g r → c.bars.length = 16 →
      (∀ m, (c.sqsBase ≤ m ∧ m < c.sqsBase + 2 * c.sqsDepth) ∨ (base ≤ m ∧ m < base + 2 * d) →
        s.barBusy g.core r.crew c m = false) →
      ∃ c', exec (.sqcfg f) s = .next ((s.retired g r f (r.next f)).putCrew g.core r.crew c') ∧
        c' = { c with sqsBase := base, sqsDepth := d, bars := c'.bars } ∧
        (∀ i, i < 2 * d → base + i < 16 → c'.bar (base + i) =
          { exp := if i < d then f.immBits 15 4 else f.immBits 27 16, init := true }) ∧
        ∀ m, m < base ∨ base + 2 * d ≤ m → c'.bar m = c.bar m) ∧
    (∀ y, Issues (.sqwait f) y s g r → c.sqsDepth ≠ 0 → (empty = true ∧ round = 0 ∨ b.init = true) →
      exec (.sqwait f) s = .next (s.retired g r f
        (if empty = true ∧ round = 0 ∨ b.phase ≠ par then r.next f
         else { r with wait := .bar c.uid n par true, ins := f, insSh := shapeSqwait f }))) ∧
    (∀ y, Issues (.sqrel f) y s g r → c.sqsDepth ≠ 0 → r.outbox = [] → b.init = true → b.arr ≠ b.exp →
      (b.arr + 1 ≠ b.exp ∨ b.pend ≠ 0) →
      exec (.sqrel f) s = .next
        ((s.retired g r f (r.next f)).putCrew g.core r.crew { c with bars := c.bars.set n arrived }))

/-- REPACK and UNPACK (R104 to R107): a group arrives and waits; the arrival at UNPACK that completes the phase
brings the participant back, past the UNPACK, without the threads that ended. REPACK in a new group is REPACKX.
-/
def Obligations.RepackAndUnpack : Prop :=
  ∀ (f : Fields) (s : State) (g : Gid) (r : Group) (c : Crew), s.crew? g.core r.crew = some c →
    let arrived := fun (n : Nat) =>
      let b := c.bars.getD n {}
      { c with bars := c.bars.set n { b with arr := b.arr + 1, amask := setBit b.amask r.grp true } }
    let going := fun (n : Nat) =>
      let b := c.bars.getD n {}
      r.outbox = [] ∧ b.init = true ∧ b.arr ≠ b.exp ∧ (b.arr + 1 ≠ b.exp ∨ b.pend ≠ 0)
    let bn := f.b.toNat
    let an := f.a.toNat
    let vt := an + if f.ka then 256 else 0
    let atRepack := { r with wait := .repack bn vt, ins := f, insSh := shapeRepack f }
    let atUnpack := { r with wait := .unpack an, ins := f, insSh := shapeUnpack f }
    (∀ x, Issues (.repack f) x s g r → r.isPacked = false → going bn →
      exec (.repack f) s = .next ((s.retired g r f atRepack).putCrew g.core r.crew (arrived bn))) ∧
    (∀ x, Issues (.unpack f) x s g r → r.kind = .packed an r.depth → going an →
      exec (.unpack f) s = .next ((s.retired g r f atUnpack).putCrew g.core r.crew (arrived an))) ∧
    (r.isPacked = true → ∀ x, Issues (.repack f) x s g r → (c.bar bn).complete = false →
      exec (.repack f) s = .next (((s.countIssue g (s.useful r f)).crewFatal g r { code := Code.repackx }))) ∧
    (∀ x, Issues (.unpack f) x s g r → r.kind = .packed an r.depth → r.outbox = [] → g.hnd = false → g.slot < 32 →
      c.bars.length = 16 → (c.bar an).init = true → (c.bar an).arr + 1 = (c.bar an).exp → (c.bar an).pend = 0 →
      s.barWaiters c.uid an (c.bar an).phase = [] → s.repackers g.core r.crew an = [] →
      s.packedGroups g.core r.crew an = [(g, r)] → ∀ o, c.parts = [(g.slot, o)] →
      let back := allLanes.foldl (fun (q : Group) l =>
        if (r.homes.getD l (0, 0)).1 = o.home l ∧ o.home l ≠ 0 ∧ r.live.getLsbD l = false then q.clearLane l else q) o
      back.live ≠ 0 → r.live ≠ 0 → (∃ v, o.wait = .repack an v) →
      ∃ t, exec (.unpack f) s = .next t ∧ t.group? g = some { back with wait := .none, pc := nextPc r.pc f.len })

/-- Regrouping loses no thread and doubles none (R105): each thread of the participants stands in exactly one
place of the new groups, in a group of its own key and in its own lane, and no lane of a new group holds
two. -/
def Obligations.RegroupingKeepsThreads : Prop :=
  ∀ ts : List RThread, ts.Nodup → (∀ t ∈ ts, t.lane < 32) →
    (∀ t ∈ ts, ((newGroups ts).map fun x => x.2.count t).sum = 1) ∧
    ∀ x ∈ newGroups ts, (x.2.map (·.lane)).Nodup ∧ ∀ t ∈ x.2, t ∈ ts ∧ t.sameKey x.1 = true

/-! ### Copies -/

/-- CPYO, CPYB and CPYT (R217, R236 to R239): once the checks of every contributing lane pass, the group
waits with the operands captured, and COPY_ISSUE issues them lane by lane; the group goes on after the last.
Without a contributing lane there is nothing to copy. CPYT reads its layout record when it issues, one unit a step in an
order left open (R209, R239), whatever range is locked (the model's choice, log 130); with the last unit the copies are
checked. -/
def Claims.CopiesIssue : Prop :=
  (∀ (f : Fields) (s : State) (g : Gid) (r : Group),
    let ls := s.contrib r f
    let a := fun l => s.src64 r false f.ka f.a l
    let b := fun l => s.src64 r false f.kb f.b l
    let d := s.gr r f.d.toNat
    let issues := fun (i : Instr) (sh : Shape) (kind : Nat) (ops : Nat → List W64) => ∀ x, Issues i x s g r →
      (∀ l ∈ ls, s.copyCheck g r f kind (ops l) = none) →
      let waiting := { r with wait := .copy (ls.map fun l => (l, ops l)), ins := f, insSh := sh }
      exec i s = .next (s.retired g r f (if ls = [] then r.next f else waiting))
    issues (.cpyo f) (shapeCpyo f) 0 (fun l => [a l, b l]) ∧
    issues (.cpyb f) (shapeCpyb f) 2 (fun l => [d, a l, b l, s.src64 r false f.kc f.c l]) ∧
    (∀ x, Issues (.cpyt f) x s g r → ls = [] → exec (.cpyt f) s = .next (s.retired g r f (r.next f))) ∧
    (∀ x pa got, (Issues (.cpyt f) x s g r ∧ got = [] ∨ Continues (.cpyt f) x s g r ∧ r.wait = .units got) → got.length < 4 →
      ls ≠ [] → s.copyCheck2 g r f = none → goodAddr (s.gr r f.b.toNat) 64 = true →
      (∀ l ∈ ls, (a l).toNat < (s.crewOf g r).hold.sg * 16384 ∧ (a l).toNat % 16 = 0) →
      s.homeOf g.core (s.asidOf g r) (s.gr r f.b.toNat).toNat 64 Acc.load false = .ok pa →
      (r.linkBad && overLink pa) = false →
      (r.outbox.any fun e => e.overlaps (if isPeer pa then .peer else .global) pa 64) = false →
      let bytes := fun (all : Tab (List Byte)) => (List.range 4).flatMap fun i => (tfind all i).getD []
      let rec_ := fun all => (List.range 8).map fun i => BitVec.ofNat 64 (leNat (((bytes all).drop (8 * i)).take 8))
      let ops := fun all l => a l :: rec_ all ++ [s.gr r f.c.toNat, s.gr r (f.c.toNat + 1)]
      ∃ i, i < 4 ∧ tfind got i = none ∧
        let all := tput got i (s.bytes (pa + 16 * i) 16)
        let goes := fun (w : Wait) => ∃ t, exec (.cpyt f) s = .next t ∧
          t.group? g = some { r with wait := w, ins := f, insSh := shapeCpyt f, wskip := false } ∧ t.vreg = s.vreg ∧
          t.preg = s.preg ∧ t.greg = s.greg ∧ t.mem = s.mem ∧ t.scratch = s.scratch ∧ t.copies = s.copies
        (got.length < 3 → goes (.units all)) ∧
        (got.length = 3 → (∀ l ∈ ls, s.copyCheck g r f 1 (ops all l) = none) → goes (.copy (ls.map fun l => (l, ops all l)))))) ∧
  ∀ (s : State) (g : Gid) (r : Group) (l : Nat) (ops : List W64) (rest : List (Nat × List W64)) (ch : Nat),
    WaitsAt s g r → r.wait = .copy ((l, ops) :: rest) →
    s.copyChannel g r (copyRanges (kindOf ops) r.ins ops) = some ch → (∀ y ∈ rest, y.1 ≠ l) →
    ∃ t c, exec (.copyIssue g) s = .next t ∧ t = { s with nextId := s.nextId + 1, groups := t.groups, copies := tput s.copies s.nextId c } ∧
      c.ops = ops ∧ c.fields = r.ins ∧ c.kind = kindOf ops ∧ c.chan = ch ∧ c.did = [] ∧ c.core = g.core ∧ c.pc = r.pc ∧
      t.group? g = some (if rest = [] then r.woken else { r with wait := .copy rest })

/-- The bytes of a beat, source and destination, by the copy's kind (R237 to R240): of CPYO 16 bytes at the same offset
in both ranges; of CPYB a scale group and its scale; of CPYT 16 bytes of the box in scratch, each with the element of the
tensor that R239's formula gives, or a byte of the fill pattern where that is out of bounds. -/
def Claims.BeatBytes : Prop :=
  (∀ (f : Fields) (A B : W64) (k i : Nat), i < 16 →
    (copyBeat 0 f [A, B] k)[i]? = some (.inl (B.toNat + 16 * k + i), A.toNat + 16 * k + i)) ∧
  (∀ (f : Fields) (D A B C : W64) (k : Nat),
    let b := copyBeat 2 f [D, A, B, C] k
    b.length = f.gb + 1 ∧ b[f.gb]? = some (.inl (C.toNat + k), A.toNat + k) ∧
      ∀ i < f.gb, b[i]? = some (.inl (B.toNat + k * f.gb + i), D.toNat + k * f.gb + i)) ∧
  (∀ (b : Box) (x0 x1 x2 x3 e : Nat), b.box.length = 4 → x0 < b.box.getD 0 1 → x1 < b.box.getD 1 1 → x2 < b.box.getD 2 1 →
    e < b.es →
    let x := [x0, x1, x2, x3]
    let at_ := fun k => b.coord k + ((x.getD k 0 : Nat) : Int)
    b.at (((x3 * b.box.getD 2 1 + x2) * b.box.getD 1 1 + x1) * b.row + x0 * b.es + e) =
      ((b.base : Int) + at_ 0 * b.es + at_ 1 * b.strs.getD 1 0 + at_ 2 * b.strs.getD 2 0 + at_ 3 * b.strs.getD 3 0 + (e : Nat),
       (List.range b.rank).all fun k => decide (0 ≤ at_ k) && decide (at_ k < b.dims.getD k 0))) ∧
  ∀ (f : Fields) (ops : List W64) (k i : Nat), i < 16 →
    let b := boxOf ops
    let s := (ops.getD 0 0).toNat + 16 * k + i
    let x := b.at (16 * k + i)
    0 ≤ x.1 →
    (f.fnBits 0 0 = 1 → (copyBeat 1 f ops k)[i]? =
      some (if x.2 then .inl x.1.toNat else .inr (BitVec.ofNat 8 ((b.fill.getD 0).toNat / 2 ^ (8 * (s % 4)))), s)) ∧
    (f.fnBits 0 0 = 0 → ((.inl s, x.1.toNat) ∈ copyBeat 1 f ops k ↔ x.2 = true))

/-- A beat of a copy of any kind and direction moves its bytes, each to its own place, and no other byte changes (R217,
R219, R237 to R240), where they read and translate and no store issued before the copy is still on its way to the bytes
of global memory that it touches (R252). -/
def Claims.BeatMoves : Prop :=
  ∀ (s : State) (id k : Nat) (c : Copy) (crew : Crew), tfind s.copies id = some c → c.arrived = false → c.stall = none →
    k < c.n → k ∉ c.did → s.crewByUid c.core c.crew c.uid = some crew →
    let b := copyBeat c.kind c.fields c.ops k
    let d := copyDir c.kind c.fields
    let hold := crew.hold.sg * 16384
    let src := b.filterMap fun x => match x.1 with | .inl a => some a | _ => none
    let dst := b.map (·.2)
    s.beatAhead c ((if d.1 then [] else src) ++ (if d.2 then [] else dst)) = false →
    ∀ (val : Nat → Byte) (pl : Nat → Nat),
      (∀ j, j < b.length → match (b.getD j (.inr 0, 0)).1 with
        | .inl a => s.copyRead c.core c.uid hold c.asid d.1 a Acc.cpyRead = .ok (val j)
        | .inr v => v = val j) →
      s.copyPlaces c.core c.uid hold c.asid d.2 Acc.cpyWrite dst = .ok ((List.range b.length).map pl) →
      (∀ i j, i < b.length → j < b.length → pl i = pl j → i = j) →
      (d.2 = true → ∃ t, exec (.beat id k) s = .next t ∧ t.mem = s.mem ∧
        (∀ j, j < b.length → tget 0 t.scratch (pl j) = val j) ∧
        (∀ a, (∀ j, j < b.length → a ≠ pl j) → tget 0 t.scratch a = tget 0 s.scratch a) ∧
        ∃ c', tfind t.copies id = some c' ∧ c'.did = insertNat k c.did) ∧
      (d.2 = false → (∀ j, j < b.length → plainKey (pl j) = true) → ∃ t, exec (.beat id k) s = .next t ∧
        t.scratch = s.scratch ∧ (∀ j, j < b.length → t.byte (pl j) = val j) ∧
        (∀ a, (∀ j, j < b.length → a ≠ pl j) → t.byte a = s.byte a) ∧
        ∃ c', tfind t.copies id = some c' ∧ c'.did = insertNat k c.did)

/-- Beats of copies (R217, R219, R237 to R240): which bytes a beat of CPYO, CPYT or CPYB covers, in every direction, and
that it moves these and no other. The strides of CPYT's record are two's complement and an address does not wrap (log
114). -/
def Obligations.CopyBeatMovesBytes : Prop := Claims.BeatBytes ∧ Claims.BeatMoves

/-- COPY_COMPLETION (R217, R243): once every beat is made, a copy that names a barrier arrives there with its
bytes, and the copy is gone; nothing else changes. -/
def Claims.CopyCompletes : Prop :=
  ∀ (s : State) (id : Nat) (c : Copy), tfind s.copies id = some c → c.stall = none → c.did.length = c.n →
    c.arrived = false → c.fut = none →
    let done := { c with arrived := true, ranges := [] }
    let gone := { s with copies := tdel (tput s.copies id done) id }
    (c.bar = none → exec (.copyCompletion id) s = .next gone) ∧
    (∀ n k, c.bar = some n → s.crew? c.core c.crew = some k →
      let b := k.bars.getD n {}
      let b' := { b with arr := b.arr + 1, pend := b.pend - BitVec.ofNat 32 c.bytes }
      b.init = true → b.arr ≠ b.exp → b'.complete = false →
      exec (.copyCompletion id) s = .next (gone.putCrew c.core c.crew { k with bars := k.bars.set n b' }))

/-- COPY_COMPLETION of a copy that names a future, or whose arrival completes its barrier's phase (R217, R241,
R250): the future resolves to the bytes copied, and the phase ends. -/
def Claims.CopyResolves : Prop :=
  ∀ (s : State) (id : Nat) (c : Copy), tfind s.copies id = some c → c.stall = none → c.did.length = c.n →
    let done := { s with copies := tput s.copies id { c with arrived := true, ranges := [] } }
    let arrived := fun (u : State) => if c.arrived = true then u = s
      else match c.bar with
        | none => u = done
        | some n => ∃ k, s.crew? c.core c.crew = some k ∧ (k.bar n).init = true ∧ (k.bar n).arr ≠ (k.bar n).exp ∧
          u = (done.putCrew c.core c.crew { k with bars := k.bars.set n { k.bar n with
            arr := (k.bar n).arr + 1, pend := (k.bar n).pend - BitVec.ofNat 32 c.bytes } }).barSettle c.core c.crew n
    ∀ u, arrived u →
      (c.fut = none → exec (.copyCompletion id) s = .next { u with copies := tdel u.copies id }) ∧
      (∀ a v, c.fut = some a → u.workResolve (.copy id) c.asid a 2 c.bytes c.pc = .ok v →
        exec (.copyCompletion id) s = .next { v with copies := tdel v.copies id })

/-- Copies (R217, R236 to R240, R243): once every lane's checks pass the group waits with the operands captured,
COPY_ISSUE issues them lane by lane, and COPY_COMPLETION arrives at the barrier with the copy's bytes and takes
the copy away.
Which channel a copy takes, and that it waits for an entry of the range scoreboard, are the model's choices (logs 43
and 91). -/
def Obligations.AsynchronousCopies : Prop :=
  Claims.CopiesIssue ∧ Claims.CopyCompletes ∧ Claims.CopyResolves

/-! ### Futures, device queues -/

/-- What registering and resolving do to a future's unit at `pa` (R247 to R250): a pending future takes the
join record; a second registration on a pending future is REGCONF; a resolved or poisoned one counts the join
down at once. Resolving or poisoning a pending or registered future writes the state and the value; a second
resolution is DBLRES; a registered one first counts its join record down. A join record counts down by one; the count
that reaches 0 makes a push. -/
def Claims.FutureUnits : Prop :=
  ∀ (s : State) (me : Party) (core asid va pa : Nat), s.homeOf core asid va 16 Acc.future true = .ok pa →
    (∀ i < 16, plainKey (pa + i) = true) →
    let w := s.word pa 8
    let st := w / 2 ^ 62
    (∀ ja, (st = 0 → ∃ t, s.futReg me [] core asid va ja = .ok t ∧ t.word pa 8 = 2 ^ 62 + ja / 16 % 2 ^ 48 ∧
        t.word (pa + 8) 4 = s.word (pa + 8) 4 ∧ ∀ a, a < pa ∨ pa + 16 ≤ a → t.byte a = s.byte a) ∧
      (st = 1 → s.futReg me [] core asid va ja = .regconf) ∧
      (2 ≤ st → ∀ t, s.joinDec me [] core asid ja (st == 3) = .ok t → s.futReg me [] core asid va ja = .ok t)) ∧
    (∀ k v, k < 4 → v < 2 ^ 32 →
      (st = 0 → ∃ t, s.futRes me [] core asid va k v = .ok t ∧ t.word pa 8 = k * 2 ^ 62 + w % 2 ^ 48 ∧
        t.word (pa + 8) 4 = v ∧ ∀ a, a < pa ∨ pa + 16 ≤ a → t.byte a = s.byte a) ∧
      (st = 1 → ∀ u, s.joinDec me [] core asid (w % 2 ^ 48 * 16) (k == 3) = .ok u →
        ∃ t, s.futRes me [] core asid va k v = .ok t ∧ t.word pa 8 = k * 2 ^ 62 + w % 2 ^ 48 ∧
          t.word (pa + 8) 4 = v ∧ t.pushes = u.pushes ∧ ∀ a, a < pa ∨ pa + 16 ≤ a → t.byte a = u.byte a) ∧
      (2 ≤ st → s.futRes me [] core asid va k v = .dblres)) ∧
    ∀ ja pj poison, s.homeOf core asid ja 16 Acc.future true = .ok pj → (∀ i < 16, plainKey (pj + i) = true) →
      let n := s.word pj 4
      ∃ t, s.joinDec me [] core asid ja poison = .ok t ∧ t.word pj 4 = n - 1 ∧
        t.word (pj + 4) 4 = (if poison then s.word (pj + 4) 4 ||| 1 else s.word (pj + 4) 4) ∧
        (∀ a, a < pj ∨ pj + 8 ≤ a → t.byte a = s.byte a) ∧
        (n ≠ 1 → t.pushes = s.pushes) ∧
        (n = 1 → t.pushes = tput s.pushes s.nextId { task := s.word (pj + 8) 8, asid := asid })

/-- FREG, FRES, FPOIS and FREG.wait (R221, R249, R250): one step for each contributing lane in order, the rest waiting
their turn, under the translations that the checks made (R296); FREG.wait returns the values once every lane's future
is resolved, and waits before; FUTURE_WAIT_RETURN ends that wait. A second resolution traps its lane with DBLRES. -/
def Claims.FutureInstructions : Prop :=
  (∀ (f : Fields) (s : State) (g : Gid) (r : Group) (l : Nat) (rest : List Nat),
    let asid := s.asidOf g r
    let a := fun l => s.src64 r false f.ka f.a l
    let j := s.gr r f.b.toNat
    let me := Party.group r.uid
    let v := fun l => if f.w96 then f.i32 else s.src32 r false f.kb f.b l
    let after := fun (sh : Shape) (ps : Pages) (ts : List TrapLane) =>
      if rest = [] then { r.next f with wait := .none, wskip := false, traps := r.traps ++ ts }
      else { r with wait := .futs rest ps, ins := f, insSh := sh, wskip := false, traps := r.traps ++ ts }
    -- what lane `l`'s step in `s1` leads to
    let registers := fun (s1 : State) (ps : Pages) => ∀ t, s1.futReg me ps g.core asid (a l).toNat j.toNat = .ok t →
      t.groups = s.groups → exec (.freg f) s = .next (t.putGroup g (after (shapeFreg f) ps []))
    let resolves := fun (i : Instr) (st : Nat) (s1 : State) (ps : Pages) =>
      (∀ t, s1.futRes me ps g.core asid (a l).toNat st (v l).toNat = .ok t → t.groups = s.groups →
        exec i s = .next (t.putGroup g (after (shapeFres f) ps []))) ∧
      (r.inHandler = false → s1.futRes me ps g.core asid (a l).toNat st (v l).toNat = .dblres →
        exec i s = .next (s1.putGroup g
          (after (shapeFres f) ps [s.trapFrame r f (shapeFres f) l Code.dblres (a l) (v l)])))
    -- the first lane's step, once the checks of all have passed
    let first := fun (i : Instr) (join : Option W64) (vas : Nat → List Nat) (go : State → Pages → Prop) =>
      s.contrib r f = l :: rest → ∀ x, Issues i x s g r → r.outbox = [] →
      (∀ l ∈ s.contrib r f, s.futCheck r g.core asid (a l) join true = none) →
      let ps := s.futPages g.core asid ((s.contrib r f).flatMap vas)
      go ((s.countIssue g (s.useful r f)).futTranslated g.core asid ps) ps
    -- a later lane's
    let later := fun (i : Instr) (vas : Nat → List Nat) (go : State → Pages → Prop) => ∀ ps, ps ≠ [] →
      r.wait = .futs (l :: rest) ps → (∀ v ∈ vas l, s.futLinked r g.core asid (BitVec.ofNat 64 v) = none) →
      ∀ x, Continues i x s g r → r.outbox = [] → go s ps
    let both := fun l => [(a l).toNat, j.toNat]
    let named := fun l => (a l).toNat :: (s.futJoin g.core asid (a l)).toList.map (·.toNat)
    first (.freg f) (some j) both registers ∧ later (.freg f) both registers ∧
    first (.fres f) none named (resolves (.fres f) 2) ∧ later (.fres f) named (resolves (.fres f) 2) ∧
    first (.fpois f) none named (resolves (.fpois f) 3) ∧ later (.fpois f) named (resolves (.fpois f) 3)) ∧
  (∀ (f : Fields) (s : State) (g : Gid) (r : Group),
    let a := fun l => s.src64 r false f.ka f.a l
    let s1 := (s.countIssue g (s.useful r f)).translatedAll g.core (s.asidOf g r) ((s.contrib r f).map fun l => (a l).toNat)
    ∀ x, Issues (.fregWait f) x s g r →
      (∀ l ∈ s.contrib r f, s.futCheck r g.core (s.asidOf g r) (a l) none false = none) →
      (∀ t, s1.futReturn g r f (s.contrib r f) = some t →
        exec (.fregWait f) s = .next (t.putGroup g { r.next f with wskip := false })) ∧
      (s1.futReturn g r f (s.contrib r f) = none →
        exec (.fregWait f) s = .next (s1.putGroup g
          { r with wait := .future (s.contrib r f), ins := f, insSh := shapeFregWait f, wskip := false }))) ∧
  (∀ (s t : State) (g : Gid) (r : Group) (f : Fields) (ls : List Nat), s.futReturn g r f ls = some t →
    (∀ l ∈ ls, l < 32) →
    let read := fun l => (s.futRead g.core (s.asidOf g r) (s.src64 r false f.ka f.a l)).getD (0, 0)
    (∀ l ∈ ls, 2 ≤ (read l).1) ∧ (t.core g.core).view = [] ∧
      t = { s with vreg := t.vreg, preg := t.preg, cores := t.cores } ∧
      VWritten s t r ls (fun l => [(f.d.toNat, (read l).2)]) ∧ PWritten s t r ls (fun l => [(f.c.toNat, (read l).1 == 3)])) ∧
  ∀ (s t : State) (g : Gid) (r : Group) (ls : List Nat), WaitsAt s g r → r.wait = .future ls →
    (s.futReturn g r r.ins ls = some t → exec (.futureWaitReturn g) s = .next (t.putGroup g r.woken)) ∧
    (s.futReturn g r r.ins ls = none → exec (.futureWaitReturn g) s = .next s)

/-- Futures (R221, R247 to R250): what registering and resolving do to a future's unit and a join record, and the
instructions that do it, one lane a step; FREG.wait waits until all are resolved and gives their values.
A page fault between two lanes' steps is not spoken of (log 76); that no range lock is tested is the model's choice
(log 130). -/
def Obligations.Futures : Prop :=
  Claims.FutureUnits ∧ Claims.FutureInstructions

/-- QPUSH, TSUB and QPOP (R116 to R119): the first step reserves or takes an index, or on a full or empty
queue says so in Q (QPOP without `.nb` waits); the second publishes the entry when SEQ(i) is i, with an empty
outbox, or reads it when SEQ(i) is i + 1. TSUB reads its record between them, one unit a step in an order left open
(R209). Every step counts the pages that it translated first (R296, R297). An index is never reserved in a full queue
nor taken from an empty one. -/
def Claims.DeviceQueues : Prop :=
  (∀ (f : Fields) (s : State) (g : Gid) (r : Group),
    let asid := s.asidOf g r
    let s1 := s.countIssue g (s.useful r f)
    let p := s.partOf asid
    let a := s.gr r f.a.toNat
    let me := Party.group r.uid
    let said := fun (q : Nat) (b : Bool) => s.retired g r f { r.next f with q := setBit r.q q b }
    let waits := fun (t : State) (w : Wait) (sh : Shape) =>
      t.putGroup g { r with wait := w, ins := f, insSh := sh, wskip := false }
    let goesOn := fun (t : State) (q : Nat) (b : Bool) =>
      t.putGroup g { r.next f with wait := .none, q := setBit r.q q b, wskip := false }
    let pushes := fun (i : Instr) (da : W64) (sh : Shape) => ∀ x, Issues i x s g r → s1.qAtomReady g r asid da = true →
      s.queueLinked r g.core asid da none Acc.push = none →
      let c := s1.queueTranslated g.core asid da none Acc.push []
      (∀ t n, c.1.qReserve me g.core asid da Acc.push = .took t n → t.groups = s.groups →
        exec i s = .next (waits t (.qpush n [] c.2) sh)) ∧
      (c.1.qReserve me g.core asid da Acc.push = .none → exec i s = .next (goesOn c.1 f.d.toNat false))
    let fills := fun (i : Instr) (da : W64) (data : Tab (List Byte) → List Byte) (full : Tab (List Byte) → Bool) (noted : Bool) =>
      ∀ x n got seen t, Continues i x s g r → r.wait = .qpush n got seen → full got = true → r.outbox = [] →
      s.queueLinked r g.core asid da (some n) Acc.push = none →
      (s.queueTranslated g.core asid da (some n) Acc.push seen).1.qFill me g.core asid da Acc.push n (data got) = .done t [] →
      t.groups = s.groups →
      ∃ u, exec i s = .next u ∧ u.mem = t.mem ∧ u.scratch = t.scratch ∧ u.vreg = t.vreg ∧ u.preg = t.preg ∧ u.greg = t.greg ∧
        u.dev.dlqAsid = (if noted then tput t.dev.dlqAsid (p * 2 ^ 64 + n) asid else t.dev.dlqAsid) ∧
        u.group? g = some { r.next f with wait := .none, q := setBit r.q f.d.toNat true, wskip := false }
    pushes (.qpush f) a (shapeQpush f) ∧
    fills (.qpush f) a (fun _ => (List.range 8).flatMap fun i => leBytes 8 (s.gr r (f.b.toNat + i)).toNat) (fun _ => true)
      (s.isDlq g r a) ∧
    (a.toNat % 64 = 0 →
      (bitOf (s.dlqd p) 0 = true → pushes (.tsub f) (s.dlqDesc p) (shapeTsub f)) ∧
      (bitOf (s.dlqd p) 0 = false → ∀ x, Issues (.tsub f) x s g r → exec (.tsub f) s = .next (said f.d.toNat false)) ∧
      (∀ x n got seen pa, Continues (.tsub f) x s g r → r.wait = .qpush n got seen → got.length < 4 →
        s.homeOf g.core asid a.toNat 64 Acc.queue false = .ok pa → (r.linkBad && overLink pa) = false →
        (r.outbox.any fun e => e.overlaps (if isPeer pa then .peer else .global) pa 64) = false →
        ∃ i seen' u, i < 4 ∧ tfind got i = none ∧ exec (.tsub f) s = .next u ∧ u.group? g = some { r with
          wait := .qpush n (tput got i (s.bytes (pa + 16 * i) 16)) seen', ins := f, insSh := shapeTsub f, wskip := false } ∧
          u.mem = s.mem ∧ u.scratch = s.scratch ∧ u.vreg = s.vreg ∧ u.preg = s.preg ∧ u.greg = s.greg) ∧
      fills (.tsub f) (s.dlqDesc p) (fun got => (List.range 4).flatMap fun i => (tfind got i).getD []) (fun got => got.length = 4)
        true) ∧
    -- the first step, and the same again where it waits on an empty queue
    (∀ x s0 seen, (Issues (.qpop f) x s g r ∧ s0 = s1 ∧ seen = [] ∨
        Continues (.qpop f) x s g r ∧ s0 = s ∧ r.wait = .qpop none seen) → s0.qAtomReady g r asid a = true →
      s.queueLinked r g.core asid a none Acc.queue = none →
      let c := s0.queueTranslated g.core asid a none Acc.queue seen
      (∀ t n, c.1.qTake me g.core asid a Acc.queue = .took t n → t.groups = s.groups →
        exec (.qpop f) s = .next (waits t (.qpop (some n) c.2) (shapeQpop f))) ∧
      (c.1.qTake me g.core asid a Acc.queue = .none →
        (f.fnIs 1 = false → exec (.qpop f) s = .next (waits c.1 (.qpop none c.2) (shapeQpop f))) ∧
        (f.fnIs 1 = true → r.wait = .none → exec (.qpop f) s = .next (goesOn c.1 f.c.toNat false)))) ∧
    (∀ x n seen t bs, Continues (.qpop f) x s g r → r.wait = .qpop (some n) seen → f.d.toNat + 8 ≤ 64 →
      s.queueLinked r g.core asid a (some n) Acc.queue = none →
      (s.queueTranslated g.core asid a (some n) Acc.queue seen).1.qEmpty me g.core asid a Acc.queue n = .done t bs →
      t.groups = s.groups →
      ∃ u, exec (.qpop f) s = .next u ∧ u.mem = t.mem ∧
        GWritten t u r ((List.range 8).map fun k =>
          (f.d.toNat + k, BitVec.ofNat 64 (leNat ((bs.drop (8 * k)).take 8)))) ∧
        u.group? g = some { r.next f with wait := .none, q := if f.fnIs 1 then setBit r.q f.c.toNat true else r.q,
                                          wskip := false })) ∧
  ∀ (s : State) (me : Party) (core asid : Nat) (da : W64) (acc : Nat) (q : QDesc), s.qdesc core asid da acc = .ok q →
    (∀ t n, s.qReserve me core asid da acc = .took t n → n = q.widx ∧ q.used < 2 ^ q.logn) ∧
    (∀ t n, s.qTake me core asid da acc = .took t n → n = q.ridx ∧ q.ridx < q.widx) ∧
    (∀ t n d e, s.qFill me core asid da acc n d = .done t e → s.homeLoad core asid (q.seq n) 8 acc = .ok n) ∧
    ∀ t n e, s.qEmpty me core asid da acc n = .done t e →
      s.homeLoad core asid (q.seq n) 8 acc = .ok ((n + 1) % 2 ^ 64)

/-- PUSH (R64, R221, R248): a join record's task goes to the partition's device launch queue in the two steps
of a queue, and its maker is noted; where the queue is not set up the push is dropped with TASKINV 5. -/
def Claims.PushSteps : Prop :=
  ∀ (s : State) (k : Nat) (p : Push) (pa : Nat), tfind s.pushes k = some p → p.stall = none →
    p.task % 64 = 0 → p.task < 2 ^ 48 →
    let part := s.partOf p.asid
    (bitOf (s.dlqd part) 0 = true → s.homeOf noCore p.asid p.task 64 Acc.push false = .ok pa →
      (∀ t i, p.taken = none → s.qReserve (.push k) noCore p.asid (s.dlqDesc part) Acc.push = .took t i →
        exec (.push k) s = .next { t with pushes := tput t.pushes k { p with taken := some i, capf := none } }) ∧
      (∀ t i, p.taken = some i →
        s.qFill (.push k) noCore p.asid (s.dlqDesc part) Acc.push i (s.bytes pa 64) = .done t [] →
        let u := (t.noteDlq part p.asid i).readElsewhere pa 64
        exec (.push k) s = .next { u with pushes := tdel u.pushes k })) ∧
    (bitOf (s.dlqd part) 0 = false → ∃ t fr, exec (.push k) s = .next t ∧ t.pushes = tdel s.pushes k ∧
      t.records = s.records ++ [(part, fr)] ∧ fr.code = Code.taskinv ∧ fr.b2c = 5 ∧ t.mem = s.mem)

/-- Device queues (R64, R116 to R119, R221, R248): reserving and filling, taking and emptying; QPUSH, TSUB, QPOP and
PUSH go through them in two steps, and an index is never reserved in a full queue nor taken from an empty one.
That an entry and its sequence word are one step, and the address spaces, are the model's readings (logs 44 and 48). -/
def Obligations.Queues : Prop :=
  Claims.DeviceQueues ∧ Claims.PushSteps

/-! ### Grants -/

/-- CLAIM and RELEASE (R76, R77, R121, R122): a request within Need that passes the fast path is granted at
once, its RG going to the free granules and its scratch granules zeroed at the top; one that does not starts
the full test, and FULL_TEST_END grants or defers it, and tests it anew with the deferred ones where a holding
fell meanwhile; beyond Need it is CLAIMX. RELEASE gives back what nothing uses. -/
def Claims.ClaimAndRelease : Prop :=
  (∀ (f : Fields) (s : State) (g : Gid) (r : Group) (c : Crew), s.crew? g.core r.crew = some c →
    let req := Claim.ofBits (if f.w96 then f.i32 else (s.gr r f.a.toNat).setWidth 32)
    let q : GReq := { slot := g.slot, crew := r.crew, req := req }
    let fits := req.le (s.avail g.core)
    let safe := fits && s.safe g.core (granted (s.residents g.core) r.crew req)
    let s1 := s.countIssue g (s.useful r f)
    let top := fun (n : Nat) j => scrKey c.uid (n * 16384 + j)
    (req = {} → Does (.claim f) s r { after := r.next f }) ∧
    (∀ x, Issues (.claim f) x s g r → req ≠ {} → req.le c.need = true → fastPath c.need (s.avail g.core) req = true →
      ∃ t, exec (.claim f) s = .next t ∧ t.crew? g.core r.crew =
          some { c with hold := c.hold.add req, free := c.free + req.rg } ∧
        t.group? g = some { r.next f with wskip := false } ∧
        (∀ j < req.sg * 16384, tget 0 t.scratch (top c.hold.sg j) = 0) ∧
        (∀ k, (∀ j < req.sg * 16384, k ≠ top c.hold.sg j) → tget 0 t.scratch k = tget 0 s.scratch k) ∧
        t.vreg = s.vreg ∧ t.preg = s.preg ∧ t.greg = s.greg ∧ t.mem = s.mem) ∧
    -- a group of the crew that waits for granules takes them in a step of its own (R73, R123, R125)
    (∀ x, Issues (.claim f) x s g r → req ≠ {} → req.le c.need = true → fastPath c.need (s.avail g.core) req = true →
      let u := (s1.applyHold g.core r.crew req).addFree g.core r.crew req.rg
      exec (.claim f) s = .next (u.putGroup g { u.keepHalt g r (r.next f) with wskip := false })) ∧
    (∀ x, Issues (.claim f) x s g r → req ≠ {} → req.le c.need = true → fastPath c.need (s.avail g.core) req = false →
      (s.core g.core).test = none → exec (.claim f) s = .next (State.putGroup
        ((if fits then s1.modCrew g.core r.crew fun c => { c with pendHold := req } else s1).modCore g.core
          fun x => { x with test := some (q, safe), fell := false }) g
        { r with wait := .grant, ins := f, insSh := shapeClaim f, wskip := false })) ∧
    (∀ x, Issues (.claim f) x s g r → req ≠ {} → req.le c.need = false →
      exec (.claim f) s = .next (s1.crewFatal g r { code := Code.claimx })) ∧
    (∀ x, Issues (.release f) x s g r → (s.core g.core).deferred = [] →
      req.rg ≤ c.free → req.sg ≤ c.hold.sg → s.busyChans c.uid + req.ch ≤ c.hold.ch →
      s.busyStreams c.uid + req.ms ≤ c.hold.ms →
      (req.sg ≠ 0 → s.scoreboarded c.uid ((c.hold.sg - req.sg) * 16384) (req.sg * 16384) = false) →
      s.rowsInUse c.uid (384 * (c.hold.ms - req.ms)) (384 * c.hold.ms) = false →
      ∃ t, exec (.release f) s = .next t ∧ t.crew? g.core r.crew =
          some { c with hold := c.hold.sub req, free := c.free - req.rg } ∧
        t.group? g = some { r.next f with wait := .none, wskip := false } ∧
        t.vreg = s.vreg ∧ t.preg = s.preg ∧ t.greg = s.greg ∧ t.mem = s.mem) ∧
    -- then the deferred requests of the core are tested again (R77)
    (∀ x, Issues (.release f) x s g r →
      req.rg ≤ c.free → req.sg ≤ c.hold.sg → s.busyChans c.uid + req.ch ≤ c.hold.ch →
      s.busyStreams c.uid + req.ms ≤ c.hold.ms →
      (req.sg ≠ 0 → s.scoreboarded c.uid ((c.hold.sg - req.sg) * 16384) (req.sg * 16384) = false) →
      s.rowsInUse c.uid (384 * (c.hold.ms - req.ms)) (384 * c.hold.ms) = false →
      let freed := ((s1.zeroScratch c.uid (c.hold.sg - req.sg) c.hold.sg).zeroSilo c.uid (c.hold.ms - req.ms)
        c.hold.ms).putCrew g.core r.crew { c with hold := c.hold.sub req, free := c.free - req.rg }
      let u := freed.retest g.core
      exec (.release f) s = .next (u.putGroup g
        { u.keepHalt g r { r.next f with wait := .none } with wskip := false })) ∧
    (∀ x, Issues (.release f) x s g r → c.free < req.rg ∨ c.hold.sg < req.sg →
      exec (.release f) s = .next (s1.crewFatal g r { code := Code.claimx }))) ∧
  ∀ (s : State) (core : Nat) (q : GReq) (safe : Bool) (c : Crew) (r : Group),
    let g : Gid := { core := core, slot := q.slot }
    (s.core core).test = some (q, safe) → s.crew? core q.crew = some c → WaitsAt s g r → r.wait = .grant →
    (s.core core).deferred = [] →
    let ended := (s.modCore core fun x => { x with test := none, fell := false }).modCrew core q.crew
      fun c => { c with pendHold := {} }
    (safe = false → (s.core core).fell = true → exec (.fullTestEnd core) s =
      .next ((ended.modCore core fun x => { x with deferred := x.deferred ++ [q] }).retest core)) ∧
    ∃ t, exec (.fullTestEnd core) s = .next t ∧ (t.core core).test = none ∧ t.mem = s.mem ∧ t.vreg = s.vreg ∧
      (safe = true → t.group? g = some r.woken ∧ t.crew? core q.crew =
        some { c with pendHold := {}, hold := c.hold.add q.req, free := c.free + q.req.rg }) ∧
      (safe = false → (s.core core).fell = false → t.group? g = some r ∧ (t.core core).deferred = [q] ∧
        t.crew? core q.crew = some { c with pendHold := {} })

/-- FULL_TEST_END whatever else is deferred and whatever granules are asked for (R76, R77, R121): a request that
passed becomes the crew's and its group goes on; one that did not is deferred behind the others, which are tested
again. -/
def Claims.FullTestEnds : Prop :=
  ∀ (s : State) (core : Nat) (q : GReq) (safe : Bool), (s.core core).test = some (q, safe) →
    let ended := (s.modCore core fun x => { x with test := none, fell := false }).modCrew core q.crew
      fun c => { c with pendHold := {} }
    let defer := fun (u : State) => u.modCore core fun x => { x with deferred := x.deferred ++ [q] }
    (safe = false → exec (.fullTestEnd core) s = .next
      (if (s.core core).fell then (defer ended).retest core else defer (ended.retest core))) ∧
    (∀ c r, safe = true → s.crew? core q.crew = some c → WaitsAt s { core := core, slot := q.slot } r → r.wait = .grant →
      ∃ t c', exec (.fullTestEnd core) s = .next t ∧ t.group? { core := core, slot := q.slot } = some r.woken ∧
        t.crew? core q.crew = some c' ∧ c'.hold = c.hold.add q.req ∧ c'.pendHold = {} ∧ c'.max = c.max ∧
        (t.core core).test = none ∧ (t.core core).deferred = (s.core core).deferred ∧ t.mem = s.mem ∧
        ∀ j < q.req.sg * 16384, tget 0 t.scratch (scrKey c.uid (c.hold.sg * 16384 + j)) = 0)

/-- A grant on the fast path keeps the core safe (R76): if the residents' holdings form a safe state, and the
request of one of them passes the fast path, then the state after the grant passes the full test. -/
def Obligations.FastPathIsSafe : Prop :=
  ∀ (cs : List (Nat × Crew)) (slot : Nat) (c : Crew) (req : Claim), (cs.map (·.1)).Nodup → cs.length ≤ 16 →
    (∀ e ∈ cs, e.2.pendHold = {}) → (slot, c) ∈ cs → safeCrews cs = true →
    fastPath c.need (claimable.sub (holdSum cs)) req = true → safeCrews (granted cs slot req) = true

/-- RGSUR, RGCLM and CLQRY (R73, R123, R124): granules move between a group and its crew, new ones zeroed; a group
waits for granules that are not free, behind the crew's others that wait, and goes on when it has them. Too many, or
in a new group of REPACK, the fault is CLAIMX or REPACKX. CLQRY reads. -/
def Claims.GranulesAndQueries : Prop :=
  (∀ (f : Fields) (s : State) (g : Gid) (r : Group) (c : Crew), s.crew? g.core r.crew = some c →
    let n := f.imm.toNat
    let crewIs := fun (t : State) (c' : Crew) => t.crew? g.core r.crew = some c'
    (∀ x, Issues (.rgsur f) x s g r → r.isPacked = false → n < r.gran → s.regsHeld r.uid (32 * (r.gran - n)) = false →
      let u := (s.countIssue g (s.useful r f)).addFree g.core r.crew n
      exec (.rgsur f) s = .next (u.putGroup g { u.keepHalt g r { r.next f with gran := r.gran - n } with wskip := false })) ∧
    (∀ x, Issues (.rgsur f) x s g r → r.isPacked = false → n < r.gran → s.regsHeld r.uid (32 * (r.gran - n)) = false →
      ∃ t, exec (.rgsur f) s = .next t ∧ crewIs t { c with free := c.free + n } ∧
        t = { s.retired g r f { r.next f with gran := r.gran - n } with crews := t.crews }) ∧
    (∀ x, Issues (.rgclm f) x s g r → r.isPacked = false → r.gran + n ≤ 8 → n ≤ c.free → c.rgq = [] →
      ∃ t, exec (.rgclm f) s = .next t ∧ crewIs t { c with free := c.free - n } ∧
        t = { s.retired g r f { r.next f with gran := r.gran + n } with crews := t.crews, vreg := t.vreg } ∧
        (∀ k < 32 * n, ∀ l < 32, tget 0 t.vreg (vkey r.uid (32 * r.gran + k) l) = 0) ∧
        ∀ k, (∀ i < 32 * n, ∀ l < 32, k ≠ vkey r.uid (32 * r.gran + i) l) → tget 0 t.vreg k = tget 0 s.vreg k) ∧
    (∀ x, Issues (.rgclm f) x s g r → r.isPacked = false → r.gran + n ≤ 8 → c.free < n ∨ c.rgq ≠ [] →
      ∃ t, exec (.rgclm f) s = .next t ∧ crewIs t { c with rgq := c.rgq ++ [(g.slot, n)] } ∧
        t = { s.retired g r f { r with wait := .rgclm n, ins := f, insSh := shapeGran f } with crews := t.crews }) ∧
    (r.isPacked = false → r.gran ≤ n → Faults (.rgsur f) s r Code.claimx) ∧
    (r.isPacked = false → 8 < r.gran + n → Faults (.rgclm f) s r Code.claimx) ∧
    (r.isPacked = true → Faults (.rgsur f) s r Code.repackx ∧ Faults (.rgclm f) s r Code.repackx) ∧
    ∀ x, Issues (.clqry f) x s g r → Completes (.clqry f) x s g r { after := r.next f, g := [(f.d.toNat,
      let bits := fun (x : Claim) => (BitVec.ofNat 64 (x.rg + x.sg * 2 ^ 8 + x.ch * 2 ^ 16 + x.ms * 2 ^ 20) : W64)
      if f.fnIs 0 then bits c.hold else if f.fnIs 1 then bits c.max else if f.fnIs 2 then bits (c.max.sub c.hold)
      else if f.fnIs 3 then bits (s.avail g.core) else BitVec.ofNat 64 (r.gran + c.free * 2 ^ 8))] }) ∧
  -- the oldest that waits takes its granules once they are free; another waits on
  ∀ (f : Fields) (s : State) (g : Gid) (r : Group) (c : Crew) x, Continues (.rgclm f) x s g r → s.crew? g.core r.crew = some c →
    let n := f.imm.toNat
    r.wait = .rgclm n → r.isPacked = false → r.gran + n ≤ 8 →
    (∀ rest, c.rgq = (g.slot, n) :: rest → n ≤ c.free →
      ∃ t, exec (.rgclm f) s = .next t ∧ t.mem = s.mem ∧ t.crew? g.core r.crew = some { c with free := c.free - n, rgq := rest } ∧
        t.group? g = some { r.next f with wait := .none, gran := r.gran + n, wskip := false } ∧
        (∀ i < 32 * n, ∀ l < 32, tget 0 t.vreg (vkey r.uid (32 * r.gran + i) l) = 0) ∧
        ∀ k, (∀ i < 32 * n, ∀ l < 32, k ≠ vkey r.uid (32 * r.gran + i) l) → tget 0 t.vreg k = tget 0 s.vreg k) ∧
    (c.rgq.head? ≠ some (g.slot, n) ∨ c.free < n → exec (.rgclm f) s = .next s)

/-- Grants (R73, R76, R77, R121 to R124): CLAIM and RELEASE, FULL_TEST_END, RGSUR and RGCLM, and CLQRY: what they
take, give back and read, when they wait, and when they are CLAIMX or REPACKX.
Readings of the model: a request beyond Avail (log 47); an unusable engine's MS out of Avail and Need (log 93); a tested
holding counted in what CLQRY reads as Avail (log 117). -/
def Obligations.ClaimsGranulesQueries : Prop :=
  Claims.ClaimAndRelease ∧ Claims.FullTestEnds ∧ Claims.GranulesAndQueries

/-! ### Lattice regions -/

/-- The orders and joins of the lattice types (R257, R258): the order of each type's cells, and Join_T is
their least upper bound, commutative, associative and idempotent. -/
def Obligations.LatticeOrders : Prop :=
  (∀ a b : W32,
    let leq := fun typ => latLeq typ a.toNat b.toNat
    leq 1 = decide (a.toNat ≤ b.toNat) ∧ leq 2 = decide (a.toInt ≤ b.toInt) ∧ leq 3 = decide (b.toNat ≤ a.toNat) ∧
      leq 4 = decide (b.toInt ≤ a.toInt) ∧ leq 5 = (a &&& ~~~ b == 0) ∧
      leq 8 = decide ((if a.getLsbD 31 then ~~~ a else a ^^^ 0x80000000).toNat ≤
        (if b.getLsbD 31 then ~~~ b else b ^^^ 0x80000000).toNat)) ∧
  (∀ a b : W64, latLeq 7 a.toNat b.toNat = decide (a.toNat ≤ b.toNat) ∧
    latLeq 10 a.toNat b.toNat = decide (a.toNat ≤ b.toNat)) ∧
  (∀ a b : BitVec 128, latLeq 9 a.toNat b.toNat = (List.range 4).all fun d =>
    decide ((a.extractLsb' (32 * d) 32).toNat ≤ (b.extractLsb' (32 * d) 32).toNat)) ∧
  ∀ typ ∈ [1, 2, 3, 4, 5, 7, 8, 9, 10], ∀ a b c : Nat,
    a < 2 ^ (8 * cellBytes typ) → b < 2 ^ (8 * cellBytes typ) → c < 2 ^ (8 * cellBytes typ) →
    latJoin typ a a = a ∧ latJoin typ a b = latJoin typ b a ∧
    latJoin typ (latJoin typ a b) c = latJoin typ a (latJoin typ b c) ∧
    latLeq typ a (latJoin typ a b) = true ∧
    (latLeq typ a c = true → latLeq typ b c = true → latLeq typ (latJoin typ a b) c = true)

/-- JST and MST (R222, R259, R266 to R268): after the checks the group waits for its join's own step, and that step
makes it: in lane order each cell of the die's replica takes its join, a GCNT cell in the die's slot; the lines
touched are owed to the three other dies, and nothing else changes. With `.rel` the step waits for the outbox to empty,
and the lines are marked as released. An MST against the order, at its issue or at its step, and a NaN, are NONMONO,
without effect; a `.rel` that waits for the outbox is tested at its step alone. -/
def Obligations.LatticeJoins : Prop :=
  ∀ (f : Fields) (s : State) (g : Gid) (r : Group) (d : Nat) (x : Region) (o : Nat → Nat) (ls : List Nat) (mst : Bool),
    let i := if mst then Instr.mst f else Instr.jst f
    let rel := f.fnBits 6 6 == 1
    let die := dieOf g.core
    let addr := fun l => s.addrPlain r f true l
    let n := cellBytes x.typ
    let v := fun l => if f.latTyp = 9 then (s.src32 r false f.kb f.b l).toNat else s.latVal r (Fields.cell f) f.kb f.b l
    -- a cell's new value, and whether MST may give it
    let new := fun (c v : Nat) =>
      let slots := fun (y : Nat) => ofSlots fun i => if i = die then y else slotOf c i
      match mst, decide (x.typ = 9) with
      | false, false => latJoin x.typ c v
      | false, true => slots (min (slotOf c die + v) 0xFFFFFFFF)
      | true, false => v
      | true, true => slots v
    let mono := fun (c v : Nat) => if x.typ = 9 then decide (slotOf c die ≤ v) else latLeq x.typ c v
    -- the cell at `off` once the lanes `pre` have joined
    let after := fun (pre : List Nat) off => pre.foldl (fun c l => if o l = off then new c (v l) else c) (x.cell die off n)
    let grows := mst = false ∨ ∀ pre l post, ls = pre ++ l :: post → mono (after pre (o l)) (v l) = true
    let touched := fun line => ∃ l ∈ ls, o l / 64 = line
    let joined := fun (y : Region) =>
      y = { x with cells := y.cells, owed := y.owed, lacks := y.lacks, released := y.released } ∧
      (∀ l ∈ ls, y.cell die (o l) n = after ls (o l)) ∧
      (∀ e off, off < 2 ^ 40 → (e = die → ∀ l ∈ ls, off < o l ∨ o l + n ≤ off) → y.byte e off = x.byte e off) ∧
      ∀ e line, line < 2 ^ 34 →
        (e = die ∧ touched line → ∀ b < 4, (tget 0 y.owed (e * 2 ^ 40 + line)).getLsbD b = decide (b ≠ die) ∧
          (tget 0 y.lacks (e * 2 ^ 40 + line)).getLsbD b = decide (b ≠ die) ∧
          tget false y.released (e * 2 ^ 40 + line) = (rel || tget false x.released (e * 2 ^ 40 + line))) ∧
        (¬ (e = die ∧ touched line) → tget 0 y.owed (e * 2 ^ 40 + line) = tget 0 x.owed (e * 2 ^ 40 + line) ∧
          tget 0 y.lacks (e * 2 ^ 40 + line) = tget 0 x.lacks (e * 2 ^ 40 + line) ∧
          tget false y.released (e * 2 ^ 40 + line) = tget false x.released (e * 2 ^ 40 + line))
    let faults := fun (u : State) => ∃ fr, fr.code = Code.nonmono ∧ exec i s = .next (u.crewFatal g r fr)
    tfind s.regions d = some x → ls ≠ [] → x.typ ∈ [1, 2, 3, 4, 5, 7, 8, 9, 10] →
    (∀ l ∈ ls, s.chkLat (s.asidOf g r) f (addr l) Acc.store = .lat d (o l) ∧ n ∣ o l ∧ o l + n ≤ 2 ^ 40) →
    ((∀ l ∈ ls, latNan x.typ (v l) = false) →
      (∀ w, Issues i w s g r → s.contrib r f = ls →
        (grows ∨ rel = true ∧ r.outbox ≠ [] → exec i s = .next (s.retired g r f { r with wait := .join ls rel, ins := f, insSh := shapeJst f })) ∧
        (¬ grows → (rel = true → r.outbox = []) → faults (s.countIssue g (s.useful r f)))) ∧
      (∀ w, Continues i w s g r → r.wait = .join ls rel → s.contrib r f = ls → s.untraced g r →
        ((rel = true → r.outbox = []) → grows → ∃ y, joined y ∧ exec i s =
          .next { s.putGroup g { r.next f with wait := .none, wskip := false } with regions := tput s.regions d y }) ∧
        ((rel = true → r.outbox = []) → ¬ grows → faults s) ∧
        (rel = true → r.outbox ≠ [] → exec i s = .next s))) ∧
    ((∃ l ∈ ls, latNan x.typ (v l) = true) → ∀ w, Issues i w s g r → s.contrib r f = ls →
      faults (s.countIssue g (s.useful r f)))

/-- TLD, TLDT and LPEEK (R266, R269 to R271) give each lane its cell, or the sum of a GCNT cell; the first two
once every lane's threshold is met, or at TLDT's timeout with the lanes not met in Pc, and the view is emptied;
before, the group waits. THRESHOLD_LOAD and TLDT_TIMEOUT end the wait. LPEEK issues and the group goes on; its read, of
all its lanes, is a later step. -/
def Claims.LatticeLoads : Prop :=
  ∀ (f : Fields) (s : State) (g : Gid) (r : Group),
    let asid := s.asidOf g r
    let die := dieOf g.core
    let cell := fun (timed : Bool) l => s.chkLat asid f (s.latAddr r f timed l) Acc.load
    let thr := fun l => s.latVal r (4 * f.latRegs) f.kb f.b l
    -- a lane's cell, or its sum; nothing where a helper lane names none
    let val := fun timed l => match cell timed l with
      | .lat d o =>
        let x := s.regionOf d
        let c := x.cell die o (cellBytes x.typ)
        if x.typ = 9 then slotSum c else c
      | _ => 0
    let met := fun timed l => match cell timed l with
      | .lat d o =>
        let x := s.regionOf d
        let c := x.cell die o (cellBytes x.typ)
        if x.typ = 9 then decide (thr l ≤ slotSum c) else latLeq x.typ (thr l) c
      | _ => true
    let ls := s.contrib r f
    let act := s.activeLanes r f
    let lands := fun timed => ∀ l ∈ ls, ∃ d o, cell timed l = .lat d o
    let gives := fun (t : State) (timed : Bool) => VWritten s t r act fun l =>
      (f.d.toNat, BitVec.ofNat 32 (val timed l)) ::
        (if f.latRegs = 1 then [] else [(f.d.toNat + 1, BitVec.ofNat 32 (val timed l / 2 ^ 32))])
    let acquires := fun (t : State) => (t.core g.core).view = [] ∧ ∀ c, c ≠ g.core → t.core c = s.core c
    let load := fun (i : Instr) (timed : Bool) (sh : Shape) => ∀ x, Issues i x s g r → s.untraced g r → lands timed →
      (∀ l ∈ ls, ∀ d o, cell timed l = .lat d o → latNan (s.regionOf d).typ (thr l) = false) →
      ((∀ l ∈ ls, met timed l = true) → ∃ t, exec i s = .next t ∧
        t = { s.retired g r f (r.next f) with vreg := t.vreg, preg := t.preg, cores := t.cores } ∧ gives t timed ∧
        acquires t ∧ if timed then PWritten s t r act (fun _ => [(f.c.toNat, false)]) else t.preg = s.preg) ∧
      ((∃ l ∈ ls, met timed l = false) →
        exec i s = .next (s.retired g r f { r with wait := .thresh timed, ins := f, insSh := sh }))
    let ends := fun (i : Instr) (timed : Bool) => ∃ t, exec i s = .next t ∧
      t = { s.putGroup g r.woken with vreg := t.vreg, preg := t.preg, cores := t.cores } ∧ gives t timed ∧ acquires t ∧
      if timed then PWritten s t r act (fun l => [(f.c.toNat, !(ls.all (met timed)) && !met timed l)]) else t.preg = s.preg
    load (.tld f) false (shapeTld f) ∧ load (.tldt f) true (shapeTldt f) ∧
    (∀ x, Issues (.lpeek f) x s g r → s.untraced g r → lands false →
      let at_ := fun (ls : List Nat) => ls.map fun l => (l, s.latAddr r f false l)
      let p : Peek := { f := f, pc := r.pc, lanes := at_ ls, helpers := at_ (act.filter fun l => r.hlp.getLsbD l) }
      exec (.lpeek f) s = .next (s.retired g r f (if act = [] then r.next f
        else { r.next f with peeks := r.peeks ++ [p], ins := f, insSh := shapeLpeek f }))) ∧
    (∀ (p : Peek) k, s.group? g = some r → r.peeks[k]? = some p → s.writesHeld r ((shapeLpeek p.f).writes p.f) = false →
      s.unwatched g.core →
      let all := p.lanes ++ p.helpers
      (all.map (·.1)).Nodup → (∀ e ∈ all, e.1 < 32) → (∀ e ∈ p.lanes, ∃ d o, s.chkLat asid p.f e.2 Acc.load = .lat d o) →
      let val := fun l => match (all.find? fun e => e.1 = l).map fun e => s.chkLat asid p.f e.2 Acc.load with
        | some (.lat d o) =>
          let x := s.regionOf d
          let c := x.cell die o (cellBytes x.typ)
          if x.typ = 9 then slotSum c else c
        | _ => 0
      let t := s.peekRead g k
      t = { s.putGroup g { r with peeks := r.peeks.eraseIdx k } with vreg := t.vreg } ∧
        VWritten s t r (all.map (·.1)) fun l => (p.f.d.toNat, BitVec.ofNat 32 (val l)) ::
          (if p.f.latRegs = 1 then [] else [(p.f.d.toNat + 1, BitVec.ofNat 32 (val l / 2 ^ 32))])) ∧
    (WaitsAt s g r → r.ins = f → r.traps = [] → ∀ timed, r.wait = .thresh timed →
      ((∀ l ∈ ls, met timed l = true) → ends (.thresholdLoad g) timed) ∧
      ((∃ l ∈ ls, met timed l = false) → exec (.thresholdLoad g) s = .next s) ∧
      (timed = true → ends (.tldtTimeout g) true))

/-- LJOIN, LCMP and LSYNC (R272, R273): join and comparison in registers, NaN raising IV; LSYNC waits until
every earlier join of its die is in all replicas. -/
def Claims.LatticeRegistersAndSync : Prop :=
  (∀ (f : Fields) (s : State) (r : Group),
    let n := cellBytes f.latTyp
    let a := fun l => s.latVal r n f.ka f.a l
    let b := fun l => s.latVal r n f.kb f.b l
    let isNan := fun (x : Nat) => decide (f.latTyp = 8 ∧ 0x7F800000 < x % 2 ^ 31)
    let nan := fun l => isNan (a l) || isNan (b l)
    let leq := latLeq f.latTyp
    let cond := fun l => match f.fnBits 5 4 with
      | 0 => leq (a l) (b l)
      | 1 => a l == b l
      | 2 => leq (a l) (b l) && a l != b l
      | _ => !leq (a l) (b l) && !leq (b l) (a l)
    let iv := fun l => if nan l then 1 else 0
    let join := fun l => if nan l then 0x7FC00000 else latJoin f.latTyp (a l) (b l)
    let regs := fun l => (List.range (n / 4)).map fun i => (f.d.toNat + i, BitVec.ofNat 32 (join l / 2 ^ (32 * i)))
    let pd := fun l => [(f.d.toNat, !nan l && cond l)]
    DoesWithFlags (.ljoin f) s r { after := r.next f, ls := s.activeLanes r f, v := regs } iv ∧
    DoesWithFlags (.lcmp f) s r { after := r.next f, ls := s.activeLanes r f, p := pd } iv ∧
    ∀ g x, Issues (.lsync f) x s g r →
      let lacks := s.regions.flatMap fun e => e.2.lacks.filterMap fun x =>
        if x.1 / 2 ^ 40 = dieOf g.core then some (e.1, x.1 % 2 ^ 40, x.2) else none
      exec (.lsync f) s = .next (s.retired g r f
        (if lacks = [] then r.next f else { r with wait := .lsync lacks, ins := f, insSh := shapeLsync f }))) ∧
  ∀ (s : State) (g : Gid) (r : Group) l, WaitsAt s g r → r.wait = .lsync l →
    exec (.lsyncDone g) s = .next (if l.all fun x => x.2.2 = 0 then s.putGroup g r.woken else s)

/-- Lattice loads, register operations and the wait for synchronisation (R266, R269 to R273): TLD, TLDT and LPEEK
give each lane its cell, the first two once every threshold is met or TLDT's time is over; LJOIN and LCMP act on
registers; LSYNC waits until the joins of its die are in all replicas.
That the cells of one LPEEK are read in one step, and which instructions wait for it, is the model's reading (log
97). -/
def Obligations.LatticeReads : Prop :=
  Claims.LatticeLoads ∧ Claims.LatticeRegistersAndSync

/-- The events of regions (R222, R254, R255, R260, R261): EXCHANGE joins a line owed to the phase's partner into the
partner's replica and no other byte of any, a release goes with it, and the waits of LSYNC follow; PHASE_END begins
the next phase when nothing of this one is owed; a registration that passes adds the region, at its type's bottom, and
a refused one, or a refused deregistration, writes a LATDESC record and leaves the regions as they are; the range of a
region deregistered translates no more (R255). Which pages the runs take, that no LSYNC waits for a region that is
gone, how long its range stays without a translation, and what a descriptor keeps (its fields when refused, its
STRETCH) are the model's choices (logs 22, 23, 107, 115 and 116). -/
def Obligations.LatticeEvents : Prop :=
  ∀ (s : State) (desc : Nat),
    -- the waits of LSYNC follow; what else a group holds stays
    let syncs := fun (t : State) (step : List (Nat × Nat × BitVec 4) → List (Nat × Nat × BitVec 4)) =>
      ∀ k h, tfind s.groups k = some h → tfind t.groups k = some (match h.wait with
        | .lsync l => { h with wait := .lsync (step l) }
        | _ => h)
    let latdesc := fun (o : Host.Outcome State Fault Refusal) => ∃ t fr p, o = .next t ∧ t.regions = s.regions ∧
      t.groups = s.groups ∧ t.mem = s.mem ∧ t.records = s.records ++ [(p, fr)] ∧ fr.code = Code.latdesc
    (∀ x src line, tfind s.regions desc = some x → src < 4 → line < 2 ^ 34 →
      let dst := src ^^^ (x.phase % 3 + 1)
      let n := cellBytes x.typ
      (tget 0 x.owed (src * 2 ^ 40 + line)).getLsbD dst = true →
      ∃ t y, exec (.exchange desc src line) s = .next t ∧
        t = { s with regions := tput s.regions desc y, groups := t.groups } ∧
        syncs t (List.map fun e => if e.1 = desc ∧ e.2.1 = line ∧ e.2.2.getLsbD src = false
          then (desc, line, setBit e.2.2 dst false) else e) ∧
        y = { x with cells := y.cells, owed := y.owed, due := y.due, lacks := y.lacks, released := y.released } ∧
        tget false y.released (dst * 2 ^ 40 + line) =
          (tget false x.released (dst * 2 ^ 40 + line) || tget false x.released (src * 2 ^ 40 + line)) ∧
        (∀ i < 64 / n, y.cell dst (64 * line + n * i) n =
          latJoin x.typ (x.cell dst (64 * line + n * i) n) (x.cell src (64 * line + n * i) n)) ∧
        (∀ die off, die < 4 → off < 2 ^ 40 → die ≠ dst ∨ off / 64 ≠ line → y.byte die off = x.byte die off) ∧
        (tget 0 y.owed (src * 2 ^ 40 + line)).getLsbD dst = false) ∧
    (∀ x, tfind s.regions desc = some x → x.due = [] →
      let y := { x with phase := x.phase + 1 }
      let regions := tput s.regions desc { y with due := y.dueLines }
      exec (.phaseEnd desc false) s = .next { s with regions := regions } ∧
      ∃ t, exec (.phaseEnd desc true) s = .next t ∧ t = { s with regions := regions, ctl := t.ctl }) ∧
    (∀ w : W64, (w.getLsbD 63 = false → exec (.regionRegistration desc w) s = .next s) ∧
      (w.getLsbD 63 = true → exec (.regionDeregistration desc w) s = .next s)) ∧
    (∀ w : W64, desc < 64 → w.getLsbD 63 = true → tfind s.regions desc = none →
      let typ := w.toNat % 16
      let asid := w.toNat / 2 ^ 48 % 2 ^ 12
      let base := w.toNat / 2 ^ 12 % 2 ^ 36 * 4096
      let n := (s.ctlw (0x3800 + 16 * desc + 8)).toNat % 2 ^ 19
      let overlaps := fun (e : Nat × Region) => e.2.asid = asid ∧ base < e.2.base + 64 * e.2.lines ∧ e.2.base < base + 4096 * n
      let fine := typ ∈ [1, 2, 3, 4, 5, 7, 8, 9, 10] ∧ n ≠ 0 ∧ n ≤ 262144 ∧ ∀ e ∈ s.regions, ¬ overlaps e
      (fine → ∀ runs, freeRuns (s.lstore / 4096) n 4 s.latRuns = some runs →
        exec (.regionRegistration desc w) s = .next
          { s.setCtl (0x3800 + 16 * desc) (w &&& 0x8FFFFFFFFFFFF00F) with
            regions := tput s.regions desc { asid := asid, base := base, lines := 64 * n, typ := typ, runs := runs } }) ∧
      (¬ fine → latdesc (exec (.regionRegistration desc w) s))) ∧
    (∀ (w : W64) x, desc < 64 → tfind s.regions desc = some x →
      (w.getLsbD 63 = true → latdesc (exec (.regionRegistration desc w) s)) ∧
      (w.getLsbD 63 = false → s.latWaited desc = true → latdesc (exec (.regionDeregistration desc w) s)) ∧
      (w.getLsbD 63 = false → s.latWaited desc = false → ∃ t, exec (.regionDeregistration desc w) s = .next t ∧
        t = { s.setCtl (0x3800 + 16 * desc) (w &&& 0x0FFFFFFFFFFFF00F) with
          regions := tdel s.regions desc, groups := t.groups, goneRanges := t.goneRanges } ∧
        (∀ asid va, t.goneAt asid va = true ↔
          s.goneAt asid va = true ∨ asid = x.asid ∧ x.base ≤ va ∧ va < x.base + 64 * x.lines) ∧
        syncs t (List.filter fun y => y.1 ≠ desc)))

/-! ### Work: records, links, dispatch, crews -/

/-- The replay window from the Thresher to a dispatcher (R90, R91): the entry expected is accepted and
acknowledged, or refused where the queue is full; another is dropped. An acknowledgement frees the entry's
place, a refusal starts a back-off, and its end sends again every unacknowledged entry from the refused one. -/
def Claims.ReplayWindow : Prop :=
  ∀ (s : State) (n : Nat),
    let l := s.link n
    let put := fun (x : Link) => s.putLink n x
    (∀ k x t full, l.transit = (k, x) :: t →
      (k ≠ l.expected → exec (.queueEntryReceipt n full) s = .next (put { l with transit := t })) ∧
      (k = l.expected → full = true → exec (.queueEntryReceipt n full) s =
        .next (put { l with transit := t, replies := l.replies ++ [(k, false)] })) ∧
      (k = l.expected → full = false →
        let d := s.die n
        exec (.queueEntryReceipt n full) s = .next (State.putDie
          (put { l with transit := t, expected := (k + 1) % 256, replies := l.replies ++ [(k, true)] }) n
          { d with arrivals := d.arrivals ++ [x] }))) ∧
    (∀ k t, l.replies = (k, true) :: t → l.waiting = [] → exec (.acknowledgement n) s =
      .next (put { l with replies := t, sent := l.sent.filter (fun e => e.1 ≠ k), nacks := 0 })) ∧
    (∀ k t, l.replies = (k, false) :: t → exec (.negativeAcknowledgement n) s =
      .next (put { l with replies := t, backoff := some k, nacks := l.nacks + 1 })) ∧
    (∀ k before x after, l.backoff = some k → l.waiting = [] → l.sent = before ++ (k, x) :: after →
      (∀ e ∈ before, e.1 ≠ k) → exec (.backoffExpiry n) s =
      .next (put { l with backoff := none, transit := l.transit ++ (k, x) :: after })) ∧
    -- what waits is sent, numbered on, as far as the window of 16 has room, unless a back-off is under way
    (let sends := fun (i : Instr) (l : Link) => ∃ new rest, l.waiting = new ++ rest ∧
        (l.backoff ≠ none → new = []) ∧ (l.backoff = none → rest = [] ∨ 16 ≤ l.sent.length + new.length) ∧
        (new = [] ∨ l.sent.length + new.length ≤ 16) ∧
        let es := (List.range new.length).map fun i => ((l.next + i) % 256, new.getD i 0)
        l.next < 256 → exec i s = .next (put { l with
          waiting := rest, next := (l.next + new.length) % 256, sent := l.sent ++ es, transit := l.transit ++ es })
     (∀ k t, l.replies = (k, true) :: t → sends (.acknowledgement n)
        { l with replies := t, sent := l.sent.filter (fun e => e.1 ≠ k), nacks := 0 }) ∧
     (∀ k before x after, l.backoff = some k → l.sent = before ++ (k, x) :: after → (∀ e ∈ before, e.1 ≠ k) →
        sends (.backoffExpiry n) { l with backoff := none, transit := l.transit ++ (k, x) :: after }))

/-- Launching (R63 to R69, R71): a valid record becomes a launch with the fields its words give, an invalid one
is dropped with TASKINV; a decision forms tentative crews on each core of the next rectangle; a commit starts
each crew's groups at its entry with G0 and G1 set, and a release takes the tentative crews away; a launch that
waited long reserves its first rectangle. -/
def Claims.LaunchEvents : Prop :=
  ∀ (s : State) (die : Nat),
    let d := s.die die
    (∀ id rest x, d.arrivals = id :: rest → tfind s.launches id = some x →
      (s.taskFault (s.partOf x.asid) x.words = none →
        let w := fun i => (x.words.getD i 0).toNat
        let l := s.lane x.queue
        ∃ y, let u := { s.putDie die { d with arrivals := rest } with launches := tput s.launches id y }
          -- a launch of a host queue is outstanding there, and its packet is taken
          exec (.taskRecordValidation die) s = .next (if 64 ≤ x.queue then u
            else State.packetTaken (u.putLane x.queue { l with outstanding := l.outstanding ++ [id] }) x.queue) ∧
          y.valid = true ∧ y.task.kcode.toNat = w 0 ∧ y.task.entry.toNat = w 1 % 2 ^ 32 ∧ y.task.prio = w 1 / 2 ^ 32 % 8 ∧
          y.task.nsheaf = w 2 % 2 ^ 32 ∧ y.task.sw = w 2 / 2 ^ 32 % 16 ∧ y.task.sh = w 2 / 2 ^ 36 % 16 ∧
          y.task.sk = w 2 / 2 ^ 40 % 32 ∧ y.task.ngrp = w 3 % 32 ∧ y.task.gpg = w 3 / 2 ^ 5 % 16 ∧
          y.task.scrg = w 3 / 2 ^ 9 % 64 ∧ y.task.max.rg = w 3 / 2 ^ 32 % 128 ∧ y.task.max.sg = w 3 / 2 ^ 40 % 64 ∧
          y.task.max.ch = w 3 / 2 ^ 48 % 16 ∧ y.task.max.ms = w 3 / 2 ^ 52 % 8 ∧ y.task.argp.toNat = w 4) ∧
      (∀ cond, s.taskFault (s.partOf x.asid) x.words = some cond → bitOf (x.words.getD 1 0) 35 = false →
        ∃ t fr, exec (.taskRecordValidation die) s = .next t ∧ t.launches = tdel s.launches id ∧
          t.records = s.records ++ [(s.partOf x.asid, fr)] ∧ fr.code = Code.taskinv ∧ fr.b2c = BitVec.ofNat 32 cond ∧
          t.mem = s.mem ∧ t.groups = s.groups ∧ t.crews = s.crews ∧
          (x.queue < 64 → bitOf (t.hqd x.queue 0) 59 = true ∧ t.hqd x.queue 3 = 6)) ∧
      -- with a future it is poisoned too, with the value 0 (R64, R250)
      (∀ cond u, s.taskFault (s.partOf x.asid) x.words = some cond → bitOf (x.words.getD 1 0) 35 = true →
        (x.words.getD 5 0).toNat % 16 = 0 →
        ((s.putDie die { d with arrivals := rest }).taskInv (s.partOf x.asid) x.asid cond x.addr).workResolve (.launch id) x.asid
          (x.words.getD 5 0).toNat 3 0 0 = .ok u →
        exec (.taskRecordValidation die) s = .next
          (if x.queue < 64 then (u.endLaunch id).stopQueue x.queue 6 else u.endLaunch id))) ∧
    -- a completion that another write held back goes on first
    (∀ id, s.completable = some id → exec (.dispatchDecision die) s = .next (s.completion id)) ∧
    (d.admission = none → s.completable = none →
      (s.nextRect die = none → exec (.dispatchDecision die) s = .next (s.putDie die { d with tried := [] })) ∧
      (∀ id top cs x, s.nextRect die = some (id, top, cs) → tfind s.launches id = some x →
        -- a saved sheaf that could be restored and ranks first comes before it (R86)
        ((∃ e ∈ s.ranked die, e.2.2 = id ∧ s.savedBefore die 0 e = true) → exec (.dispatchDecision die) s = .next s) ∧
        ((∀ e ∈ s.ranked die, e.2.2 = id → s.savedBefore die 0 e = false) →
          ∃ t ok, exec (.dispatchDecision die) s = .next t ∧
            t = { s with nextId := t.nextId, crews := t.crews, dies := t.dies } ∧
            t.die die = { d with admission := some (id, cs, ok), tried := d.tried ++ [(id, top)] } ∧
            (∀ core slot c, slot < 16 → s.crew? core slot = some c → t.crew? core slot = some c) ∧
            -- where every core's test passes, each holds SK new crews, in free slots
            (ok = true → ∀ k < cs.length, ∀ i < x.task.sk, ∃ slot < 16, ∃ c, s.crew? (cs.getD k 0) slot = none ∧
              t.crew? (cs.getD k 0) slot = some c ∧ c.launch = id ∧ c.index = k * x.task.sk + i ∧ c.tentative = true ∧
              c.asid = x.asid ∧ c.max = x.task.max ∧ c.hold = { rg := x.task.ngrp * x.task.gpg, sg := x.task.scrg })))) ∧
    (∀ id cs x core slot c gs more, d.admission = some (id, cs, true) → tfind s.launches id = some x → x.code = none →
      tsorted s.launches = true → s.tentative id cs = [(core, slot)] → s.crew? core slot = some c → x.task.ngrp = 1 →
      s.freeSlots core = gs :: more →
      let target := c.kcode + x.task.entry.setWidth 64
      let start := fun (r : Group) => { r with pc := target.setWidth 48, pcBad := target.toNat / 2 ^ 48 != 0 }
      ∃ t, exec (.admissionCommit die) s = .next t ∧ t.mem = s.mem ∧ t.vreg = s.vreg ∧
        t.crew? core slot = some { c with tentative := false, sheaf := x.placed } ∧
        t.group? { core := core, slot := gs } = some (start { crew := slot, uid := s.nextId, gran := x.task.gpg }) ∧
        tget 0 t.greg (gkey s.nextId 0) = c.argp ∧ tget 0 t.greg (gkey s.nextId 1) = 0 ∧
        (∃ x', tfind t.launches id = some x' ∧ x'.placed = x.placed + 1 ∧ x'.age = 0 ∧
          x'.crewsLeft = x.crewsLeft + x.task.sw * x.task.sh * x.task.sk) ∧
        (t.die die).admission = none ∧ (t.die die).tried = []) ∧
    -- any number of crews and groups, where each core has the slots its tentative crews counted (R68)
    (∀ id cs x, d.admission = some (id, cs, true) → tfind s.launches id = some x → x.code = none →
      tsorted s.launches = true → tsorted s.crews = true → (∀ core, s.tentSlots core ≤ (s.freeSlots core).length) →
      ∃ t, exec (.admissionCommit die) s = .next t ∧ t.mem = s.mem ∧ t.vreg = s.vreg ∧
        (∃ x', tfind t.launches id = some x' ∧ x'.placed = x.placed + 1 ∧ x'.age = 0 ∧
          x'.crewsLeft = x.crewsLeft + x.task.sw * x.task.sh * x.task.sk) ∧
        (t.die die).admission = none ∧ (t.die die).tried = [] ∧
        ∀ core slot c, (core, slot) ∈ s.tentative id cs → s.crew? core slot = some c →
          let target := c.kcode + x.task.entry.setWidth 64
          let start := fun (r : Group) => { r with pc := target.setWidth 48, pcBad := target.toNat / 2 ^ 48 != 0 }
          t.crew? core slot = some { c with tentative := false, sheaf := x.placed } ∧
          ∀ i < x.task.ngrp, ∃ gs uid, gs ∈ s.freeSlots core ∧
            t.group? { core := core, slot := gs } = some (start { crew := slot, uid := uid, grp := i, gran := x.task.gpg }) ∧
            tget 0 t.greg (gkey uid 0) = c.argp ∧ tget 0 t.greg (gkey uid 1) = 0) ∧
    -- a release; then the deferred requests of the cores are tested again (R69, R77)
    (∀ id cs ok, d.admission = some (id, cs, ok) →
      (ok = true → ∀ x, tfind s.launches id = some x → x.code ≠ none) →
      let ts := s.tentative id cs
      exec (.admissionRelease die) s = .next ((sortNat (ts.map (·.1))).foldl State.retest
        { s.putDie die { d with admission := none } with
          crews := s.crews.filter fun e => !(ts.contains (e.1 / 16, e.1 % 16)) })) ∧
    (∀ id cs ok, d.admission = some (id, cs, ok) → (∀ core, (s.core core).deferred = []) →
      (ok = true → ∀ x, tfind s.launches id = some x → x.code ≠ none) →
      let ts := s.tentative id cs
      ∃ t, exec (.admissionRelease die) s = .next t ∧
        t = { s.putDie die { d with admission := none } with
          crews := s.crews.filter fun e => !(ts.contains (e.1 / 16, e.1 % 16)), cores := t.cores } ∧
        -- a full test under way there will see that holdings fell
        ∀ core, t.core core = { s.core core with fell := (t.core core).fell }) ∧
    (∀ id x top cs more, d.reservation = none → d.admission = none → s.saved = [] → s.launches = [(id, x)] → x.aged ≠ 0 → s.eligible die x = true →
      (∀ k < 4, (s.die k).reservation = none) →
      s.rects (s.partOf x.asid) die x.task.sw x.task.sh = (top, cs) :: more →
      ∃ named, exec (.coreReservation die) s = .next (s.putDie die { d with
        reservation := some (id, cs), preReqs := d.preReqs ++ named }) ∧
        ∀ e ∈ s.crews, (e.1 / 16, e.2.uid) ∈ named ∨ e.1 / 16 ∉ cs ∨ e.2.tentative = true) ∧
    -- among several launches and saved sheafs, the one that reached age 128 first (R67, R86)
    (∀ n id cs, d.reservation = none → d.admission = none → (n, id, cs) ∈ s.askers die →
      (∀ o ∈ s.askers die, n < o.1 ∨ o = (n, id, cs)) →
      ∃ named, exec (.coreReservation die) s = .next (s.putDie die { d with
        reservation := some (id, cs), preReqs := d.preReqs ++ named }) ∧
        ∀ k, k ∈ named ↔ ∃ e ∈ s.crews, e.1 / 16 ∈ cs ∧ e.2.tentative = false ∧ k = (e.1 / 16, e.2.uid)) ∧
    (∀ id top cs more, (∀ k < 4, ∀ l cs, (s.die k).reservation = some (l, cs) → l ≠ id) →
      (∀ x, (id, x) ∈ s.launches → x.aged ≠ 0 → s.eligible die x = true →
        s.rects (s.partOf x.asid) die x.task.sw x.task.sh = (top, cs) :: more → (x.aged, id, cs) ∈ s.askers die) ∧
      ∀ sv, (id, sv) ∈ s.saved → sv.aged ≠ 0 → s.sheafId sv = id → s.sheafWakes (s.savedSheaf sv) = true →
        s.rects (s.partOf sv.crew.asid) die (s.taskOfCrew sv.crew).sw (s.taskOfCrew sv.crew).sh = (top, cs) :: more →
        (sv.aged, id, cs) ∈ s.askers die)

/-- Task records, links and the dispatchers' steps (R63 to R71, R90, R91): the replay window; a valid record becomes a
launch and an invalid one is dropped with TASKINV; a decision forms tentative crews, a commit starts their groups, a
release takes them away; a launch that waited long reserves its first rectangle. Which dispatcher takes a launch (log
24), on which dies an aged one asks (log 119), the ages of saved sheafs (log 50), which of several failed conditions
TASKINV names (log 45), slots held from the decision on (log 49), and where the fault of an entry's high bits is taken
(log 9), are the model's choices. -/
def Obligations.Launching : Prop :=
  Claims.ReplayWindow ∧ Claims.LaunchEvents

/-- EXIT (R99, R100): the Active lanes, or all, leave LIVE, EXEC and the stack for good; a group without a live
lane ends, its granules pass to the crew, and its slot frees. In a lane-level handler group the lanes leave their
parked groups too (the model's reading, log 39); in a new group of REPACK the group-wide form is REPACKX (R106).
CREW_RETIRE takes a crew away whose groups and work are gone. -/
def Claims.ExitAndLastCrew : Prop :=
  (∀ (f : Fields) (s : State) (g : Gid) (r : Group),
    let out := laneMask (if f.u then allLanes else s.activeLanes r f)
    let live := r.live &&& ~~~ out
    let stack := r.stack.map fun e => { e with exec := e.exec &&& ~~~ out, els := e.els &&& ~~~ out }
    ((∀ d, r.kind ≠ .handler d) → (f.u = true → r.isPacked = false) → live ≠ 0 → Does (.exit f) s r { after := { r.next f with live := live, exec := r.exec &&& ~~~ out, stack := stack } }) ∧
    (∀ x c, Issues (.exit f) x s g r → live = 0 → r.kind = .own → r.outbox = [] → r.traps = [] →
      s.regsHeld r.uid 0 = false → s.crew? g.core r.crew = some c → c.rgq = [] →
      ∃ t c', exec (.exit f) s = .next t ∧ t.group? g = none ∧ t.crew? g.core r.crew = some c' ∧
        c' = { c with free := c.free + r.gran, seqr := c'.seqr } ∧
        t = { s.countIssue g (s.useful r f) with groups := tdel s.groups (gidKey g), crews := t.crews }) ∧
    -- whatever the group is: its end follows, and the parked groups of a handler's lanes lose their threads
    (∀ x, Issues (.exit f) x s g r → (f.u = true → r.isPacked = false) →
      let u := (s.countIssue g (s.useful r f)).exitParked g r (if f.u then maskLanes r.live else s.activeLanes r f)
      let r' := { r.next f with live := live, exec := r.exec &&& ~~~ out, stack := stack }
      (live = 0 → exec (.exit f) s = .next (u.groupEnds g { r' with wait := .none, wskip := false })) ∧
      (live ≠ 0 → exec (.exit f) s = .next (u.putGroup g { u.keepHalt g r r' with wskip := false }))) ∧
    (f.u = true → r.isPacked = true → Faults (.exit f) s r Code.repackx) ∧
    -- in a lane-level handler group the thread leaves its parked group too
    (∀ x d l o, Issues (.exit f) x s g r → r.kind = .handler d → f.u = false → s.activeLanes r f = [l] → live ≠ 0 →
      g.hnd = true → g.slot < 32 → r.orig.getD l 32 < 32 →
      let home : Gid := { core := g.core, slot := r.orig.getD l 32 }
      s.group? home = some o → o.kind = .own → o.live ≠ laneMask [l] →
      let m := ~~~ laneMask [l]
      ∃ t, exec (.exit f) s = .next t ∧ t.mem = s.mem ∧ t.vreg = s.vreg ∧
        t.group? g = some { r.next f with live := live, exec := r.exec &&& ~~~ out, stack := stack, wskip := false } ∧
        t.group? home = some { o with
          live := o.live &&& m, exec := o.exec &&& m,
          stack := o.stack.map fun e => { e with exec := e.exec &&& m, els := e.els &&& m },
          traps := o.traps.filter fun x => x.lane ≠ l })) ∧
  ∀ (s : State) (core slot : Nat) (c : Crew) (x : Launch), s.crew? core slot = some c → c.tentative = false →
    c.stop = none → s.crewGroups core slot = [] → c.parts = [] → (∀ p ∈ (s.core core).pool, p.crewUid ≠ c.uid) →
    (∀ p ∈ (s.core core).ring, p.2 ≠ c.uid) → (∀ e ∈ s.copies, e.2.uid ≠ c.uid) → (∀ e ∈ s.ops, e.2.uid ≠ c.uid) →
    (s.core core).deferred = [] → tfind s.launches c.launch = some x →
    ∃ t, exec (.crewRetire core slot) s = .next t ∧ t.crew? core slot = none ∧ t.vreg = s.vreg ∧
      (1 < x.crewsLeft → t.mem = s.mem ∧ tfind t.launches c.launch = some { x with crewsLeft := x.crewsLeft - 1 }) ∧
      (x.crewsLeft = 1 → x.placed = x.task.nsheaf → x.task.cv = false → x.task.fv = false →
        t.mem = s.mem ∧ tfind t.launches c.launch = none)

/-- The end of a grid (R89, R250): with its last crew the completion word is written, then the future is resolved,
and the launch is gone; before, only the crew leaves. -/
def Claims.GridCompletes : Prop :=
  ∀ (s : State) (core slot : Nat) (c : Crew) (x : Launch), s.crew? core slot = some c → c.tentative = false →
    c.stop = none → s.crewGroups core slot = [] → c.parts = [] → (∀ p ∈ (s.core core).pool, p.crewUid ≠ c.uid) →
    (∀ p ∈ (s.core core).ring, p.2 ≠ c.uid) → (∀ e ∈ s.copies, e.2.uid ≠ c.uid) → (∀ e ∈ s.ops, e.2.uid ≠ c.uid) →
    let gone := s.dropCrew core slot
    tfind gone.launches c.launch = some x → x.code = none → x.linkBad = false →
    let counted := { gone with launches := tput gone.launches c.launch { x with crewsLeft := x.crewsLeft - 1 } }
    let cmpa := x.task.cmpa.toNat
    let futa := x.task.futa.toNat
    let me := Party.launch c.launch
    let ends := fun (u : State) => exec (.crewRetire core slot) s = .next (u.endLaunch c.launch)
    (x.crewsLeft ≠ 1 ∨ x.placed ≠ x.task.nsheaf → x.crewsLeft ≠ 0 → exec (.crewRetire core slot) s = .next counted) ∧
    (x.crewsLeft = 1 → x.placed = x.task.nsheaf →
      (x.task.cv = false → x.task.fv = false → ends counted) ∧
      (x.task.cv = false → x.task.fv = true → ∀ u, counted.workResolve me x.asid futa 2 0 0 = .ok u → ends u) ∧
      (x.task.cv = true → ∀ u,
        counted.homeStore me noCore x.asid cmpa Acc.store (leBytes 8 x.task.cmpv.toNat) = .ok u →
        (x.task.fv = false → ends u) ∧
        (x.task.fv = true → ∀ v, u.workResolve me x.asid futa 2 0 0 = .ok v → ends v)))

/-- Ends (R89, R99, R100, R250): EXIT, and CREW_RETIRE with what a grid's completion writes and resolves.
EXIT in a handler group, and what a fault does to a completion, are the model's readings (logs 39, 77). -/
def Obligations.ExitAndRetire : Prop :=
  Claims.ExitAndLastCrew ∧ Claims.GridCompletes

/-- SPAWN and its events (R80 to R82, R114, R115): the record joins the core's pool, or the core's segment of the
overflow ring; the group waits where the pool is full, or records stand in the segment, and the segment is full or the
ring disabled; SPAWN in a new group of REPACK is REPACKX (R106). A record starts a group in the lowest free slot, with G0
and G1 set and its granules taken from the crew's; the oldest record of the ring moves to the pool.
An entry at or above 2^48 faults at the first fetch, by the model's choice (log 9). -/
def Obligations.Spawning : Prop :=
  (∀ (f : Fields) (s : State) (r : Group), r.isPacked = true → Faults (.spawn f) s r Code.repackx) ∧
  (∀ (f : Fields) (s : State) (g : Gid) (r : Group) x, Issues (.spawn f) x s g r → r.isPacked = false →
    let c := s.crewOf g r
    let k := f.fn.toNat + 1
    let rec_ : SpawnRec := { entry := f.i32, crewSlot := r.crew, gran := k, arg := s.gr r f.a.toNat, argp := c.argp, crewUid := c.uid }
    let co := s.core g.core
    let s1 := s.countIssue g (s.useful r f)
    (k ≤ c.max.rg → co.pool.length < 64 → co.ring = [] → exec (.spawn f) s = .next
      ((s1.modCore g.core fun c => { c with pool := c.pool ++ [rec_] }).putGroup g { r.next f with wait := .none, wskip := false })) ∧
    -- in the core's segment of the overflow ring, behind the records there
    (∀ t, k ≤ c.max.rg → 64 ≤ co.pool.length ∨ co.ring ≠ [] →
      let n := (s.spovf (s.partOf c.asid)).2
      let part := s.partOf c.asid
      n ≠ 0 → (co.ringW - co.ringR).toNat < 2 ^ n → (r.linkBad = true → s.spawnLinked part g.core = none) →
      s1.homeStore (.group r.uid) noCore (s.fasid part) (s.ringSlot part g.core co.ringW.toNat) Acc.spawn rec_.bytes = .ok t →
      t.groups = s.groups → exec (.spawn f) s = .next ((t.modCore g.core fun x => { x with
        ringW := x.ringW + 1, ring := x.ring ++ [(x.ringW.toNat, c.uid)] }).putGroup g
          { r.next f with wait := .none, wskip := false })) ∧
    (k ≤ c.max.rg → 64 ≤ co.pool.length ∨ co.ring ≠ [] →
      (let n := (s.spovf (s.partOf c.asid)).2; n = 0 ∨ 2 ^ n ≤ (co.ringW - co.ringR).toNat) → exec (.spawn f) s = .next
      (s1.putGroup g { r with wait := .spawn, ins := f, insSh := shapeSpawn f, wskip := false })) ∧
    (c.max.rg < k → exec (.spawn f) s = .next (s1.crewFatal g r { code := Code.claimx }))) ∧
  ∀ (s : State) (core : Nat),
    let co := s.core core
    (∀ k rec_ c gs more, co.pool[k]? = some rec_ → (∀ p ∈ co.pool.take k, p.crewUid ≠ rec_.crewUid) →
      s.crewByUid core rec_.crewSlot rec_.crewUid = some c → c.stop = none → c.saving = false →
      s.freeSlots core = gs :: more → s.tentSlots core ≤ more.length → s.groupCount core rec_.crewSlot c < 16 →
      c.rgclmDue = false → rec_.gran ≤ c.free →
      let target := c.kcode + rec_.entry.setWidth 64
      let start := fun (r : Group) => { r with pc := target.setWidth 48, pcBad := target.toNat / 2 ^ 48 != 0 }
      ∃ t n, exec (.spawnRecordStart core k) s = .next t ∧
        t = { s with nextId := s.nextId + 1, cores := t.cores, crews := t.crews, groups := t.groups, greg := t.greg } ∧
        (t.core core).pool = co.pool.eraseIdx k ∧
        t.crew? core rec_.crewSlot = some { c with free := c.free - rec_.gran } ∧
        t.group? { core := core, slot := gs } =
          some (start { crew := rec_.crewSlot, uid := s.nextId, grp := n, gran := rec_.gran, spawned := true }) ∧
        tget 0 t.greg (gkey s.nextId 0) = rec_.argp ∧ tget 0 t.greg (gkey s.nextId 1) = rec_.arg) ∧
    (∀ part i uid rest rec_ pa, s.partOfCore core = some part → co.ring = (i, uid) :: rest → co.pool.length < 64 →
      s.ringRec part core i uid = .ok rec_ →
      s.homeOf noCore (s.fasid part) (s.ringSlot part core i) 64 Acc.spawn false = .ok pa →
      exec (.overflowRingMove core) s = .next ((s.readElsewhere pa 64).putCore core { co with
        pool := co.pool ++ [rec_], ring := rest, ringR := if rest = [] then co.ringW else BitVec.ofNat 32 (i + 1) }))

/-! ### Pre-emption, eviction, restore -/

/-- Whole sheafs (R78, R84 to R87, R206, R223, R299, R331): a page wait that lasts marks every crew of its sheaf; a sheaf
at rest is saved crew by crew, each with what it holds, in frames of its partition's ring, and only then are the cores'
deferred requests tested again; a saved sheaf that ranks first where it has room is rebuilt crew by crew, its groups in
the lowest free slots, under an empty view; its reservation ends on every die, and the others of its die age. (Where a
wait goes on is log 51: DEDUCED, safe.) -/
def Claims.SheafsSavedAndRestored : Prop :=
  (∀ (s : State) (core slot : Nat) (c : Crew), s.crew? core slot = some c →
    (∀ g r asid vpn, g.core = core → r.crew = slot → s.group? g = some r → r.wait = .page asid vpn →
      g.hnd = false → (∀ k ∈ s.sheafOf c, s.inHandlers k.1 k.2 = false ∧ ∀ x, s.crew? k.1 k.2 = some x → x.stop = none) →
      s.framesOk c = true →
      ∃ t, exec (.fwaitExpiry g) s = .next t ∧ t = { s with crews := t.crews } ∧
        ∀ i k x, k < 16 → s.crew? i k = some x → t.crew? i k =
          some (if (i, k) ∈ s.sheafOf c then { x with saving := true } else x)) ∧
    ((c.preempt = true ∨ c.saving = true) → (∀ k ∈ s.sheafOf c, s.evictable k.1 k.2 c.saving = true) →
      s.framesOk c = true → exec (.crewEviction core slot) s = .next
        ((sortNat ((s.sheafOf c).map (·.1))).foldl State.retest (((s.sheafOf c).foldl State.saveCrew s).writeSheaf c))) ∧
    -- at its blocking points, with outboxes, passes or remote atomics still to finish, it issues no more until they have
    (c.preempt = true → c.saving = false → (∀ k ∈ s.sheafOf c, s.atBlocking k.1 k.2 false = true) →
      (∃ k ∈ s.sheafOf c, s.workSaved k.1 k.2 false = false) →
      (∀ k ∈ s.sheafOf c, s.inHandlers k.1 k.2 = false ∧ ∀ x, s.crew? k.1 k.2 = some x → x.stop = none) →
      s.framesOk c = true → ∃ t, exec (.crewEviction core slot) s = .next t ∧ t = { s with crews := t.crews } ∧
        ∀ i k x, k < 16 → s.crew? i k = some x → t.crew? i k =
          some (if (i, k) ∈ s.sheafOf c then { x with saving := true } else x)) ∧
    let sv := s.savedOf core slot c
    ∃ id, tfind (s.saveCrew (core, slot)).saved id =
      some { sv with frames := (s.takeFrames (s.partOf c.asid) (frameCount sv.size)).1 }) ∧
  (∀ (s s' : State) (id core : Nat) (sv : Saved) (cs : List Nat), tfind s.saved id = some sv →
    let task := s.taskOfCrew sv.crew
    let sheaf := s.savedSheaf sv
    let name := s.sheafId sv
    let die := dieOf core
    rectCores core task.sw task.sh = some cs → (s.die die).admission = none → s.sheafWakes sheaf = true →
    (∀ x ∈ cs, s.owns (s.partOf sv.crew.asid) x = true ∧ x ∉ s.keptCores die name) →
    -- nothing that could be placed ranks before it
    s.savedBefore die name sv.rank = false →
    (∀ e ∈ s.launches, s.eligible die e.2 = true →
      rankLt (effPrio e.2.task.prio e.2.age, e.2.age, e.1) sv.rank = true → s.placeable die e.1 e.2 = false) →
    s.restorable sheaf task.sk cs = true → (∀ e ∈ sheaf, s.formatsOk e.2 = true) →
    sheaf.foldl (fun o e => o.bind fun (u : State) => u.restoreCrew e.1 (cs.getD (e.2.crew.index / task.sk) 0) e.2)
      (some s) = some s' →
    let u := s'.putDie die { s'.die die with tried := [] }
    ∃ v, exec (.crewRestore id core) s = .next (State.ageing v die name) ∧ v = { u with dies := v.dies } ∧
      ∀ k, v.die k = { u.die k with reservation := (u.die k).reservation.filter fun x => x.1 ≠ name }) ∧
  ∀ (s u : State) (sv w : Saved) (id core slot : Nat) (rest : List Nat), s.formatsOk sv = true → s.rebuild sv = (u, w) →
    core < 256 → u.freeCrewSlots core = slot :: rest → w.spawns = [] → w.places.length ≤ (u.freeSlots core).length →
    (w.groups.map (·.1)).Nodup → (∀ x ∈ w.groups ++ w.crew.parts, x.1 < 32) →
    -- a parked participant and the new group of REPACK in its slot go to one slot again (R105)
    let place := fun (old : Nat) => (u.freeSlots core).getD (w.places.idxOf old) 32
    ∃ t c', s.restoreCrew id core sv = some t ∧ tfind t.saved id = none ∧
      t.crew? core slot = some c' ∧ c' = { w.crew with parts := c'.parts, rgq := c'.rgq } ∧
      c'.parts = w.crew.parts.map (fun e => (place e.1, { e.2 with crew := slot })) ∧ (t.core core).view = [] ∧
      ∀ x ∈ w.groups, t.group? { core := core, slot := place x.1 } = some (x.2.resumed slot)

/-- A crew's eviction and return (R84 to R87, R147, R299, R332, R333): a request marks the crew, and a page wait that
lasts marks its sheaf to be saved; once every group is at rest and the ring has frames the crew is saved, its
groups as they are, its registers unchanged, and no byte of memory outside its frames and the ring's index; it is
restored in the lowest free places of a core, each group with the PC, masks, FMT, Q and vector registers that its
record in the frame gives, executing the instruction it waited in again; what has no layout is as it was saved, where
its bytes are as the save laid them out. A format byte that is none of R147's stops the crew with SPILLFMT, its
registers 0.
The model's choices: what has no layout in a frame (log 15), when a sheaf wakes (log 25) and in what order (log 50), how
a wait goes on (log 51), that a crew with SPILLFMT stands on the core (log 42), and a ring page that no longer
translates (log 104). -/
def Obligations.EvictionAndRestore : Prop :=
  Claims.SheafsSavedAndRestored ∧
  ∀ (s : State) (core slot : Nat) (c : Crew),
    (s.crew? core slot = some c → (core, c.uid) ∈ (s.die (dieOf core)).preReqs →
      ∃ t c', exec (.preemptionRequest core slot) s = .next t ∧ t = { s with dies := t.dies, crews := t.crews } ∧
        t.crew? core slot = some c' ∧ c' = { c with preempt := true, saving := c'.saving } ∧
        (core, c.uid) ∉ (t.die (dieOf core)).preReqs) ∧
    (s.crew? core slot = some c → (c.preempt = true ∨ c.saving = true) → s.sheafOf c = [(core, slot)] →
      s.evictable core slot c.saving = true → s.framesOk c = true → (s.core core).deferred = [] →
      (∀ e ∈ s.saved, e.2.crew.launch = c.launch → e.2.crew.sheaf ≠ c.sheaf) →
      ∃ t sv id, exec (.crewEviction core slot) s = .next t ∧ tfind t.saved id = some sv ∧ sv.core = core ∧
        sv.crew = { c with preempt := false, saving := false, pendHold := {}, seqr := { c.seqr with got := [] } } ∧
        sv.groups = (s.crewGroups core slot).map (fun e => (e.1.slot, e.2)) ∧
        t.crew? core slot = none ∧ t.crewGroups core slot = [] ∧
        t.vreg = s.vreg ∧ t.preg = s.preg ∧ t.greg = s.greg ∧ t.scratch = s.scratch ∧
        ∀ a, (∀ f ∈ sv.frames, ∀ i < 2097152, a ≠ s.home (f + i)) →
          (∀ i < 8, a ≠ s.home (s.ctxRing (s.partOf c.asid) + 8) + i) → t.byte a = s.byte a) ∧
    ∀ id sv gs more old r rest frame, s.saved = [(id, sv)] → s.sheafWakes [(id, sv)] = true →
      (s.die (dieOf core)).admission = none → (s.die (dieOf core)).reservation = none →
      s.owns (s.partOf sv.crew.asid) core = true → (∀ e ∈ s.launches, s.eligible (dieOf core) e.2 = false) →
      core < 256 → s.taskOfCrew sv.crew = {} → s.restorable [(id, sv)] 1 [core] = true → sv.crew.index = 0 →
      sv.crew.parts = [] → sv.crew.rgq = [] → sv.groups = [(old, r)] → sv.copies = [] → sv.ops = [] → sv.spawns = [] →
      s.freeCrewSlots core = slot :: rest → s.freeSlots core = gs :: more → sv.frames = [frame] → old < 32 →
      sv.crew.stop = none → (∀ e ∈ s.crews, e.2.launch ≠ sv.crew.launch) → r.homes = [] → r.uid ≠ 0 → r.gran ≤ 8 →
      -- the chain's bytes behind its header
      let bytes := fun o n => (List.range n).map fun i => s.byte (s.home (frame + 128 + (o + i)))
      let word := fun o n => leNat (bytes o n)
      let block := fun n => 1280 + 4160 * (n / 32)
      let fb := fun n => word (block n + n % 32) 1
      let words := fun n => unspill (fb n) (bytes (block n + 64 + 128 * (n % 32)) ((spillLen (fb n)).getD 128))
      ((∀ n, n < 32 * r.gran → fb n < 3) → ∃ (t : State) (c' : Crew) (r' : Group), exec (.crewRestore id core) s = .next t ∧
        t.crew? core slot = some c' ∧ c' = { sv.crew with
          parts := [], bars := c'.bars, sqsBase := c'.sqsBase, sqsDepth := c'.sqsDepth, asid := c'.asid, prio := c'.prio,
          hent := c'.hent, harg := c'.harg, fent := c'.fent, farg := c'.farg, seqr := c'.seqr } ∧
        (s.frameHead frame = laidOut 0 128 (s.headVals sv 0) → c'.asid = sv.crew.asid ∧ c'.prio = sv.crew.prio ∧
          c'.hent = sv.crew.hent ∧ c'.harg = sv.crew.harg ∧ c'.fent = sv.crew.fent ∧ c'.farg = sv.crew.farg) ∧
        (s.frameBytes [frame] sv.atSeqr sv.seqBytes = laidOut 3 sv.seqBytes sv.seqVals → c'.seqr.vals = sv.crew.seqr.vals) ∧
        t.group? { core := core, slot := gs } = some (r'.resumed slot) ∧ r' = { r with
          pc := BitVec.ofNat 48 (word 0 8), exec := BitVec.ofNat 32 (word 16 4),
          live := BitVec.ofNat 32 (word 20 4), hlp := BitVec.ofNat 32 (word 24 4),
          fmt := BitVec.ofNat 16 (word 28 2), q := BitVec.ofNat 16 (word 32 2),
          grp := word 9 1, gran := word 10 1, cc := r'.cc, depth := r'.depth, stack := r'.stack, wait := r'.wait } ∧
        (bytes 34 94 = laidOut 4 94 r.waitVals → r'.wait.vals = r.wait.vals) ∧
        tfind t.saved id = none ∧ ∀ n l, n < 32 * r.gran → l < 32 → t.v r n l = (words n).getD l 0) ∧
      ((∃ n, n < 32 * r.gran ∧ 3 ≤ fb n) → ∃ (t : State) (c' : Crew), exec (.crewRestore id core) s = .next t ∧
        t.crew? core slot = some c' ∧ (c'.stop.map fun st => st.frec.code) = some Code.spillfmt ∧
        ∀ n l, n < 256 → l < 32 → t.v r n l = 0)

/-! ### Traps, faults, recovery -/

/-- TRAP, its two setters, TRET and TRET.wr (R317 to R322): each contributing lane of TRAP parks with a frame that
holds its code, PC and detail; in a handler group the trap is crew-fatal. TRET returns a handler's thread to its
parked group, TRET.wr with D of its lane written, and a handler group without a thread leaves; outside a handler
group both are TRETX. -/
def Obligations.TrapsAndReturn : Prop :=
  ∀ (f : Fields) (s : State) (g : Gid) (r : Group),
    let frame := fun l => ({ lane := l, code := Code.trapsw, pc := r.pc, detail := f.i32 } : TrapLane)
    (∀ x, Issues (.trap f) x s g r → r.inHandler = false →
      ∃ frames, exec (.trap f) s = .next (s.retired g r f { r.next f with traps := r.traps ++ frames }) ∧
        frames.map (fun t => { t with a := 0, b := 0, c := 0 }) = (s.contrib r f).map frame) ∧
    (∀ x d, Issues (.trap f) x s g r → r.kind = .handler d → s.contrib r f ≠ [] →
      ∃ fr, exec (.trap f) s = .next ((s.countIssue g (s.useful r f)).crewFatal g r fr) ∧ fr.code = Code.trapsw) ∧
    (∀ x, Issues (.trapHset f) x s g r → exec (.trapHset f) s = .next ((s.retired g r f (r.next f)).modCrew g.core r.crew
      fun c => { c with hent := (s.gr r f.a.toNat).setWidth 32, harg := s.gr r f.b.toNat })) ∧
    (∀ x, Issues (.trapFset f) x s g r → exec (.trapFset f) s = .next ((s.retired g r f (r.next f)).modCrew g.core r.crew
      fun c => { c with fent := (s.gr r f.a.toNat).setWidth 32, farg := s.gr r f.b.toNat })) ∧
    ((∀ d, r.kind ≠ .handler d) → Faults (.tret f) s r Code.tretx ∧ Faults (.tretWr f) s r Code.tretx) ∧
    (∀ d l o, r.kind = .handler d → s.activeLanes r f = [l] → g.hnd = true → g.slot < 32 → r.orig.getD l 32 < 32 →
      r.live.getLsbD l = true →
      let home : Gid := { core := g.core, slot := r.orig.getD l 32 }
      s.group? home = some o →
      let returns := fun (t : State) =>
        t.group? home = some { o with traps := o.traps.filter fun x => x.lane ≠ l } ∧ t.mem = s.mem ∧ t.greg = s.greg ∧
        (r.live = laneMask [l] → r.outbox = [] → t.group? g = none ∧ (t.core g.core).trapPool = (s.core g.core).trapPool + 1) ∧
        (r.live ≠ laneMask [l] → t.group? g = some { r.next f with
          live := r.live &&& ~~~ laneMask [l], exec := r.exec &&& ~~~ laneMask [l], wskip := false })
      (∀ x, Issues (.tret f) x s g r → ∃ t, exec (.tret f) s = .next t ∧ returns t ∧ t.vreg = s.vreg) ∧
      (∀ x, Issues (.tretWr f) x s g r → f.d.toNat < 32 * o.gran → s.writesHeld o [f.d.toNat] = false →
        ∃ t, exec (.tretWr f) s = .next t ∧ returns t ∧
          VWritten s t o [l] fun l => [(f.d.toNat, s.src32 r false f.ka f.a l)]))

/-- TRAP_COMPACTION (R317, R318, R320): the threads of trapped lanes, no two of one lane, stand in one handler group,
each in its own lane, with one granule of the trap pool, in the lowest of the parked groups' issue slots, at the crew's
handler entry, with their frames in V0 to V10 and G0, G1 set; the parked groups are marked.
P registers and %fpx of a handler lane (log 36), and over which groups its issue slot is counted
(log 55), are the model's choices. -/
def Obligations.HandlerGroups : Prop :=
  ∀ (s : State) (core slot k : Nat) (c : Crew), s.crew? core slot = some c → c.stop = none → (s.core core).trapPool ≠ 0 →
    let ws := s.awaiting core slot
    let home := fun (n : Nat) => ({ core := core, slot := n } : Gid)
    let at_ : Gid := { core := core, slot := k, hnd := true }
    (∀ w ∈ ws, w.t.lane < 32 ∧ k ≤ w.slot ∧ w.slot < 32 ∧ s.group? (home w.slot) = some w.grp) →
    (∃ w ∈ ws, w.slot = k) → (ws.map fun w => w.t.lane).Nodup → s.group? at_ = none →
    -- no other crew's lanes have waited longer for a granule
    s.olderElsewhere core slot (olderFirst ws) = false →
    let target := c.kcode + c.hent.setWidth 64
    let V := fun (t : State) (l n : Nat) => (tget 0 t.vreg (vkey s.nextId n l)).toNat
    ∃ t h, exec (.trapCompaction core slot) s = .next t ∧ t.group? at_ = some h ∧ h.crew = slot ∧ h.uid = s.nextId ∧
      (∀ l < 32, h.live.getLsbD l = true ↔ ∃ w ∈ ws, w.t.lane = l) ∧ h.exec = h.live ∧ h.kind = .handler (c.hent = 0) ∧
      h.wait = .none ∧ h.depth = 0 ∧ h.pc = target.setWidth 48 ∧
      (∀ w ∈ ws, h.orig.getD w.t.lane 32 = w.slot ∧ (s.nextId ≠ 0 →
        let x := w.t
        let V := V t x.lane
        V 0 = (x.code + x.lane * 2 ^ 16 + w.slot * 2 ^ 24) % 2 ^ 32 ∧ V 1 = (slot + core * 2 ^ 8) % 2 ^ 32 ∧
        V 2 + V 3 * 2 ^ 32 = x.pc.toNat ∧ V 4 + V 5 * 2 ^ 32 = x.addr.toNat ∧ V 6 = x.detail.toNat ∧ V 7 = 0 ∧
        V 8 = x.a.toNat ∧ V 9 = x.b.toNat ∧ V 10 = x.c.toNat) ∧
        t.group? (home w.slot) = some { w.grp with traps := w.grp.traps.map fun y =>
          if ∃ v ∈ ws, v.slot = w.slot ∧ v.t.lane = y.lane then { y with inHandler := true } else y }) ∧
      tget 0 t.greg (gkey s.nextId 0) = c.argp ∧ tget 0 t.greg (gkey s.nextId 1) = c.harg ∧
      (t.core core).trapPool = (s.core core).trapPool - 1 ∧ t.mem = s.mem

/-- Taking a crew-fatal fault (R324): a privileged instruction below its level (R292) and a V register outside the
group's granules (R50) are faults before any effect. The group stops with its PC at the instruction; the crew's record
names code, PC and place; a group of the crew that waits stops at once, and one that runs, or is between two lanes'
steps of one instruction, has heard the halt and goes on first (R346). No register and no byte of memory changes. In a
lane-level handler the code is HFAULT. -/
def Obligations.CrewFatalStop : Prop :=
  (∀ (f : Fields) (s : State) (g : Gid) (r : Group), s.actor = .grp g → s.group? g = some r →
    let priv := s.levelOf g r
    let illreg := fun (i : Instr) => ∀ x, i.form = some x → 32 * r.gran < x.shape.extent x.f →
      exec i s = .next (s.crewFatal g r { code := Code.illreg })
    let privop := fun (n : Nat) (i : Instr) => priv < n → exec i s = .next (s.crewFatal g r { code := Code.privop })
    illreg (.mov f) ∧ illreg (.iadd f) ∧ illreg (.ffma f) ∧ illreg (.f2i f) ∧ illreg (.lxch f) ∧ illreg (.ld f) ∧
      illreg (.st f) ∧ illreg (.atom f) ∧ illreg (.tld f) ∧ illreg (.cpyo f) ∧
    privop 1 (.hrd f) ∧ privop 1 (.hwr f) ∧ privop 1 (.hstep f) ∧ privop 1 (.hstepLane f) ∧ privop 1 (.hres f) ∧
      privop 1 (.hresCrew f) ∧ privop 1 (.hresSheaf f) ∧ privop 2 (.errinj f) ∧ privop 2 (.heatrd f)) ∧
  ∀ (s : State) (g : Gid) (r : Group) (c : Crew) (fr : FRec), s.group? g = some r → s.crew? g.core r.crew = some c →
    c.stop = none → g.slot < 32 → r.inHandler = false ∨ (∃ d, r.kind = .handler d) →
    let t := s.crewFatal g r fr
    (∃ r', t.group? g = some r' ∧ r'.halt.cause = 7 ∧ r'.pc = r.pc ∧ r'.exec = r.exec ∧ r'.live = r.live) ∧
    (∃ c' st, t.crew? g.core r.crew = some c' ∧ c'.stop = some st ∧ st.frec.pc = r.pc ∧ st.frec.asid = c.asid ∧
      st.frec.code = (if r.inHandler then Code.hfault else fr.code) ∧ c'.hold = c.hold ∧ c'.bars = c.bars) ∧
    (∀ h rh, h ≠ g → h.core = g.core → h.slot < 32 → s.group? h = some rh → rh.crew = r.crew → rh.halt.cause = 0 →
      ∃ rh', t.group? h = some rh' ∧ rh'.pc = rh.pc ∧
        if rh.wait.midway = false ∧ (rh.wait ≠ .none ∨ rh.traps ≠ []) then rh'.halt.cause = 7 ∧ rh'.skid = 0
        else rh'.halt.cause = 0 ∧ ∃ n, rh'.bcast = some (n, 7)) ∧
    t.vreg = s.vreg ∧ t.preg = s.preg ∧ t.greg = s.greg ∧ t.mem = s.mem ∧ t.scratch = s.scratch

/-- The fatal handler (R325, R326): once every group has stopped the record is raised, and that of another fault
when it comes; once all are written and the crew's work has settled, the handler group starts at the crew's fatal
entry with G0 to G2 set (on a device that holds the crew is killed, its handler too: the model's choice, log 74); once
the handler has ended the crew is killed. -/
def Claims.FatalHandler : Prop :=
  ∀ (s : State) (core slot : Nat) (c : Crew) (st : Stop), s.crew? core slot = some c → c.stop = some st →
    (st.recId = none → s.allStopped core slot = true → st.others = [] →
      ∃ t fr id, exec (.fatalHandlerStart core slot) s = .next t ∧ t.records = s.records ++ [(s.partOf c.asid, fr)] ∧
        fr.code = st.frec.code ∧ fr.pc = st.frec.pc ∧ fr.id = id ∧
        ∃ c' st', t.crew? core slot = some c' ∧ c'.stop = some st' ∧ st'.recId = some id) ∧
    (∀ id x, st.recId = some id → st.others = [x] →
      ∃ t fr, exec (.fatalHandlerStart core slot) s = .next t ∧ t.records = s.records ++ [(s.partOf c.asid, fr)] ∧
        fr.code = x.code ∧ fr.pc = x.pc ∧ t.mem = s.mem ∧
        t.crew? core slot = some { c with stop := some { st with others := [], more := st.more ++ [fr.id] } }) ∧
    (st.recId ≠ none → s.stopWritten c = true → st.ended = false → st.handler = false → s.dev.hold = true →
      (s.abandon core slot c).settled core slot c = true →
      exec (.fatalHandlerStart core slot) s = .next ((s.abandon core slot c).killCrew core slot)) ∧
    (∀ k, st.recId ≠ none → s.stopWritten c = true → st.ended = false → st.handler = false → s.dev.hold = false →
      (s.abandon core slot c).settled core slot c = true → (s.core core).trapPool ≠ 0 →
      (s.abandon core slot c).fatalSlot core st = some k →
      let target := c.kcode + c.fent.setWidth 64
      ∃ t h, exec (.fatalHandlerStart core slot) s = .next t ∧ t.group? { core := core, slot := k, hnd := true } = some h ∧
        h.crew = slot ∧ h.uid = s.nextId ∧ h.kind = .fatal (c.fent = 0) ∧ h.pc = target.setWidth 48 ∧ h.live = 0xFFFFFFFF ∧
        tget 0 t.greg (gkey s.nextId 0) = c.argp ∧ tget 0 t.greg (gkey s.nextId 1) = c.farg ∧
        tget 0 t.greg (gkey s.nextId 2) = s.dumpd (s.partOf c.asid) ∧ t.mem = s.mem) ∧
    (st.recId ≠ none → st.others = [] → s.stopWritten c = true → st.ended = false → st.handler = true → s.dev.hold = true →
      exec (.fatalHandlerStart core slot) s = .next (s.killCrew core slot)) ∧
    (st.recId ≠ none → s.stopWritten c = true → st.ended = true →
      (∀ e ∈ s.crewGroups core slot, e.2.outbox = []) →
      exec (.fatalHandlerStart core slot) s = .next (s.killCrew core slot))

/-- DUMP in a fatal handler (R327, R328, R330): once the handler's older stores are in place the header is written
with FLAGS and WRITTEN 0; then the sections, as far as the buffer reaches, up to the page of the first fault, which is
recorded; then FLAGS, WRITTEN, SCODE and SVA again, and G[D] says the same; each page is counted once (R297). A header
that cannot be written, over a link that failed among others (R365), is an incomplete dump, with a record. That these
are three steps is the model's reading (log 53: DEDUCED, unsafe). -/
def Claims.DumpSteps : Prop :=
  (∀ (f : Fields) (s t : State) (g : Gid) (r : Group) (x : Form) (d : Bool), r.kind = .fatal d → t.groups = s.groups →
    let me := Party.group r.uid
    let c := s.crewOf g r
    let asid := s.asidOf g r
    let buf := (s.gr r f.a.toNat).toNat
    let size := (s.gr r f.b.toNat).toNat
    let secs := s.dumpSections g.core r.crew c
    let need := 128 + (secs.map List.length).sum
    let waits := fun (w : Wait) => { r with wait := w, ins := f, insSh := shapeDump f, wskip := false }
    let s1 := s.countIssue g (s.useful r f)
    let header := s1.dumpWrite me r.linkBad g.core asid (cellsAt buf (s1.dumpHeader g.core r.crew c secs))
    (Issues (.dump f) x s g r → r.outbox = [] → buf % 64 = 0 → 128 ≤ size →
      (header = .ok t → exec (.dump f) s =
        .next ((t.translatedAll g.core asid [buf, buf + 127]).putGroup g (waits (.dump none)))) ∧
      ∀ fr, header = .fault fr → ∃ u rec_, exec (.dump f) s = .next u ∧ u.mem = s.mem ∧
        GWritten s u r [(f.d.toNat, 0x8000000000000000)] ∧
        u.records = s.records ++ [(s.partOf asid, rec_)] ∧ rec_.code = fr.code) ∧
    (Continues (.dump f) x s g r → r.wait = .dump none →
      let pages := byPages (buf + 128) (secs.flatten.take (min need size - 128))
      (s.dumpPages me r.linkBad g.core asid pages = .upTo t none →
        let fresh := (pages.map (·.1)).filter fun x => decide (x < 2 ^ 64) && (buf + 127) / 4096 < x / 4096
        exec (.dump f) s = .next ((t.translatedAll g.core asid fresh).putGroup g
          (waits (.dump (some (min need size, 0, 0, decide (size < need))))))) ∧
      ∀ va fr, s.dumpPages me r.linkBad g.core asid pages = .upTo t (some (va, fr)) →
        ∃ u rec_, exec (.dump f) s = .next u ∧ u.group? g = some
            { waits (.dump (some (va - buf, fr.code, va, false))) with linkBad := r.linkBad && decide (fr.code = 0) } ∧
          u.records = t.records ++ [(s.partOf asid, rec_)] ∧ rec_.code = fr.code ∧ rec_.va = BitVec.ofNat 64 va ∧
          u.mem = t.mem) ∧
    ∀ written code sva trunc, Continues (.dump f) x s g r → r.wait = .dump (some (written, code, sva, trunc)) →
      s.dumpWrite me r.linkBad g.core asid
        (dumpClosing buf (trunc.toNat + if code = 0 then 0 else 2) written code sva) = .ok t →
      let said : W64 := BitVec.ofNat 64 (written + trunc.toNat * 2 ^ 62 + if code = 0 then 0 else 2 ^ 63)
      ∃ u, exec (.dump f) s = .next u ∧ u.mem = t.mem ∧ GWritten t u r [(f.d.toNat, said)] ∧
        u.group? g = some { r.next f with wait := .none, wskip := false, linkBad := r.linkBad && !bitOf said 63 }) ∧
  (∀ (s : State) (me : Party) (core asid : Nat) (cs : List (Nat × Byte)) (ps : List Nat),
    s.copyPlaces core 0 0 asid false Acc.store (cs.map (·.1)) = .ok ps →
    (∃ j < cs.length, overLink (ps.getD j 0) = true) →
    ∃ fr, s.dumpWrite me true core asid cs = .fault fr ∧ fr.code = Code.addrv) ∧
  (∀ (a flags written scode sva : Nat),
    let cs := dumpClosing a flags written scode sva
    let h := fun o n => leNat (((cs.drop o).take n).map (·.2))
    cs.map (·.1) = List.range' (a + 6) 2 ++ List.range' (a + 16) 10 ++ List.range' (a + 32) 8 ∧
      h 0 2 = flags % 2 ^ 16 ∧ h 2 8 = written % 2 ^ 64 ∧ h 10 2 = scode % 2 ^ 16 ∧ h 12 8 = sva % 2 ^ 64) ∧
  ∀ (s : State) (core slot : Nat) (c : Crew) (secs : List (List Byte)),
    let h := fun o n => leNat (((s.dumpHeader core slot c secs).drop o).take n)
    h 0 4 = 0x455A4455 ∧ h 4 2 = 1 ∧ h 6 2 = 0 ∧ h 8 8 = (128 + (secs.map List.length).sum) % 2 ^ 64 ∧
      h 16 8 = 0 ∧ h 24 2 = 0 ∧ h 32 8 = 0

/-- DUMP and ERRINJ (R327, R328, R338): outside a fatal handler, and into a buffer under 128 bytes, DUMP writes
nothing and says truncated; a misaligned buffer is an incomplete dump, with a record. ERRINJ hangs an engine or
plants a soft error, and says in Qd whether the target took it. -/
def Claims.DumpAndErrorInjection : Prop :=
  ∀ (f : Fields) (s : State) (g : Gid) (r : Group),
    let buf := s.gr r f.a.toNat
    let size := (s.gr r f.b.toNat).toNat
    let target := (s.gr r f.a.toNat).toNat % 256
    let p := (s.gr r f.b.toNat).toNat
    let said := fun (b : Bool) => { r.next f with q := setBit r.q f.d.toNat b }
    let e := s.engine (p % 64)
    ((∀ d, r.kind ≠ .fatal d) ∨ (r.outbox = [] ∧ buf.toNat % 64 = 0 ∧ size < 128) →
      Does (.dump f) s r { after := r.next f, g := [(f.d.toNat, 0x4000000000000000)] }) ∧
    (∀ x d, Issues (.dump f) x s g r → r.kind = .fatal d → r.outbox = [] → buf.toNat % 64 ≠ 0 →
      ∃ t fr, exec (.dump f) s = .next t ∧
      GWritten s t r [(f.d.toNat, 0x8000000000000000)] ∧ t.records = s.records ++ [(s.partOf (s.asidOf g r), fr)] ∧
      fr.code = Code.addrv ∧ t.mem = s.mem ∧ t.vreg = s.vreg) ∧
    (∀ x, Issues (.errinj f) x s g r →
      (target = 4 → exec (.errinj f) s = .next ((s.retired g r f (said true)).putEngine (p % 64) { e with hang := true })) ∧
      (target = 0 → exec (.errinj f) s = .next ((s.retired g r f (said true)).putEngine (p % 64)
        { e with inject := max e.inject (p / 2 ^ 16 % 2 ^ 16) })) ∧
      (target = 1 → exec (.errinj f) s = .next ((s.retired g r f (said true)).putEngine (p % 64)
        { e with injected := e.injected ++ [p / 2 ^ 8 % 4] })) ∧
      (target = 2 → s.hasMemory p = true → exec (.errinj f) s = .next
        (if (tfind s.softErr (s.home p / 16)).isSome then s.retired g r f (said true)
         else { s.retired g r f (said true) with softErr := tput s.softErr (s.home p / 16) false })) ∧
      (target = 3 → s.hasMemory p = true → exec (.errinj f) s =
        .next { s.retired g r f (said true) with softErr := tput s.softErr (s.home p / 16) true }) ∧
      (4 < target ∨ (target = 2 ∨ target = 3) ∧ s.hasMemory p = false → exec (.errinj f) s =
        .next (s.retired g r f (said false))))

/-- Fatal handlers, dumps and error injection (R325 to R328, R338): once every group of a stopped crew has stopped
its record is raised, then the fatal handler starts, and after it the crew is killed; DUMP outside a fatal
handler or into a buffer too small writes nothing; ERRINJ says in Qd whether its target took the error. -/
def Obligations.Recovery : Prop :=
  Claims.FatalHandler ∧ Claims.DumpSteps ∧ Claims.DumpAndErrorInjection

/-! ### The matrix sequencer and engine -/

/-- The sequencer's own instructions (R174 to R176, R199 to R204): arithmetic in M registers, jumps and loops
on MCC, configuration, MTLD from the crew's scratch, one unit a step in an order left open (R209), waiting on operations
and barriers, status. Only the sequencer's state changes, but for the arrival. That MTLD's OFF is not signed is the
model's choice (log 126). -/
def Obligations.SequencerInstructions : Prop :=
  ∀ (f : Fields) (s : State) (core slot : Nat) (c : Crew), s.actor = .seq core slot → s.crew? core slot = some c →
    let q := c.seqr
    let w := f.width
    let A := valOf w f.signed (q.m.getD f.a.toNat 0)
    let b := if f.w64 then q.m.getD f.b.toNat 0 else Fields.immW f w f.signed
    let B := valOf w f.signed b
    let a := q.m.getD f.a.toNat 0
    let n := q.m.getD f.d.toNat 0
    let fill := fun (x : W64) => if w = 32 then
      (if f.signed then (x.setWidth 32).signExtend 64 else (x.setWidth 32).setWidth 64) else x
    let next : Seqr := { q with mpc := nextPc q.mpc f.len }
    let rel : Seqr := { q with mpc := q.mpc + f.i32.signExtend 48 }
    let becomes := fun (i : Instr) (q' : Seqr) =>
      exec i s = .next (s.modCrew core slot fun c => { c with seqr := q' })
    let result := fun (x : W64) (cc : BitVec 4) =>
      { next with m := q.m.set f.d.toNat (fill x), mcc := if f.ccw then cc else q.mcc }
    let num := fun (x : Int) => narrow w f.signed f.sat x
    let cond := match f.fnBits 3 0 with
      | 0 => true
      | k + 1 => q.mcc.getLsbD (k / 2) == (k % 2 == 0)
    let from_ := a + BitVec.ofNat 64 (f.immBits 23 0)
    let count := f.immBits 27 24 + 1
    let bar := c.bars.getD f.a.toNat {}
    let e := s.engine (clusterIx core)
    let one := e.failed.length = 1
    let status : W64 := BitVec.ofNat 64 (q.sticky.toNat + (e.dup.toNat + if one then 2 else 0) * 2 ^ 16 +
      (if one then e.failed.headD 0 else 0) * 2 ^ 18 + s.busyStreams c.uid * 2 ^ 32)
    becomes (.seqMovi f) (result (Fields.immW f w f.signed) (ccLogic w (Fields.immW f w f.signed))) ∧
    becomes (.seqIadd f) (result (num (A + B)) (ccAdd w a b 0 (num (A + B)))) ∧
    becomes (.seqIsub f) (result (num (A - B)) (ccSub w a b 0 (num (A - B)))) ∧
    becomes (.seqIcmp f) { next with mcc := ccSub w a b 0 (narrow w f.signed false (A - B)) } ∧
    becomes (.seqBra f) (if cond then rel else next) ∧
    becomes (.seqLoop f) (if n = 0 then next
      else { (if n - 1 = 0 then next else rel) with m := q.m.set f.d.toNat (n - 1) }) ∧
    becomes (.seqExit f) { next with running := false } ∧
    (from_.toNat % 8 = 0 → from_.toNat + 8 * count ≤ c.hold.sg * 16384 →
      s.scoreboarded c.uid from_.toNat (8 * count) = false → f.d.toNat + count ≤ 16 → q.m.length = 16 →
      let unit := fun (t : Nat) => (from_.toNat + 8 * t) / 16
      (∃ t < count, tfind q.got (unit t) = none) →
      ∃ u q', (∃ t < count, u = unit t) ∧ tfind q.got u = none ∧
        exec (.mtld f) s = .next (State.modCrew { s with freeCtr := s.freeCtr + 1 } core slot fun c => { c with seqr := q' }) ∧
        let got := tput q.got u (s.sbytes c.uid (16 * u) 16)
        ((∃ t < count, tfind got (unit t) = none) → q' = { q with got := got }) ∧
        ((∀ t < count, tfind got (unit t) ≠ none) → q' = { next with m := q'.m, got := [] } ∧
          (∀ t < count, q'.m.getD (f.d.toNat + t) 0 =
            BitVec.ofNat 64 (leNat ((((tfind got (unit t)).getD []).drop ((from_.toNat + 8 * t) % 16)).take 8))) ∧
          ∀ k, k < f.d.toNat ∨ f.d.toNat + count ≤ k → q'.m.getD k 0 = q.m.getD k 0)) ∧
    becomes (.mcfgFmt f) { next with mfmt := f.imm.setWidth 16 } ∧
    (fmtReserved (a.setWidth 16) = false → becomes (.mcfgFmtm f) { next with mfmt := a.setWidth 16 }) ∧
    becomes (.mcfgGrp f) { next with mgrp := f.imm.setWidth 16 } ∧
    ((∀ x ∈ s.ops, x.2.uid ≠ c.uid) → becomes (.msync f) next) ∧
    ((∃ x ∈ s.ops, x.2.uid = c.uid) → exec (.msync f) s = .next s) ∧
    (bar.init = true → bar.arr ≠ bar.exp → (bar.arr + 1 ≠ bar.exp ∨ bar.pend ≠ 0) →
      ∃ t, exec (.mbarArv f) s = .next t ∧ t = { s with crews := t.crews } ∧ t.crew? core slot =
        some { c with bars := c.bars.set f.a.toNat { bar with arr := bar.arr + 1 }, seqr := next }) ∧
    (bar.init = true → bar.phase ≠ (f.immBits 0 0 == 1) → becomes (.mbarWait f) next) ∧
    (bar.init = false ∨ bar.phase = (f.immBits 0 0 == 1) → exec (.mbarWait f) s = .next s) ∧
    becomes (.mstat f) { next with m := q.m.set f.d.toNat status, sticky := if f.fnIs 1 then 0 else q.sticky }

/-- Posting (R182, R195 to R198): a pass or silo operation whose checks hold joins the engine's entries with
the M registers, formats and groups of that moment, and the sequencer goes on; a pass waits for a stream of the
crew's. A format the engine does not take is FMTX, a register outside a group's granules MPARM.
That MDRAIN's table is a read of scratch, that a silo operation into scratch waits for an entry of the range scoreboard,
and that a strided range is one span, are the model's choices (logs 63, 91 and 112). -/
def Obligations.MatrixPosting : Prop :=
  ∀ (f : Fields) (s : State) (core slot : Nat) (c : Crew), s.actor = .seq core slot → s.crew? core slot = some c →
    let q := c.seqr
    let m := fun (x : BitVec 8) => q.m.getD x.toNat 0
    let op := fun (kind : Nat) => ({ core := core, crew := slot, uid := c.uid, asid := c.asid, pc := q.mpc, kind := kind,
                                     fields := f, ops := [m f.d, m f.a, m f.b, m f.c], mfmt := q.mfmt } : Op)
    let goesOn := fun (t : State) => t.modCrew core slot fun c => { c with seqr := { q with mpc := nextPc q.mpc f.len } }
    let posts := fun (i : Instr) (o : Op) =>
      exec i s = .next (goesOn { s with nextId := s.nextId + 1, ops := tput s.ops s.nextId o })
    let group := fun (k : Nat) => s.matrixGroup core slot c (q.mgrp.toNat / 2 ^ (4 * k) % 16)
    let lo := f.immBits 10 0
    let pass := fun (i : Instr) (kind : Nat) =>
      let o := op kind
      (s.busyStreams c.uid < c.hold.ms → passFmtx q.mfmt (kind = 1) (f.immBits 41 40) = false →
        lo + 128 * (f.immBits 39 38 + 1) ≤ 384 * c.hold.ms → (m f.a).toNat % 16 = 0 → (m f.d).toNat % 2 ^ 32 % 16 = 0 →
        o.k ≤ 256 * o.perReg → (kind = 1 → o.k % scaleLen (geomOf q.mfmt) = 0) →
        -- the last register of B, and of scales, lies in each group's granules, or it is MPARM; a K of 0 counts too
        let last := (o.vb + (o.k + o.perReg - 1) / o.perReg - 1) ::
          if kind = 1 then [o.vs + (o.k / scaleLen (geomOf q.mfmt) + 3) / 4 - 1] else []
        ∀ gs : List Group, (List.range 4).map group = gs.map some →
        ((∀ r ∈ gs, ∀ n ∈ last, n < 32 * r.gran) →
          posts i { o with uids := gs.map (·.uid), held := o.bRegs, sread := o.passReads }) ∧
        ((∃ r ∈ gs, ∃ n ∈ last, 32 * r.gran ≤ n) →
          exec i s = .next (s.stopCrew core slot none { code := Code.mparm, pc := q.mpc }))) ∧
      (c.hold.ms ≤ s.busyStreams c.uid → exec i s = .next s) ∧
      (s.busyStreams c.uid < c.hold.ms → passFmtx q.mfmt (kind = 1) (f.immBits 41 40) = true →
        exec i s = .next (s.stopCrew core slot none { code := Code.fmtx, pc := q.mpc }))
    let within := lo + (f.immBits 26 16 + 1) ≤ 384 * c.hold.ms
    let aligned := (m f.a).toNat % 16 = 0 ∧ (m f.b).toNat % 2 ^ 32 % 16 = 0
    let span := fun (kind : Nat) =>
      let o := op kind
      ((m f.a).toNat, (m f.a).toNat + f.immBits 26 16 * ((m f.b).toNat % 2 ^ 32) + o.ncol * o.ow)
    let table := fun (o : Op) => [((m f.c).toNat + 16 * o.col0, (m f.c).toNat + 16 * (o.col0 + o.ncol))]
    let room := s.scoreEntries core < 32
    pass (.mma f) 0 ∧ pass (.mmas f) 1 ∧
    (within → posts (.mzero f) (op 2)) ∧ (within → posts (.mfill f) (op 3)) ∧
    (within → aligned → ((op 4).rq = true → (m f.c).toNat % 16 = 0) → (f.fnIs 1 = true → room) → posts (.mdrain f) { op 4 with
      sread := if (op 4).rq then table (op 4) else [], sdst := if f.fnIs 1 then some (span 4) else none }) ∧
    (within → aligned → room → posts (.mcpyOut f) { op 5 with sdst := some (span 5) }) ∧
    (within → aligned → ¬ room → exec (.mcpyOut f) s = .next s) ∧
    (within → aligned → posts (.mcpyIn f) { op 6 with sread := [span 6] })

/-- A segment's residues give its integer back (R140 to R142): the sum of products of a segment, recovered from
its sums mod 255, 256 and 257, is exact within the range of the three moduli. -/
def Obligations.SegmentsAreExact : Prop :=
  ∀ as bs : List Int, as.length = bs.length →
    let sum := (List.zipWith (· * ·) as bs).sum
    sum < 8388480 → -8388480 ≤ sum → segX as bs = sum

/-- The arbiter and the watchdog whatever else is posted (R183, R334): of an engine's ready passes that of the highest
priority and age, the first posted among equals, takes its arrays where they fit beside those in use, and the other
ready ones age; an engine with a pass that hangs is reset.
Which engine's watchdog expires first is the model's choice (log 4: DESIGN CHOICE, safe). -/
def Claims.ArbiterAndWatchdog : Prop :=
  (∀ (s : State) (engine id : Nat) (o : Op), tsorted s.ops = true →
    let e := s.engine engine
    let mine := s.ops.filter fun x => x.2.isPass && clusterIx x.2.core = engine
    let ready := mine.filter fun x => !x.2.granted && x.2.stall.isNone && s.opReady x.1 x.2
    let rank := fun (x : Nat × Op) => s.opRank x.2
    e.resetting = false → e.unusable = false → (id, o) ∈ ready →
    (∀ x ∈ ready, (rank x).1 < (rank (id, o)).1 ∨ (rank x).1 = (rank (id, o)).1 ∧
      ((rank x).2 < (rank (id, o)).2 ∨ (rank x).2 = (rank (id, o)).2 ∧ id ≤ x.1)) →
    ((mine.filter fun x => x.2.granted).map fun x => x.2.nrows / 128).sum + o.nrows / 128 ≤ 4 →
    ∃ t, exec (.arbiterGrant engine) s = .next t ∧ t = { s with ops := t.ops, engines := t.engines } ∧
      t.engine engine = { e with hang := false } ∧ (∀ n, n ≠ engine → t.engine n = s.engine n) ∧
      tfind t.ops id = some { o with granted := true, hang := e.hang } ∧
      (∀ x ∈ ready, x.1 ≠ id → tfind t.ops x.1 = some { x.2 with age := x.2.age + 1 }) ∧
      ∀ k, (∀ x ∈ ready, x.1 ≠ k) → tfind t.ops k = tfind s.ops k) ∧
  ∀ (s : State) (id : Nat) (o : Op), tfind s.ops id = some o → o.isPass = true → o.granted = true → o.hang = true →
    clusterIx o.core ∈ s.hungEngines ∧
    ∃ n ∈ s.hungEngines, exec .engineWatchdogExpiry s = .next (State.engineReset { s with freeCtr := s.freeCtr + 1 } n)

/-- The engine's events (R183 to R189, R195, R203, R205, R334 to R336): a grant gives a ready pass its arrays; each
segment of a granted pass is accumulated into every element of its rows, in order, unless no pair of its computations
agrees, when its engine hangs; a pass, MZERO, MFILL, MDRAIN or MCPY.out that has finished leaves, and what wrote whole
rows clears their poison; the watchdog resets an engine that hangs, and a self-test brings it back. How many
computations mismatch, when the watchdog may expire, and the flags of a non-finite group under a bad scale, are the
model's (logs 28, 29 and 103). -/
def Obligations.EngineEvents : Prop :=
  Claims.ArbiterAndWatchdog ∧
  (∀ (s : State) (id : Nat) (o : Op), s.ops = [(id, o)] → o.isPass = true →
    let e := s.engine (clusterIx o.core)
    o.granted = false → o.stall = none → s.opReady id o = true → o.nrows ≤ 512 → e.resetting = false → e.unusable = false →
    exec (.arbiterGrant (clusterIx o.core)) s =
      .next (State.putEngine { s with ops := [(id, { o with granted := true, hang := e.hang })] } (clusterIx o.core)
        { e with hang := false })) ∧
  (∀ (s : State) (id : Nat) (o : Op) got, tfind s.ops id = some o → o.isPass = true → o.granted = true → o.hang = false →
    o.pos < o.nseg →
    let k := o.pos * segLen o.mfmt
    let n := min (segLen o.mfmt) (o.k - k)
    let square := geomOf o.mfmt = 3
    s.aUnits o k n = .ok got → (square → k % 128 ≠ 0 → o.bbuf.length = 128) →
    -- under strip-square every column of B and its scale are those read with the square's first segment (R139)
    let b := fun j =>
      let sq := if k % 128 = 0 then s.bCol o j k 128 else o.bbuf.getD j ([], 0)
      if square then ((sq.1.drop (k % 128)).take n, sq.2) else s.bCol o j k n
    let scale := fun (x : Nat) => if o.kind = 1 then some x else none
    let af := bitsOf o.mfmt 3 0
    let sf := bitsOf o.mfmt 13 12
    let row := fun i =>
      let x := o.aRow got i k n
      segOp af sf (unpackElems (efBits af) n x.2) (scale x.1)
    let col := fun j => segOp (bitsOf o.mfmt 7 4) sf (b j).1 (scale (b j).2)
    let key := fun i j => siloKey o.uid (o.rows.1 + i) j
    let acc := fun i j => if o.acc || o.pos != 0 then tget 0 s.silo (key i j) else 0
    ∃ t o', exec (.passSegment id) s = .next t ∧ tfind t.ops id = some o' ∧ t.vreg = s.vreg ∧ t.mem = s.mem ∧
      (let e := s.engine (clusterIx o.core)
       -- how many of the segment's computations mismatch: no pair of three agrees, after a computation and its repeat
       -- where the engine does not run in duplicate mode
       let bad := (Config.freeValue s.freeCtr).toNat % 8 + if 0 < e.inject then 1 else 0
       let hangs := (if e.dup then 3 else 5) ≤ bad
       (t.engine (clusterIx o.core)).dup = (e.dup || decide (2 ≤ bad)) ∧
       (t.engine (clusterIx o.core)).inject = e.inject - 1 ∧
       (hangs → o'.hang = true ∧ o'.pos = o.pos ∧ t.silo = s.silo) ∧
       (¬ hangs → o'.hang = false ∧ o'.pos = o.pos + 1 ∧
        (∀ i < o.nrows, ∀ j < 128, tget 0 t.silo (key i j) =
          (accumulate (o.fields.immBits 41 40) (acc i j) (row i) (col j)).1) ∧
        ∀ x, (∀ i < o.nrows, ∀ j < 128, x ≠ key i j) → tget 0 t.silo x = tget 0 s.silo x))) ∧
  -- a beat of a granted pass reads one unit of A ahead of its segment (R138, R219)
  (∀ (s : State) (id k : Nat) (o : Op) u, tfind s.copies id = none → tfind s.ops id = some o → o.isPass = true →
    o.granted = true → o.hang = false → k / 4096 < o.nrows → k % 4096 * o.unitLen < o.k →
    o.pos * segLen o.mfmt < (k % 4096 + 1) * o.unitLen → tfind o.got k = none → s.aUnit o (k / 4096) (k % 4096) = .ok u →
    ∃ t o', exec (.beat id k) s = .next t ∧ tfind t.ops id = some o' ∧ o' = { o with got := o'.got, seen := o'.seen } ∧
      tfind o'.got k = some u ∧ t.silo = s.silo ∧ t.mem = s.mem ∧ t.vreg = s.vreg) ∧
  (∀ (s : State) (id : Nat) (o : Op), tfind s.ops id = some o → tsorted s.groups = true →
    (∀ e ∈ s.crewGroups o.core o.crew, e.2.live ≠ 0 ∧ e.2.kind = .own) →
    o.fields.immBits 43 43 = 0 →
    let cleared := fun (t : State) =>
      (∀ i < o.nrows, tget false t.poison (o.uid * 2048 + (o.rows.1 + i)) = false) ∧
      ∀ k, (∀ i < o.nrows, k ≠ o.uid * 2048 + (o.rows.1 + i)) → tget false t.poison k = tget false s.poison k
    let word := fun (t : State) (x : W32) => (∀ i < o.nrows, ∀ j < o.ncol,
        tget 0 t.silo (siloKey o.uid (o.rows.1 + i) (o.col0 + j)) = x) ∧
      ∀ k, (∀ i < o.nrows, ∀ j < o.ncol, k ≠ siloKey o.uid (o.rows.1 + i) (o.col0 + j)) →
        tget 0 t.silo k = tget 0 s.silo k
    (o.isPass = true → o.granted = true → o.hang = false → o.nseg ≤ o.pos → o.nseg ≠ 0 →
      ∃ t, exec (.passCompletion id) s = .next t ∧ t = { s with ops := tdel s.ops id, poison := t.poison } ∧
        if o.acc then t.poison = s.poison else cleared t) ∧
    ((o.kind = 2 ∨ o.kind = 3) → s.opReady id o = true →
      ∃ t, exec (.siloOperationCompletion id) s = .next t ∧
        t = { s with ops := tdel s.ops id, silo := t.silo, poison := t.poison } ∧
        word t (if o.kind = 2 then 0 else (o.ops.getD 1 0).setWidth 32) ∧
        if o.ncol = 128 then cleared t else t.poison = s.poison) ∧
    ((o.kind = 4 ∨ o.kind = 5) → o.did.length = o.beats →
      exec (.siloOperationCompletion id) s = .next { s with ops := tdel s.ops id }) ∧
    (o.kind = 6 → o.did.length = o.beats → ∃ t, exec (.siloOperationCompletion id) s = .next t ∧
      t = { s with ops := tdel s.ops id, poison := t.poison } ∧ if o.ncol = 128 then cleared t else t.poison = s.poison)) ∧
  (∀ (s : State) (engine : Nat) (failed : List Nat),
    let e := s.engine engine
    e.resetting = true → ∃ t, exec (.engineResume engine failed) s = .next t ∧ t.ops = s.ops ∧ t.crews = s.crews ∧
      let e' := t.engine engine
      e'.resetting = false ∧ e'.dup = false ∧ e'.resets = e.resets ∧
        (∀ p, p ∈ e'.failed ↔ p < 4 ∧ (p ∈ failed ∨ p ∈ e.injected)) ∧ (e'.unusable = true ↔ 2 ≤ e'.failed.length)) ∧
  (∀ (s : State) (id : Nat) (o : Op) (c : Crew), s.ops = [(id, o)] → o.isPass = true → o.granted = true → o.hang = true →
    s.crew? o.core o.crew = some c → c.stop = none →
    let engine := clusterIx o.core
    ∃ t c' st, exec .engineWatchdogExpiry s = .next t ∧ t.ops = [] ∧ (t.engine engine).resetting = true ∧
      (t.engine engine).resets = min ((s.engine engine).resets + 1) 65535 ∧
      (∀ i < o.nrows, tget false t.poison (o.uid * 2048 + (o.rows.1 + i)) = true) ∧
      t.crew? o.core o.crew = some c' ∧ c'.stop = some st ∧ st.frec.code = Code.engreset ∧ st.frec.pc = o.pc ∧
      t.mem = s.mem ∧ t.silo = s.silo)

/-! ### Watching, halting, inspecting, stepping -/

/-- BKPT and the predicates' own instructions (R340, R345, R347, R353): BKPT halts its group past itself with a record,
and with `.crew` the halt goes to the crew's others; WPSET, WPCLR and WPRD act on a predicate that is free or of the
group's ASID, and else say so or read 0; a halt of the sheaf reaches a crew when it arrives. -/
def Claims.BreakpointInstructions : Prop :=
  (∀ (f : Fields) (s : State) (g : Gid) (r : Group),
    let halted : Group := { r.next f with halt := { cause := if r.bcast.any fun b => b.2 = 7 then 7 else 5 },
                                          bcast := none, wskip := false, skid := match r.bcast with | some (n, _) => n + 1 - r.before | none => 0 }
    let asid := (s.crewOf g r).asid
    let record := fun (t : State) => ∃ fr, t.records = s.records ++ [(s.partOf asid, fr)] ∧ fr.code = Code.bkpt ∧
      fr.va = f.imm ∧ fr.pc = r.pc ∧ fr.asid = asid
    let ws := (s.core g.core).watch
    let w := ws.getD f.imm.toNat {}
    let mine := fun (w : WPred) => w.owned = false ∨ w.owner = asid
    let said := fun (b : Bool) => s.retired g r f { r.next f with q := setBit r.q f.d.toNat b }
    let put := fun (x : WPred) => (said true).modCore g.core fun c => { c with watch := c.watch.set f.imm.toNat x }
    let ctl := s.gr r f.a.toNat
    let rd := ws.getD (f.immBits 3 0) {}
    (∀ x, Issues (.bkpt f) x s g r → r.halt.cause = 0 → r.inHandler = false →
      ∃ t, exec (.bkpt f) s = .next t ∧ t.group? g = some halted ∧ record t ∧ t.vreg = s.vreg ∧ t.mem = s.mem ∧
        ∀ h, gidKey h ≠ gidKey g → t.group? h = s.group? h) ∧
    -- in a handler group it is HFAULT, as a fault or trap of any class is (R314, R322)
    (r.inHandler = true → ∀ x, Issues (.bkpt f) x s g r →
      exec (.bkpt f) s = .next ((s.countIssue g (s.useful r x.f)).crewFatal g r { code := Code.bkpt, va := f.imm })) ∧
    (∀ x, Issues (.bkptCrew f) x s g r → r.halt.cause = 0 → r.inHandler = false → g.slot < 32 →
      ∃ t, exec (.bkptCrew f) s = .next t ∧ t.group? g = some halted ∧ record t ∧ t.vreg = s.vreg ∧ t.mem = s.mem ∧
        ∀ h rh, h ≠ g → h.core = g.core → h.slot < 32 → s.group? h = some rh → rh.crew = r.crew → rh.halt.cause = 0 →
          rh.bcast = none →
          ∃ rh', t.group? h = some rh' ∧ if rh.wait.midway = false ∧ (rh.wait ≠ .none ∨ rh.traps ≠ []) then rh'.halt.cause = 3
            else rh'.bcast = some (0, 3)) ∧
    (∀ x, Issues (.wpset f) x s g r → exec (.wpset f) s = .next
      (if mine w ∧ ctlOk ws f.imm.toNat ctl = true
       then put { ctl := ctl, opa := s.gr r f.b.toNat, opb := s.gr r f.c.toNat, owned := true, owner := asid }
       else said false)) ∧
    (∀ x, Issues (.wpclr f) x s g r → exec (.wpclr f) s = .next (if mine w then put {} else said false)) ∧
    (∀ x, Issues (.wprd f) x s g r → Completes (.wprd f) x s g r { after := r.next f, g := [(f.d.toNat,
      if mine rd then (match f.immBits 5 4 with
        | 0 => rd.ctl
        | 1 => rd.opa
        | 2 => rd.opb
        | _ => BitVec.ofNat 64 (rd.count + rd.owner * 2 ^ 32 + rd.owned.toNat * 2 ^ 44 + rd.matched.toNat * 2 ^ 45))
      else 0)] })) ∧
  ∀ (s : State) (core slot : Nat) (c : Crew), slot ∈ (s.core core).sheafHalts → s.crew? core slot = some c →
    ∃ t, exec (.sheafHaltArrival core slot) s = .next t ∧ t.mem = s.mem ∧ t.vreg = s.vreg ∧
      (∃ c', t.crew? core slot = some c' ∧ c'.seqr.halted = true) ∧
      ∀ h rh, h.core = core → h.slot < 32 → s.group? h = some rh → rh.crew = slot → rh.halt.cause = 0 → rh.bcast = none →
        ∃ rh', t.group? h = some rh' ∧
          if rh.wait.midway = false ∧ (rh.wait ≠ .none ∨ rh.traps ≠ []) then rh'.halt.cause = 4 else rh'.bcast = some (0, 4)

/-- Which predicates match an instruction, given what each source of one evaluation point offers (R340 to R343): the
comparators of R342; a predicate that is enabled and of the group's ASID matches in the lanes that its filters and its
comparator take, no helper lane among them, and a chained one only where its predecessor does. -/
def Claims.PredicateMatches : Prop :=
  (∀ (w : Nat) (x a b : W64),
    let is := fun (c : Nat) (p : Prop) => wcmp c w x a b = true ↔ p
    is 0 (x = a) ∧ is 1 (x ≠ a) ∧ is 2 (x.toNat < a.toNat) ∧ is 3 (a.toNat ≤ x.toNat) ∧
    is 4 ((x.setWidth w).toInt < a.toInt) ∧ is 5 (a.toInt ≤ (x.setWidth w).toInt) ∧
    is 6 (a.toNat ≤ x.toNat ∧ x.toNat ≤ b.toNat) ∧ is 7 (x.toNat < a.toNat ∨ b.toNat < x.toNat) ∧
    is 8 (x &&& b = a) ∧ is 9 (x &&& a ≠ 0)) ∧
  ∀ (s : State) (g : Gid) (r : Group) (srcs : List WSrc),
    let w := fun n => (s.core g.core).watch.getD n {}
    let lanes := fun n => match srcs.find? fun x => x.src = (w n).ctl.toNat / 2 ^ 56 % 8 with
      | some x => x.lanes.filter fun l => !r.hlp.getLsbD l && (w n).ctl.getLsbD l && (w n).ctl.getLsbD (32 + r.homeGrp l % 16) &&
          wcmp ((w n).ctl.toNat / 2 ^ 52 % 16) x.width (x.x l) (w n).opa (w n).opb
      | none => []
    let own := fun n => if (w n).ctl.getLsbD 63 = true ∧ (w n).owned = true ∧ (w n).owner = (s.crewOf g r).asid
      then lanes n else []
    ∃ hit : Nat → Bool,
      (∀ n < 16, hit n = true ↔ own n ≠ [] ∧ ((w n).ctl.getLsbD 59 = true → n ≠ 0 ∧ hit (n - 1) = true)) ∧
      (s.watchMatches g r srcs).map (fun m => (m.n, m.act, m.lanes)) =
        ((List.range 16).filter hit).map fun n => (n, (w n).ctl.toNat / 2 ^ 60 % 8, own n)

/-- What matching predicates do to an instruction (R341, R343, R346), for ST before its access and LD after its
completion: each adds one to its COUNT. A halt before the access leaves the instruction without effect, the group at
it with WSKIP; one after it lets the results stand; either writes a record, and its action says who halts. A trap
before the access keeps the matching lanes from it; they trap with WATCH, the lowest predicate's number and address in
the frame. The instruction that WSKIP lets through is not evaluated before its access. -/
def Claims.PredicateActions : Prop :=
  ∀ (f : Fields) (s : State) (g : Gid) (r : Group) x,
    let n := tyBytes f.ty
    let ls := s.contrib r f
    let addr := fun l => s.addr r f true l
    let data := fun l => s.storeData r f l
    let asid := s.asidOf g r
    let chkS := fun l => s.chkWord g r (addr l) n Acc.store true
    let chkL := fun l => s.chkGlobal g.core asid (addr l) n n Acc.load false
    let act := s.activeLanes r f
    let pc : WSrc := { src := 7, lanes := allLanes.filter r.exec.getLsbD, x := fun _ => r.pc.setWidth 64 }
    let flags : List WSrc := [{ src := 4, lanes := act, x := fun _ => 0 }, { src := 5, lanes := act, x := fun _ => 0 }]
    let stores := s.watchMatches g r [{ src := 1, lanes := ls, x := addr },
      { src := 3, lanes := ls, x := fun l => BitVec.ofNat 64 (leNat (data l) % 2 ^ 64), width := 8 * min n 8 }, pc]
    let loads := s.watchMatches g r [{ src := 0, lanes := ls, x := addr }, pc]
    let value := fun l => (s.loadUnit g r n (chkL l)).1
    let found : WSrc :=
      { src := 2, lanes := ls, x := fun l => BitVec.ofNat 64 (leNat (value l) % 2 ^ 64), width := 8 * min n 8 }
    let loaded := s.watchMatches g r (found :: flags)
    let counted := fun (t : State) (ms : List WMatch) => ∀ k < 16, (t.core g.core).watch.getD k {} =
      let w := (s.core g.core).watch.getD k {}
      if ∃ m ∈ ms, m.n = k then { w with matched := true, count := min (w.count + 1) 0xFFFFFFFF } else w
    -- the strongest halting action, and the lowest predicate with it
    let decides := fun (ms : List WMatch) (m : WMatch) => m ∈ ms ∧ 2 ≤ m.act ∧ m.act ≤ 5 ∧
      ∀ k ∈ ms, 2 ≤ k.act → k.act ≤ 5 → k.act < m.act ∨ k.act = m.act ∧ m.n ≤ k.n
    let noHalt := fun (ms : List WMatch) => ∀ m ∈ ms, m.act < 2 ∨ 5 < m.act
    let trapped := fun (ms : List WMatch) => allLanes.filter fun l => ms.any fun m => m.act == 1 && m.lanes.contains l
    let traps := fun (ms : List WMatch) (ts : List TrapLane) =>
      ts.map (fun t => (t.lane, t.code, t.pc)) = (trapped ms).map (fun l => (l, Code.watch, r.pc)) ∧
      ∀ t ∈ ts, ∃ m ∈ ms, m.act = 1 ∧ t.lane ∈ m.lanes ∧ (∀ k ∈ ms, k.act = 1 → t.lane ∈ k.lanes → m.n ≤ k.n) ∧
        t.detail = BitVec.ofNat 32 m.n ∧ t.addr = m.addr t.lane
    let halts := fun (t : State) (m : WMatch) (r' : Group) =>
      let focus := if m.act = 2 then m.lanes.headD 0 else 0
      let halt : HaltInfo :=
        { cause := if m.act = 2 then 1 else 2, hlanes := laneMask m.lanes, focus := focus, wpn := m.n }
      t.group? g = some { r' with skid := 0, halt := halt } ∧
      (∃ fr, t.records = s.records ++ [(s.partOf asid, fr)] ∧ fr.code = Code.whalt ∧ fr.pc = r.pc ∧
        fr.va = m.addr (m.lanes.headD 0) ∧ fr.lanes = laneMask m.lanes ∧ fr.who = whoOf g r.crew (m.lanes.headD 0)) ∧
      ∀ h rh, gidKey h ≠ gidKey g → h.core = g.core → s.group? h = some rh → rh.crew = r.crew → h.slot < 32 →
        rh.halt.cause = 0 → rh.bcast = none → rh.stepper = none → ∃ rh', t.group? h = some rh' ∧
          if m.act < 4 then rh' = rh
          else if rh.wait.midway = false ∧ (rh.wait ≠ .none ∨ rh.traps ≠ []) then rh'.halt.cause = 3
          else rh'.bcast = some (0, 3)
    act ≠ [] → g.slot < 32 → s.untraced g r →
    ((∀ l ∈ ls, (chkS l).fault?.isNone ∧ s.lockedAt g r n (chkS l) (addr l) = false) → s.watchMatches g r flags = [] →
      let put := fun (go : List Nat) => r.outbox ++ (storeEntries (go.flatMap fun l =>
        laneCells l (chkS l) (addr l).toNat (data l))).map fun e => { e with pc := r.pc }
      (IssuesWatched (.st f) x s g r false →
        (noHalt stores → ∃ t ts, exec (.st f) s = .next t ∧ t.mem = s.mem ∧ t.vreg = s.vreg ∧ counted t stores ∧
          traps stores ts ∧
          let go := ls.filter fun l => l ∉ trapped stores
          t.group? g = some { r.next f with wskip := false, traps := r.traps ++ ts, outbox := put go }) ∧
        (∀ m, decides stores m → ∃ t, exec (.st f) s = .next t ∧ t.mem = s.mem ∧ t.vreg = s.vreg ∧ t.preg = s.preg ∧
          t.greg = s.greg ∧ counted t stores ∧ halts t m { r with wskip := true })) ∧
      (IssuesWatched (.st f) x s g r true → ∃ t, exec (.st f) s = .next t ∧ t.mem = s.mem ∧ t.vreg = s.vreg ∧
        counted t [] ∧ t.group? g = some { r.next f with wskip := false, outbox := put ls })) ∧
    (IssuesWatched (.ld f) x s g r false → loads = [] → act = ls →
      (∀ l ∈ ls, s.loadBlocked r n (chkL l) = false ∧ LaneClear s g r n (chkL l) (addr l) ∧
        ∀ pa, chkL l = .ok pa → pa % 64 + n ≤ 64) →
      let written := fun t => VWritten s t r ls (fun l => pieces f.d.toNat (widen f.ty (value l)))
      (noHalt loaded → ∃ t ts, exec (.ld f) s = .next t ∧ t.mem = s.mem ∧ written t ∧ counted t loaded ∧
        traps loaded ts ∧ t.group? g = some { r.next f with wskip := false, traps := r.traps ++ ts }) ∧
      ∀ m, decides loaded m → ∃ t, exec (.ld f) s = .next t ∧ t.mem = s.mem ∧ written t ∧ counted t loaded ∧
        halts t m { r.next f with wskip := false })

/-- Breakpoints and watch predicates (R340 to R343, R345 to R347, R353): the instructions that set them, which
predicates match, and what a match does.
What a helper lane and a lane of a new group of REPACK are filtered by, and which lanes sources 4 and 5 take, are the
model's readings (logs 18 and 38). -/
def Obligations.BreakpointsAndPredicates : Prop :=
  Claims.BreakpointInstructions ∧ Claims.PredicateMatches ∧ Claims.PredicateActions

/-- HRD and HWR (R348, R350): what a selector names, of every class, is read or written in a halted group of the same
ASID; a group that runs is refused, with 0 in Qd, and HWR also what is read-only or breaks its rule.
A register that a pending result of the group will write makes both wait. HWR of a P register and of LIVE by the
model's readings (logs 58 and 95). -/
def Obligations.Inspection : Prop :=
  ∀ (f : Fields) (s : State) (g : Gid) (r : Group) (t : Target),
    s.target? (s.gr r f.a.toNat) = some t → t.part = none → gidKey t.g ≠ gidKey g →
    (s.crewOf t.g t.r).asid = (s.crewOf g r).asid →
    let waits := t.pending (hselOf f.imm) = true
    let cls := f.imm.toNat / 2 ^ 28 % 16
    let lane := f.imm.toNat / 2 ^ 16 % 32
    let idx := f.imm.toNat % 256
    let halted := t.r.halt.cause ≠ 0 ∧ t.r.stepper = none
    let holds := t.r.home lane ≠ 0 ∧ t.r.orig = []
    let reads := fun (x : W64) => ¬ waits → ∀ y, Issues (.hrd f) y s g r → ∃ u, exec (.hrd f) s = .next u ∧
      GWritten s u r [(f.d.toNat, x)] ∧ u.group? g = some { r.next f with q := setBit r.q f.c.toNat true, wskip := false } ∧
      u.vreg = s.vreg ∧ u.mem = s.mem ∧ u.group? t.g = some t.r
    let writes := fun (p : State → Prop) => ¬ waits → ∀ y, Issues (.hwr f) y s g r → t.r.halt.cause ≠ 7 → ∃ u, exec (.hwr f) s = .next u ∧
      u.group? g = some { r.next f with q := setBit r.q f.d.toNat true, wskip := false } ∧ u.mem = s.mem ∧ p u
    let becomes := fun (r' : Group) => writes fun u => u.group? t.g = some r' ∧ u.vreg = s.vreg ∧ u.greg = s.greg ∧ u.preg = s.preg
    let e := t.r.stack.getD idx {}
    let refused := ¬ waits → ∀ y, Issues (.hwr f) y s g r → Completes (.hwr f) y s g r
      { after := { r.next f with q := setBit r.q f.d.toNat false } }
    let v := s.gr r f.b.toNat
    (halted → s.group? t.g = some t.r →
      (cls = 0 → idx < 32 * t.r.gran → holds → reads ((s.v t.r idx lane).setWidth 64)) ∧
      (cls = 1 → reads (s.gr t.r idx)) ∧
      (cls = 2 → t.r.orig = [] →
        reads ((laneMask (allLanes.filter fun l => t.r.home l != 0 && s.p t.r idx l)).setWidth 64)) ∧
      (cls = 7 → reads (BitVec.ofNat 64 (e.exec.toNat + e.els.toNat * 2 ^ 32))) ∧
      (cls = 8 → reads (BitVec.ofNat 64 (e.rejoin.toNat + e.elseDone.toNat * 2 ^ 46 + e.isSealed.toNat * 2 ^ 47 +
        e.fmt.toNat * 2 ^ 48))) ∧
      (cls = 9 → reads (t.r.ccByte.setWidth 64)) ∧ (cls = 3 → reads (t.r.q.setWidth 64)) ∧ (cls = 4 → reads (t.r.exec.setWidth 64)) ∧
      (cls = 5 → reads (t.r.fmt.setWidth 64)) ∧ (cls = 6 → reads (t.r.pc.setWidth 64)) ∧
      (cls = 10 → reads (t.r.live.setWidth 64)) ∧ (cls = 11 → reads (t.r.hlp.setWidth 64)) ∧
      (cls = 12 → reads (BitVec.ofNat 64 t.r.depth)) ∧
      (cls = 13 → holds → reads ((s.fpxOf t.r lane).setWidth 64)) ∧ (cls = 14 → reads t.status) ∧
      (cls = 1 → waits → (∀ y, Issues (.hrd f) y s g r → exec (.hrd f) s = .next s) ∧
        (t.r.halt.cause ≠ 7 → ∀ y, Issues (.hwr f) y s g r → exec (.hwr f) s = .next s)) ∧
      (cls = 0 → idx < 32 * t.r.gran → holds → writes fun u => VWritten s u t.r [lane] (fun _ => [(idx, v.setWidth 32)]) ∧
        u.greg = s.greg ∧ u.preg = s.preg ∧ u.group? t.g = some t.r) ∧
      (cls = 1 → writes fun u => GWritten s u t.r [(idx, v)] ∧ u.vreg = s.vreg ∧ u.preg = s.preg ∧ u.group? t.g = some t.r) ∧
      (cls = 3 → becomes { t.r with q := v.setWidth 16 }) ∧
      (cls = 4 → becomes { t.r with exec := v.setWidth 32 &&& t.r.live }) ∧
      (cls = 5 → fmtReserved (v.setWidth 16) = false → becomes { t.r with fmt := v.setWidth 16 }) ∧
      (cls = 6 → v.toNat % 4 = 0 → becomes { t.r with pc := v.setWidth 48, pcBad := false, wskip := false }) ∧
      (cls = 2 → t.r.orig = [] → writes fun u => PWritten s u t.r allLanes (fun l => [(idx, bitOf v l)]) ∧
        u.greg = s.greg ∧ u.vreg = s.vreg ∧ u.group? t.g = some t.r) ∧
      -- SEALED and ELSEDONE are left as they are
      (cls = 7 → idx < t.r.depth → becomes { t.r with stack := t.r.stack.modify idx fun e =>
        { e with exec := v.setWidth 32, els := v.extractLsb' 32 32 } }) ∧
      (cls = 8 → idx < t.r.depth → becomes { t.r with stack := t.r.stack.modify idx fun e =>
        { e with rejoin := v.setWidth 46, fmt := v.extractLsb' 48 16 } }) ∧
      (cls = 9 → becomes { t.r with cc := v.setWidth 4 }) ∧
      (cls = 13 → holds → writes fun u => u.fpxOf t.r lane = v.setWidth 32 &&& fpxMask ∧
        (∀ k, k ≠ t.r.home lane * 32 + lane → tget 0 u.fpx k = tget 0 s.fpx k) ∧ u.vreg = s.vreg ∧
        u.group? t.g = some t.r) ∧
      -- what is read only, or breaks the rule of its class (R350)
      (cls = 10 ∨ cls = 11 ∨ cls = 12 ∨ cls = 14 ∨ (cls = 7 ∨ cls = 8) ∧ t.r.depth ≤ idx ∨
        cls = 5 ∧ fmtReserved (v.setWidth 16) = true ∨ cls = 6 ∧ v.toNat % 4 ≠ 0 ∨
        (cls = 0 ∨ cls = 13) ∧ t.r.home lane = 0 → refused) ∧
      (t.r.halt.cause = 7 → refused)) ∧
    (t.r.halt.cause = 0 →
      (∀ y, Issues (.hrd f) y s g r → Completes (.hrd f) y s g r
        { after := { r.next f with q := setBit r.q f.c.toNat false }, g := [(f.d.toNat, 0)] }) ∧
      (∀ y, Issues (.hwr f) y s g r → Completes (.hwr f) y s g r
        { after := { r.next f with q := setBit r.q f.d.toNat false } }))

/-- HSTEP and HRES (R351, R352): a halted group of the same ASID is stepped while the stepper waits, and the
report comes when it has stopped again; a target that may not be stepped is refused, and the report says why. HRES
resumes the group, its crew's groups or its sheaf's, with their sequencers, and says whether any resumed.
A group that is being stepped counts as running, and a broadcast on its way stays, by the model's readings (logs 27 and
57). -/
def Obligations.SteppingAndResuming : Prop :=
  (∀ (f : Fields) (s : State) (g : Gid) (r : Group) (t : Target),
    s.target? (s.gr r f.a.toNat) = some t → t.part = none → gidKey t.g ≠ gidKey g → s.group? t.g = some t.r →
    (s.crewOf t.g t.r).asid = (s.crewOf g r).asid →
    let halted := t.r.halt.cause ≠ 0 ∧ t.r.halt.cause ≠ 7 ∧ t.r.stepper = none
    let steps := fun (i : Instr) (lane limit : Nat) (sh : Shape) => ∀ y, Issues i y s g r → halted → t.r.traps = [] →
      (lane < 32 → t.r.live.getLsbD lane = true) → (t.r.halt.waiting = true → t.r.wait = .none) →
      ∃ u, exec i s = .next u ∧ u.group? t.g = some { t.r with stepper := some (gidKey g + 1) } ∧
        u.group? g = some { r with wait := .hstep (gidKey t.g) lane limit 0 0, ins := f, insSh := sh, wskip := false } ∧
        u.mem = s.mem ∧ u.vreg = s.vreg
    let parked := t.r.traps ≠ []
    let refuses := fun (i : Instr) (lane : Nat) => ∀ y, Issues i y s g r →
      let tells := fun (bit : Nat) => Completes i y s g r { after := r.next f, g := [(f.d.toNat, BitVec.ofNat 64 (2 ^ bit))] }
      (¬ halted ∨ parked → tells 22) ∧
      (halted → ¬ parked → lane < 32 → t.r.live.getLsbD lane = false → tells 21) ∧
      (halted → ¬ parked → (lane < 32 → t.r.live.getLsbD lane = true) → t.r.halt.waiting = true → t.r.wait ≠ .none → tells 20)
    let resumed := fun (x : Group) => if x.halt.cause = 0 ∨ x.halt.cause = 7 ∨ x.stepper ≠ none then x
      else { x with halt := {}, skid := 0 }
    steps (.hstep f) 32 1 (shapeHstep f) ∧
    steps (.hstepLane f) (f.immBits 4 0) (f.immBits 15 8) (shapeHstepLane f) ∧
    refuses (.hstep f) 32 ∧ refuses (.hstepLane f) (f.immBits 4 0) ∧
    (¬ halted → ∀ y, Issues (.hres f) y s g r → Completes (.hres f) y s g r
      { after := { r.next f with q := setBit r.q f.d.toNat false } }) ∧
    (∀ y, Issues (.hres f) y s g r → halted → ∃ u, exec (.hres f) s = .next u ∧
      u.group? t.g = some { t.r with halt := {}, skid := 0 } ∧ u.mem = s.mem ∧ u.vreg = s.vreg ∧
      u.group? g = some { r.next f with q := setBit r.q f.d.toNat true, wskip := false }) ∧
    (r.halt.cause = 0 → g.slot < 32 → t.g.slot < 32 → halted → ∀ c, s.crew? t.g.core t.r.crew = some c →
      let said := fun (u : State) => u.group? g = some { r.next f with q := setBit r.q f.d.toNat true, wskip := false }
      -- the sequencer goes on too, unless the crew has stopped for good
      let seqs := fun (u : State) (core k : Nat) (c : Crew) => ∃ c', u.crew? core k = some c' ∧
        c'.seqr = if c.stop.isSome then c.seqr else { c.seqr with halted := false }
      (∀ y, Issues (.hresCrew f) y s g r → ∃ u, exec (.hresCrew f) s = .next u ∧ u.mem = s.mem ∧ u.vreg = s.vreg ∧ said u ∧
        ∀ h rh, h ≠ g → h.core = t.g.core → h.slot < 32 → s.group? h = some rh → rh.crew = t.r.crew →
          u.group? h = some (resumed rh)) ∧
      (∀ y, Issues (.hresCrew f) y s g r → ∃ u, exec (.hresCrew f) s = .next u ∧ seqs u t.g.core t.r.crew c) ∧
      (∀ y, Issues (.hresSheaf f) y s g r → ∃ u, exec (.hresSheaf f) s = .next u ∧
        ∀ core k ck, k < 16 → s.crew? core k = some ck → ck.launch = c.launch → ck.sheaf = c.sheaf → ck.tentative = false →
          seqs u core k ck) ∧
      (∀ y, Issues (.hresSheaf f) y s g r → ∃ u, exec (.hresSheaf f) s = .next u ∧ u.mem = s.mem ∧ u.vreg = s.vreg ∧
        (c.tentative = false → t.r.crew < 16 → said u) ∧
        ∀ h rh ch, h ≠ g → h.slot < 32 → s.group? h = some rh → rh.crew < 16 → s.crew? h.core rh.crew = some ch →
          ch.launch = c.launch → ch.sheaf = c.sheaf → u.group? h = some (resumed rh)))) ∧
  -- a step that completes an instruction of a group that a group at `d` steps: the last of those asked for
  ∀ (s s' : State) (g : Gid) (r x d : Group) (k lane limit n sk : Nat) (act : W32), r.stepper = some (k + 1) →
    s.group? (keyGid k) = some d → d.wait = .hstep (gidKey g) lane limit n sk → s'.group? g = some x → k ≠ gidKey g →
    s'.group? (keyGid k) = some d → (∀ c, s'.crew? g.core x.crew = some c → c.stop = none) → x.live ≠ 0 → x.halt.cause = 0 →
    x.wait = .none → s'.unwatched (keyGid k).core → d.halt.cause = 0 → lane < 32 ∨ lane = 32 →
    let reached := lane < 32 ∧ act.getLsbD lane = true
    let skipped := if lane < 32 ∧ ¬ reached then sk + 1 else sk
    let t := s.stepped s' g r act
    (reached ∨ lane = 32 ∨ limit ≤ n + 1 →
      t.group? g = some { x with stepper := none, halt := { cause := 6 } } ∧ t.group? (keyGid k) = some d.woken ∧
      tget 0 t.greg (gkey d.uid d.ins.d.toNat) =
        BitVec.ofNat 64 ((n + 1) % 256 + skipped % 256 * 2 ^ 8 + if reached then 2 ^ 16 else 0)) ∧
    (¬ reached → lane < 32 → n + 1 < limit → x.traps = [] →
      t.group? (keyGid k) = some { d with wait := .hstep (gidKey g) lane limit (n + 1) skipped } ∧
      t.group? g = some { x with halt := r.halt, stepper := r.stepper })

/-! ### Observation -/

/-- Snapshots, probes and traces (R32, R354 to R358): SNAP and the host raise the trigger, which waits until the
latch, or counts as missed while a snapshot is held; the latch takes the sources and the heartbeat, raises
vector 1 and changes nothing but the snapshot; a release frees it. PROBE leaves its result pending, which the tick
gives its value; TRACE writes a record only where the partition traces.
Which of the Granary and the host raises the trigger of their event is a free value (log 4); the source of the host's
trigger, the blocks' layout, the NI leaves, and a trigger that joins a pending one, are the model's choices (logs 4,
13, 14 and 80). -/
def Obligations.SnapshotsProbesTraces : Prop :=
  (∀ (f : Fields) (s : State) (g : Gid) (r : Group),
    let sn := s.dev.snap
    let snap := fun (t : State) (x : Snap) => { t with dev := { s.dev with snap := x } }
    let missed := { sn with missed := min (sn.missed + 1) 65535 }
    let who := BitVec.ofNat 32 (g.core + r.crew * 2 ^ 8 + g.slot * 2 ^ 16)
    let c := s.crewOf g r
    let record := traceRec 2 0xDE (whoOf g r.crew 0).toNat r.pc.toNat (s.dev.hb.toNat % 65536) r.exec.toNat
      (s.gr r f.a.toNat) f.i32.toInt []
    (∀ x, Issues (.snap f) x s g r → exec (.snap f) s = .next (snap (s.retired g r f (r.next f))
      (if sn.held then missed else { sn with pending := setBit sn.pending 1 true, pendWho := sn.pendWho ++ [who] }))) ∧
    exec .hostTrigger s = .next (snap s (if sn.held then missed else { sn with pending := setBit sn.pending 3 true })) ∧
    -- the Granary (bit 2), the host (bit 3), both in one clock or neither
    (let from_ : BitVec 4 := (Config.freeValue s.freeCtr).setWidth 4 &&& 0xC
     exec .snapshotTrigger s = .next (snap { s with freeCtr := s.freeCtr + 1 }
       (if from_ = 0 then sn else if sn.held then missed else { sn with pending := sn.pending ||| from_ }))) ∧
    exec .snapshotRelease s = .next (snap s { sn with held := false, src := 0 }) ∧
    (sn.pending ≠ 0 → sn.held = false → ∃ t blocks who, exec .snapshotLatch s = .next t ∧
      t.dev.snap = { sn with held := true, pending := 0, src := sn.pending, hb := s.dev.hb, who := who, pendWho := [],
                             blocks := blocks } ∧
      (bitOf s.dev.msix.mask 1 = false → t.dev.msix.sent = s.dev.msix.sent ++ [1]) ∧
      t = { s with freeCtr := t.freeCtr, dev := { s.dev with snap := t.dev.snap, msix := t.dev.msix } }) ∧
    Does (.probe f) s r { after := { r.next f with probes := r.probes ++ [(f.immBits 7 0, f.fn.toNat, f.d.toNat)] } } ∧
    (∀ x, Issues (.trace f) x s g r → exec (.trace f) s = .next (State.putGroup
      (if bitOf (s.trctl c.asid) 63 then (s.countIssue g (s.useful r f)).traceUnits g.core c.asid record
       else s.countIssue g (s.useful r f)) g { r.next f with wskip := false }))) ∧
  ∀ (s : State) (g : Gid) (r : Group) e red d, s.group? g = some r → g.slot < 32 → r.probes = [(e, red, d)] →
    r.wait ≠ .fsc → tsorted s.groups = true →
    (∀ k, k ≠ gidKey g → ∀ h, tfind s.groups k = some h → h.wait ≠ .fsc ∧ h.probes = []) →
    (∀ k c, tfind s.crews k = some c → ∀ x ∈ c.parts, x.2.probes = []) →
    let ticked := { s with dev := { s.dev with hb := s.dev.hb + 1 } }
    ∃ t, exec .tick s = .next t ∧ t.group? g = some { r with probes := [] } ∧ t.dev = ticked.dev ∧ t.vreg = s.vreg ∧
      t.mem = s.mem ∧ GWritten s t r [(d, (ticked.probe (s.crewOf g r).asid (s.levelOf g r) e red).1)]

/-! ### Address spaces, translation, tenancy -/

/-- Partitions, address spaces, heat, faults and page tables (R290, R297, R298, R300, R301, R305 to R308): EN of
a partition that is refused stays 0; an ASID in use is not disabled; a sampled frame's counter rises, and HEATRD
reads eight counters, and halves them; the oldest fault record goes to the ring; a replay wakes the groups that
wait on its page; a page-table update writes the entry only where it holds the old value, an invalidation drops
the page's translations, and STAT reads done once both are complete everywhere.
What PTEUPD ignores, and whom a replay reaches while a ring is unrecordable, are the model's (logs 30 and 96). -/
def Obligations.TenancyAndTranslation : Prop :=
  (∀ (s : State) (part : Nat) (w : W64), part < 64 → bitOf w 63 = true →
    exec (.partitionEnable part w) s = .next (s.setCtl (0x2008 + 32 * part)
      (w &&& 0x8000FFFFFFFFFFFF &&& if s.partRefused part then 0x7FFFFFFFFFFFFFFF else 0xFFFFFFFFFFFFFFFF))) ∧
  (∀ (s : State) (asid : Nat) (w : W64), asid < 4096 → bitOf w 63 = false →
    exec (.asidDisable asid w) s = .next (if s.asidLive asid = true ∧ s.asidBusy asid = true then s
      else ({ s with goneRanges := s.goneRanges.filter fun e => e.1 != asid } : State).setCtl (0x10000 + 8 * asid)
        (w &&& 0xBF0FFFFFFFFFF000))) ∧
  (∀ (s : State) (core n : Nat), n ∈ (s.core core).samples → s.hasHeat n = true →
    ∃ t, exec (.heatSample core n) s = .next t ∧ t = { s with cores := t.cores, heat := t.heat } ∧
      (tget 0 t.heat n).toNat = min ((tget 0 s.heat n).toNat + 1) 255 ∧ ∀ k, k ≠ n → tget 0 t.heat k = tget 0 s.heat k) ∧
  (∀ (f : Fields) (s : State) (g : Gid) (r : Group) x, Issues (.heatrd f) x s g r →
    let f0 := (s.gr r f.a.toNat).toNat / 2 ^ 15 % 2 ^ 37 * 8
    let c := fun n => if s.hasHeat (f0 + n) then (tget 0 s.heat (f0 + n)).toNat else 0
    ∃ t, exec (.heatrd f) s = .next t ∧
      GWritten s t r [(f.d.toNat, BitVec.ofNat 64 ((List.range 8).map fun n => c n * 2 ^ (8 * n)).sum)] ∧
      t = { s.retired g r f (r.next f) with greg := t.greg, heat := t.heat } ∧
      (f.fnIs 1 = false → t.heat = s.heat) ∧
      (f.fnIs 1 = true → (∀ n < 8, (tget 0 t.heat (f0 + n)).toNat = if s.hasHeat (f0 + n) then c n / 2
          else (tget 0 s.heat (f0 + n)).toNat) ∧
        ∀ k, k < f0 ∨ f0 + 8 ≤ k → tget 0 t.heat k = tget 0 s.heat k)) ∧
  (∀ (s s1 s2 : State) (part : Nat) (fr : FRec) (w rd : Nat), s.records.find? (fun x => x.1 = part) = some (part, fr) →
    let size := 2 ^ bitsOf (s.partd part 2) 36 32
    let fa := bitsOf (s.partd part 1) 11 0
    let base := bitsOf (s.partd part 1) 47 12 * 4096
    let gone := { s with records := s.records.filter fun x => !(x.1 == part && x.2.id == fr.id) }
    s.recordable part = true → s.ringRead noCore fa base 8 = some w → s.ringRead noCore fa (base + 8) 8 = some rd →
    ((w + 2 ^ 64 - rd) % 2 ^ 64 < size → bitOf (s.partd part 2) 46 = false →
      gone.ringWrite noCore fa (base + 64 + 64 * (w % size)) fr.bytes = some s1 →
      s1.ringWrite noCore fa base (leBytes 8 (w + 1)) = some s2 → exec (.faultRecordWrite part) s = .next s2) ∧
    (size ≤ (w + 2 ^ 64 - rd) % 2 ^ 64 → fr.informational = false → exec (.faultRecordWrite part) s = .next s)) ∧
  (∀ (s : State) (part : Nat) (w : W64), part < 64 → s.recordable part = false →
    exec (.freplay part w) s = .next s ∧
    ∀ fr, s.records.find? (fun x => x.1 = part) = some (part, fr) → exec (.faultRecordWrite part) s =
      .next { s with records := s.records.filter fun x => !(x.1 == part && x.2.id == fr.id) }) ∧
  (∀ (s : State) (part : Nat) (w : W64), part < 64 → s.recordable part = true →
    -- the completions whose page it names go on
    let again := s.launches.filter fun e => match e.2.stall with
      | some p => s.replays part w p && !s.recHeld part 0 0xFFFFFFFF p
      | none => false
    ∃ t, exec (.freplay part w) s = .next (again.foldl (fun (u : State) e => u.completion e.1) t) ∧
      t = { s with groups := t.groups, copies := t.copies, ops := t.ops, pushes := t.pushes, lanes := t.lanes,
                   saved := t.saved } ∧
      -- a waiter whose record finds the ring full stays (R305); an atomic's lanes left are translated anew
      ∀ h rh a v, s.group? h = some rh → h.slot < 32 → rh.wait = .page a v → rh.outbox = [] → t.group? h =
        some (if (s.partOf a = part ∧ (bitOf w 63 = true ∨ bitsOf w 59 48 = a ∧ bitsOf w 47 12 = v)) ∧
            s.recHeld part rh.pc (whoOf h rh.crew 0) (a, v) = false
          then { rh with wait := rh.kept.anew, kept := .none } else rh)) ∧
  -- a saved crew awaits its page until one of its groups that wait on one is reached so
  (∀ (s : State) (part : Nat) (w : W64) (id : Nat) (sv : Saved), part < 64 → s.recordable part = true →
    tfind s.saved id = some sv →
    let reached := fun (e : Nat × Group) (a v : Nat) => e ∈ sv.groups ∧ e.2.wait = .page a v ∧
      (s.partOf a = part ∧ (bitOf w 63 = true ∨ bitsOf w 59 48 = a ∧ bitsOf w 47 12 = v)) ∧
      s.recHeld part e.2.pc (whoOf { core := sv.core, slot := e.1 } e.2.crew 0) (a, v) = false
    ∃ t, exec (.freplay part w) s = .next t ∧
      ((∃ e a v, reached e a v) → tfind t.saved id = some { sv with pages := [] }) ∧
      ((∀ e a v, ¬reached e a v) → tfind t.saved id = some sv)) ∧
  (∀ (s : State) (die ea : Nat), die < 4 →
    let va := bitsOf (s.pte die 0) 47 12 * 4096
    let asid := bitsOf (s.pte die 1) 11 0
    let want := bitsOf (s.pte die 0) 1 0
    let old := s.pte die 2
    let new := s.pte die 3
    let d := (tfind s.dies die).getD {}
    let u := s.walkReads asid va
    let shot := fun (t : State) => (t.ctlw (0x4400 + 64 * die + 32)).toNat = 1 ∧
      (∃ d', tfind t.dies die = some d' ∧ d'.pteBusy = true ∧ d'.pteAsid = asid ∧ d'.pteVa = va) ∧
      ∀ core a, a / pageSize want = va / pageSize want → a < 2 ^ 48 → tlbFind (t.core core).tlb asid a = none
    -- the stores that a drain is to translate anew stand where the tables put them now
    let stand := fun (h : Gid) (r : Group) =>
      let moved := r.outbox.map fun x => ((s.invalidate asid va want).placeAnew h.core asid x).2
      if (s.crewOf h r).asid = asid then { r with outbox := moved } else r
    d.pteBusy = false → want ≠ 0 →
    (s.malformed asid va want new = false → u.reach die asid va want 4 = .ok (u, ea) →
      (bitOf old 7 = false ∨ bitOf new 7 = false) →
      (s.pword ea 8 = old.toNat → ∃ t, exec (.pteUpdate die) s = .next t ∧ t.pword ea 8 = new.toNat ∧ shot t ∧
        ∀ a, a < s.home ea ∨ s.home ea + 8 ≤ a → t.byte a = s.byte a) ∧
      (s.pword ea 8 ≠ old.toNat → exec (.pteUpdate die) s = .next (u.setCtl (0x4400 + 64 * die + 32) 0x11))) ∧
    (s.malformed asid va want new = true →
      exec (.pteUpdate die) s = .next (s.setCtl (0x4400 + 64 * die + 32) 0x13)) ∧
    (s.malformed asid va want new = false → s.answers (s.rootOf asid) = false →
      exec (.pteUpdate die) s = .next (u.setCtl (0x4400 + 64 * die + 32) 0x11)) ∧
    ∃ t, exec (.pteInvalidate die) s = .next t ∧ shot t ∧
      t = { s with groups := t.groups, cores := t.cores, dies := t.dies, ctl := t.ctl } ∧
      ∀ h r, h.slot < 32 → s.group? h = some r → t.group? h = some (stand h r)) ∧
  ∀ (s : State) (die : Nat) (d : Die), tfind s.dies die = some d → d.pteBusy = true →
    exec (.shootdownComplete die) s = .next (if s.inFlight d.pteAsid d.pteVa d.pteLvl then s
      else State.setCtl { s with dies := tput s.dies die { d with pteBusy := false } } (0x4400 + 64 * die + 32) 0x10)

/-! ### The Thresher -/

/-- Host rings (R119, R374 to R380): a poll of a lane with no buffer open takes the published packet of RIDX, and is
an address error where the ring lies with a peer that DOMMAP does not give; a round, where no packet is bad, serves
the lanes that hold one by type and lane; each packet has its effect and is taken, RIDX rising; a wait and a fence
stay until their condition holds; a restart clears a stopped queue's error; a device-queue lane takes an index, then
makes a launch of the entry.
What makes a packet bad, and a restart of a device queue (log 71), the address space of a device queue (log 44), and
that it reads entry and SEQ in one step (log 48), are the model's readings. -/
def Obligations.HostQueues : Prop :=
  (∀ (s : State) (n : Nat), s.laneLive n = true → s.laneKind n = false → (s.lane n).pkt = none → (s.lane n).ib = [] →
    s.ringHost n = true →
    let i := s.hword (s.ringAddr n + 64) 8
    let a := s.ringAddr n + 128 + 128 * (i % 2 ^ bitsOf (s.hqd n 2) 4 0)
    exec (.queuePoll n) s = .next (if s.hword a 8 = (i + 1) % 2 ^ 64
      then s.putLane n { s.lane n with addr := a, pkt := some ((List.range 128).map fun k => tget 0 s.hostMem (a + k)) }
      else s)) ∧
  (∀ (s : State) (n : Nat), s.laneLive n = true → s.laneKind n = false → (s.lane n).pkt = none → (s.lane n).ib = [] →
    s.ringHost n = false → s.ringOk n = true → s.softErr = [] →
    let i := s.pword (s.ringAddr n + 64) 8
    let a := s.ringAddr n + 128 + 128 * (i % 2 ^ bitsOf (s.hqd n 2) 4 0)
    exec (.queuePoll n) s = .next (if s.pword a 8 = (i + 1) % 2 ^ 64
      then s.putLane n { s.lane n with addr := a, pkt := some (s.bytes (s.home a) 128) } else s)) ∧
  (∀ (s : State) (n : Nat), s.laneLive n = true → s.laneKind n = false → (s.lane n).pkt = none → (s.lane n).ib = [] →
    s.ringHost n = false → isPeer (s.ringAddr n) = true → s.peerOk (s.ringAddr n) = false →
    ∃ t, exec (.queuePoll n) s = .next t ∧ bitOf (t.hqd n 0) 59 = true ∧ t.hqd n 3 = 5 ∧ t.mem = s.mem ∧
      t.hostMem = s.hostMem) ∧
  -- an open buffer gives its next packet
  (∀ (s : State) (n a i cnt pa : Nat) rest, s.laneLive n = true → s.laneKind n = false → (s.lane n).pkt = none →
    (s.lane n).ib = (a, i, cnt) :: rest → s.softErr = [] →
    (s.putLane n { s.lane n with addr := a + 128 * i }).homeOf noCore (s.laneAsid n) (a + 128 * i) 128 Acc.queue false = .ok pa →
    ∃ t, exec (.queuePoll n) s = .next t ∧ t = { s with lanes := t.lanes } ∧ t.lane n = { s.lane n with
      addr := a + 128 * i, pkt := some (s.bytes pa 128), ib := (a, i + 1, cnt) :: rest }) ∧
  (∀ (s : State), s.dev.round.filter s.holds ≠ [] →
    exec .thresherRound s = .next { s with dev := { s.dev with round := s.dev.round.filter s.holds } }) ∧
  (∀ (s : State), s.dev.round.filter s.holds = [] →
    let ls := (List.range 64).filter s.holds
    (∀ n ∈ ls, pktBad (s.pktOf n) = false) →
    exec .thresherRound s = .next { s with dev := { s.dev with
      round := [4, 5, 3, 1, 2, 6, 0].flatMap fun t => ls.filter fun n => pktType (s.pktOf n) = t } }) ∧
  (∀ (s : State) (n : Nat) (rest : List Nat) (p : List Byte), s.dev.round = n :: rest → s.holds n = true →
    (s.lane n).pkt = some p →
    let s1 := { s with dev := { s.dev with round := rest } }
    let l := s.lane n
    let ridx := s.ringWord n (s.ringAddr n + 64) 8
    -- in an open buffer the next packet follows; once every buffer's last is taken, RIDX rises
    let ib := closeBuffers l.ib
    let taken := fun (t : State) =>
      let u := t.putLane n { l with pkt := none, passed := false, ib := ib }
      if ib = [] then u.setRidx n (ridx + 1) else u
    let field := fun off k => leNat ((p.drop off).take k)
    let typ := field 8 1
    let size := if field 8 8 / 2 ^ 10 % 2 = 1 then 8 else 4
    let a := field 0x10 8
    let asid := bitsOf (s.hqd n 0) 11 0
    let intr := fun (t : State) => if field 8 8 / 2 ^ 11 % 2 = 1 then t.vector (field 8 8 / 2 ^ 16 % 64) else t
    let made := fun (t : State) => t.putLane n { t.lane n with capf := none }
    (typ = 0 → exec .nopPacket s = .next (taken s1)) ∧
    (typ = 1 → ∃ t id x, exec .launch s = .next t ∧ tfind t.launches id = some x ∧
      x.words = (List.range 8).map (fun i => BitVec.ofNat 64 (field (0x10 + 8 * i) 8)) ∧ x.asid = asid ∧ x.queue = n ∧
      x.valid = false ∧ x.placed = 0 ∧ (t.lane n).passed = true ∧ (t.lane n).pkt = some p) ∧
    (typ = 2 → l.ib.length < 4 → (∀ x ∈ l.ib, x.1 ≠ a) →
      (a % 128 = 0 → field 0x18 8 ≠ 0 → field 0x18 8 ≤ 65536 →
        exec .ibCall s = .next (s1.putLane n { l with pkt := none, ib := (a, 0, field 0x18 8) :: l.ib })) ∧
      (a % 128 ≠ 0 ∨ field 0x18 8 = 0 ∨ 65536 < field 0x18 8 → exec .ibCall s = .next (s1.queueError n 4))) ∧
    (typ = 2 → 4 ≤ l.ib.length → exec .ibCall s = .next (s1.queueError n 1)) ∧
    (typ = 2 → l.ib.length < 4 → (∃ x ∈ l.ib, x.1 = a) → exec .ibCall s = .next (s1.queueError n 2)) ∧
    (typ = 3 → a % size = 0 → s.softErr = [] → ∀ x, s.homeLoad noCore asid a size Acc.queue = .ok x →
      let m := field 0x20 8
      let y := field 0x18 8 &&& m
      let v := x % 2 ^ 64 &&& m
      let c := field 8 8 / 2 ^ 8 % 4
      exec .waitValue s = .next (if c = 0 ∧ v = y ∨ c = 1 ∧ v ≠ y ∨ c = 2 ∧ y ≤ v ∨ c = 3 ∧ v < y then taken s1 else s1)) ∧
    (typ = 4 → a % size = 0 → ∀ t, s1.homeStore (.lane n) noCore asid a Acc.store (leBytes size (field 0x18 8)) = .ok t →
      exec .writeValue s = .next ((intr (made t)).packetTaken n)) ∧
    (typ = 5 → exec .fencePacket s = .next (if l.outstanding = [] then taken s1 else s1)) ∧
    (typ = 6 → a % 8 = 0 → ∀ t, s1.homeStore (.lane n) noCore asid a Acc.store (leBytes 8 s.dev.hb.toNat) = .ok t →
      exec .timestamp s = .next ((intr (made t)).packetTaken n)) ∧
    (typ = 3 ∨ typ = 4 → a % size ≠ 0 → exec (if typ = 3 then .waitValue else .writeValue) s = .next (s1.queueError n 5)) ∧
    (typ ≠ 0 → exec .nopPacket s = .next s)) ∧
  (∀ (s : State) (n : Nat), n < 64 → bitOf (s.hqd n 0) 59 = true →
    ∃ t, exec (.queueRestart n) s = .next t ∧ bitOf (t.hqd n 0) 59 = false ∧ t.hqd n 3 = 0 ∧ t.hqd n 4 = 0 ∧
      (t.lane n).taken = none ∧ (∀ k ∈ t.dev.round, k ≠ n) ∧
      (s.laneKind n = true → t.mem = s.mem ∧ t.hostMem = s.hostMem) ∧
      (s.laneKind n = false → s.ringHost n = true → t.mem = s.mem ∧
        t.hword (s.ringAddr n + 64) 8 = (s.ridx n + 1) % 2 ^ 64) ∧
      (s.laneKind n = false → s.ringHost n = false → s.ringOk n = true → t.hostMem = s.hostMem ∧
        t.pword (s.ringAddr n + 64) 8 = (s.ridx n + 1) % 2 ^ 64)) ∧
  ∀ (s : State) (n : Nat) (t : State) (i : Nat), s.laneLive n = true → s.laneKind n = true →
    let da := s.dlqDesc (s.lanePart n)
    let s1 := s.putLane n { s.lane n with addr := da.toNat }
    ((s.lane n).taken = none → s1.qTake (.lane n) noCore (s.laneAsid n) da Acc.queue = .took t i →
      exec (.deviceLaunchQueueTake n) s = .next (t.putLane n { t.lane n with taken := some i, capf := none })) ∧
    (∀ bs, (s.lane n).taken = some i → s1.qEmpty (.lane n) noCore (s.laneAsid n) da Acc.queue i = .done t bs →
      ∃ u id x, exec (.deviceLaunchQueueTake n) s = .next u ∧ tfind u.launches id = some x ∧
        x.words = (List.range 8).map (fun j => BitVec.ofNat 64 (leNat ((bs.drop (8 * j)).take 8))) ∧ x.priv = 0 ∧
        x.queue = 64 ∧ x.valid = false)

/-! ### The host, the Granary, power -/

/-- Host accesses and pool windows (R371 to R373): a write of these words sets their RW bits, and a word holds what
was set and no other changes; BAR2 reads and writes device memory at the window's base, and an access outside is
counted, a read of it all ones; an unmasked vector that was pending is sent; a pool window is enabled unless refused,
and one that is not enabled takes a new base. That the host's write reaches the words R290 and R303 give to level-2
code is DEDUCED (log 65). Which words a general write leaves, and the size of a BAR2 access, are the model's choices
(logs 72 and 75). -/
def Obligations.HostAccesses : Prop :=
  (∀ (s : State) (k j : Nat) (w : W64), (k < 64 ∧ j < 4 →
      exec (.registerWrite .host (0x3C00 + 32 * k + 16) w) s = .next (s.setCtl (0x3C00 + 32 * k + 16) (w &&& 0x000FFFFFFFFFF01F))) ∧
    (k < 64 → exec (.registerWrite .host (0x2000 + 32 * k) w) s = .next (s.setCtl (0x2000 + 32 * k) w)) ∧
    (k < 4096 → bitOf w 63 = true → exec (.registerWrite .host (0x10000 + 8 * k) w) s =
      .next (s.setCtl (0x10000 + 8 * k) (w &&& 0xBF0FFFFFFFFFF000))) ∧
    (j < 4 → exec (.registerWrite .host (0x5008 + 8 * j) w) s = .next (s.setCtl (0x5008 + 8 * j) w))) ∧
  (∀ (s : State) (off o : Nat) (v : W64), (s.setCtl off v).ctlw off = v ∧ (o ≠ off → (s.setCtl off v).ctlw o = s.ctlw o)) ∧
  (∀ (s : State) (off size : Nat) (v : W64), size ∈ [1, 2, 4, 8] → off % size = 0 → off < 2 ^ 36 →
    let w := s.ctlw 0x4820
    let a := bitsOf w 51 36 * 2 ^ 36 + off
    let memb := s.dev.granary.memb
    let counted := fun (x : W64) => ({ s with dev := { s.dev with
      bar2Result := x, granary := { s.dev.granary with unsupported := s.dev.granary.unsupported + 1 } } } : State)
    (bitOf w 63 = true → a + size ≤ memb → s.inLattice a size = false →
      (s.softErr = [] → exec (.bar2Read off size) s = .next
        { s with dev := { s.dev with bar2Result := BitVec.ofNat 64 (s.word a size) } }) ∧
      ∃ t, exec (.bar2Write off size v) s = .next t ∧ t = { s with mem := t.mem } ∧
        t.word a size = v.toNat % 2 ^ (8 * size) ∧ ∀ x, x < a ∨ a + size ≤ x → t.byte x = s.byte x) ∧
    (bitOf w 63 = false ∨ memb < a + size →
      exec (.bar2Read off size) s = .next (counted (BitVec.ofNat 64 (2 ^ (8 * size) - 1))) ∧
      exec (.bar2Write off size v) s = .next (counted s.dev.bar2Result))) ∧
  (∀ (s : State) (v : Nat), v < 64 →
    let m := s.dev.msix
    let open_ := { m with mask := setBit m.mask v false }
    exec (.msixUnmask v) s = .next { s with dev := { s.dev with msix := if bitOf m.pending v
      then { open_ with pending := setBit m.pending v false, sent := m.sent ++ [v] } else open_ } }) ∧
  ∀ (s : State) (port win : Nat) (w : W64) (trained : Bool), port < 4 → win < 4 →
    let o := 0x4E00 + 128 * port + 32 * win
    (bitOf w 63 = true → s.poolRefused port win w trained = false →
      exec (.poolWindowEnable port win w trained) s = .next (s.setCtl o (w &&& 0x800FFFFFF0000000))) ∧
    (bitOf w 63 = true → trained = false → ∃ v, exec (.poolWindowEnable port win w trained) s = .next (s.setCtl o v) ∧
      bitOf v 63 = false) ∧
    (bitOf w 63 = false → bitOf (s.ctlw o) 63 = false →
      exec (.poolWindowDisable port win w) s = .next (s.setCtl o (w &&& 0x000FFFFFF0000000)))

/-- Power, clocks and links (R31, R372, R384, R387, R388): a reset brings the device up, in the recovery loader where
no image passes, with every register, core, die, copy, operation, control word and device byte as after reset, but for
DOMID, the engines' self-test and the vector of a failed image, and keeps the memories that lie outside and the flash;
without power only a reset acts; at 110 °C the device holds and its crews stop, and a held device issues nothing; at
95 °C the clock slows, and after a cool period it quickens; a peer's change sets or clears its bit in DOMMAP. Which
peer changes, and to what, is a free value (log 4). What a reset keeps, and how crews end at the thermal stop, are the
model's choices (logs 8, 31 and 74). -/
def Obligations.PowerAndClocks : Prop :=
  (∀ (s : State) (imageOk : Bool) (failed : List (Nat × Nat)) (domId : Nat),
    let boots := s.dev.granary.imageValid && imageOk
    ∃ t, exec (.powerOnReset imageOk failed domId) s = .next t ∧
    t.dev.power = true ∧ t.dev.hb = 0 ∧ t.dev.hold = false ∧ t.dev.granary.recovery = !boots ∧
    (boots = true → t.dev.granary.fwver = s.dev.granary.flashVer) ∧
    -- the self-test's mode of every engine (R189)
    (∀ n < 64, let planes := (List.range 4).filter fun p => failed.contains (n, p)
      t.engine n = { failed := planes, unusable := decide (2 ≤ planes.length) }) ∧
    -- every register, core, die, copy, operation and queue is as State.reset has it
    t = { State.reset with
      agenda := s.agenda, freeCtr := t.freeCtr, nextId := s.nextId, mem := t.mem, hostMem := s.hostMem, ctl := t.ctl,
      engines := t.engines, dev := t.dev } ∧
    (∀ o, t.ctlw o = if o = 0x4818 then BitVec.ofNat 64 (2 ^ 63 + if boots then domId % 64 else 0) else State.reset.ctlw o) ∧
    t.dev = { ({} : Dev) with up := true, granary := t.dev.granary, msix := if boots then {} else { pending := 8 } } ∧
    t.dev.granary.imageValid = s.dev.granary.imageValid ∧ t.dev.granary.flashVer = s.dev.granary.flashVer ∧
    (failed = [] → t.dev.granary.log = s.dev.granary.log) ∧
    (∀ a, isPeer a = false → isPoolKey a = false → t.byte a = 0) ∧
    ∀ a, isPeer a = true ∨ isPoolKey a = true → t.byte a = s.byte a) ∧
  (∀ s : State, ∃ t, exec .powerLoss s = .next t ∧ t.dev.power = false ∧ t.groups = [] ∧ t.crews = [] ∧
    t.dev.granary.imageValid = s.dev.granary.imageValid ∧ t.dev.granary.log = s.dev.granary.log) ∧
  (∀ s : State, s.dev.power = false → ∀ m rest, s.agenda = m :: rest → (∀ a b c rf, m ≠ .event (.powerOnReset a b c) rf) →
    step s = .next { s with agenda := rest }) ∧
  (∀ s : State, s.dev.hold = true → ∀ g rf rest, s.agenda = .issue g rf :: rest → step s = .next { s with agenda := rest }) ∧
  -- before bring-up port 0 does not answer (R388); while the device holds, nothing starts (R384)
  (∀ (s : State) (off n : Nat) (w : W64) rf rest, s.dev.up = false →
    ∀ i ∈ [Instr.bar2Write off n w, .bar2Read off n, .registerWrite .host off w, .msixUnmask n, .killAsid],
      s.agenda = .event i rf :: rest → step s = .next { s with agenda := rest }) ∧
  (∀ (s : State) (a b : Nat) rf rest, s.dev.hold = true →
    ∀ i ∈ [Instr.dispatchDecision a, .admissionCommit a, .crewRestore a b, .spawnRecordStart a b],
      s.agenda = .event i rf :: rest → step s = .next { s with agenda := rest }) ∧
  (∀ s : State, (∃ t temps beyond, exec .sensorSample s = .next (State.sample t temps beyond) ∧
      t = { s with freeCtr := t.freeCtr }) ∧
    ∀ (temps : List Nat) (beyond : Bool), let t := s.sample temps beyond
      ((∃ x ∈ temps, 110 ≤ x) → t.dev.hold = true) ∧
      ((∃ x ∈ temps, 110 ≤ x) → s.crews = [] → s.saved = [] → s.dev.granary.cstep < 7 →
        t.dev.granary.cstep = s.dev.granary.cstep + 1) ∧
      ((∃ x ∈ temps, 110 ≤ x) → s.dev.hold = false → s.saved = [] → ∀ core slot c, s.crews = [(crewKey core slot, c)] →
        slot < 16 → c.tentative = false → c.stop = none → ∃ c' st, t.crew? core slot = some c' ∧ c'.stop = some st ∧
          st.frec.code = Code.killed) ∧
      ((∀ x ∈ temps, x < 110) → (∃ x ∈ temps, 95 ≤ x) ∨ beyond = true → s.dev.granary.cstep < 7 →
        t.dev.granary.cstep = s.dev.granary.cstep + 1 ∧ t.dev.granary.coolPeriod = false ∧ t.groups = s.groups) ∧
      ((∀ x ∈ temps, x < 90) → beyond = false → t.dev.granary.coolPeriod = true ∧ t.dev.granary.cstep = s.dev.granary.cstep)) ∧
  (∀ s : State, s.dev.granary.coolPeriod = true → ∃ t, exec .coolPeriodExpiry s = .next t ∧
    t.dev.granary.cstep = s.dev.granary.cstep - 1 ∧ t.dev.granary.coolPeriod = false ∧ t.groups = s.groups ∧ t.mem = s.mem) ∧
  -- which device it is, and whether it is now reachable, is a free value
  ∀ s : State, let x := Config.freeValue s.freeCtr
    ∃ t, exec .peerLinkChange s = .next t ∧ t = { s with freeCtr := t.freeCtr, ctl := t.ctl, dev := t.dev } ∧
      ∀ o, t.ctlw o = if o = 0x4828 ∧ bitsOf x 5 0 ≠ bitsOf (s.ctlw 0x4818) 5 0
        then setBit (s.ctlw 0x4828) (bitsOf x 5 0) (bitOf x 6) else s.ctlw o

/-- The mailbox (R385, R387): a command makes STAT busy and has its effect with a result 0 done, 1 refused or 2 bad
argument, which its completion shows with vector 0, an UPDATE_COMMIT a 0 where the signature is verified (Config's);
while STAT is busy a command is ignored, and the recovery loader refuses a halt, a kill and a snapshot. The log
numbers its records from the first ever written (log 32); a kill ends saved crews in their frames (logs 26 and 74).
The result of an unlisted command and the limit of an image are the model's choices (logs 4, 72 and 73). -/
def Obligations.Mailbox : Prop :=
  ∀ s : State,
    let busy := bitOf (s.ctlw 0x5028) 63
    let arg := fun (k : Nat) => s.ctlw (0x5008 + 8 * k)
    let starts := fun (t : State) (code res : Nat) =>
      let u := (t.setCtl 0x5000 (BitVec.ofNat 64 code)).setCtl 0x5028 0x8000000000000000
      ({ u with dev := { u.dev with granary := { u.dev.granary with result := res } } } : State)
    let a0 := (arg 0).toNat
    let a1 := (arg 1).toNat
    let a2 := (arg 2).toNat
    let g := s.dev.granary
    let withG := fun (x : Granary) => ({ s with dev := { s.dev with granary := x } } : State)
    let does := fun (i : Instr) (code : Nat) (t : State) (res : Nat) => exec i s = .next (starts t code res)
    (busy = true → ∀ i ∈ [Instr.readEventLog, .updateBegin, .updateData, .updateCommit, .granaryHalt, .granaryHrd, .granaryHwr,
      .granaryHstep, .granaryHres, .killAsid, .preemptAsid, .snapshotCommand], exec i s = .next s) ∧
    (busy = true → g.hstep = none → s.ctlw 0x5000 ≠ 0x12 ∨ g.result ≠ 0 → ∃ t, exec .mailboxCommandCompletion s = .next t ∧
      t.ctlw 0x5028 = BitVec.ofNat 64 (g.result % 256) ∧ t.mem = s.mem ∧
      (bitOf s.dev.msix.mask 0 = false → t.dev.msix.sent = s.dev.msix.sent ++ [0])) ∧
    (busy = true → g.hstep = none → s.ctlw 0x5000 = 0x12 → g.result = 0 → ∃ t, exec .mailboxCommandCompletion s = .next t ∧
      t.ctlw 0x5028 = 0 ∧ t.mem = s.mem ∧ t.dev.granary.imageValid = true ∧ t.dev.granary.staged = none) ∧
    -- HSTEP completes with its step, or where its target is gone or stopped with the crew
    (∀ k lane limit n sk, busy = true → g.hstep = some (k, lane, limit, n, sk) →
      let done := fun (bit : Nat) => ∃ t, exec .mailboxCommandCompletion s = .next t ∧
        t.ctlw 0x5028 = BitVec.ofNat 64 (g.result % 256) ∧ t.ctlw 0x5020 = hreport n sk (2 ^ bit) ∧ t.mem = s.mem ∧
        t.dev.granary.hstep = none
      (∀ x, s.group? (keyGid k) = some x → x.stepper = some 0 →
        (x.halt.cause ≠ 7 → exec .mailboxCommandCompletion s = .next s) ∧ (x.halt.cause = 7 → done 18)) ∧
      (s.group? (keyGid k) = none → done 19)) ∧
    (busy = false → g.recovery = true → does .granaryHalt 0x20 s 1 ∧ does .killAsid 0x30 s 1 ∧ does .snapshotCommand 0x40 s 1) ∧
    (busy = false →
      (g.logFirst ≤ a0 → a0 + a1 ≤ g.logFirst + g.log.length → a2 + 32 * a1 ≤ g.memb → s.inLattice a2 (32 * a1) = false →
        does .readEventLog 0x01 (s.store a2 ((g.log.drop (a0 - g.logFirst)).take a1).flatten) 0) ∧
      does .updateBegin 0x10 (if a0 = 0 ∨ 2 ^ 22 < a0 then s else withG { g with staged := some ([], a0) })
        (if a0 = 0 ∨ 2 ^ 22 < a0 then 2 else 0) ∧
      (∀ l n, g.staged = some (l, n) → s.softErr = [] → a0 + a2 ≤ n → a1 + a2 ≤ g.memb → s.inLattice a1 a2 = false →
        does .updateData 0x11 (withG { g with staged := some (stage l a0 (s.bytes a1 a2), n) }) 0) ∧
      (g.staged = none → does .updateData 0x11 s 1 ∧ does .updateCommit 0x12 s 1) ∧
      -- once the signature is verified the flash is erased
      (∀ x, g.staged = some x → does .updateCommit 0x12
        (if Config.signatureOk x.1 then withG { g with imageValid := false } else s) (if Config.signatureOk x.1 then 0 else 1))) ∧
    (busy = false → g.recovery = false →
      (∀ t, s.target? (arg 0) = some t → t.part = none →
        let halted := t.r.halt.cause ≠ 0 ∧ t.r.halt.cause ≠ 7 ∧ t.r.stepper = none
        (t.r.halt.cause = 0 → bitOf (arg 1) 0 = false → does .granaryHalt 0x20 (s.putGroup t.g (t.r.broadcast 8)) 0) ∧
        (halted → arg 1 = 0x60000000 → does .granaryHrd 0x21 (s.setCtl 0x5020 (t.r.pc.setWidth 64)) 0) ∧
        (halted → arg 1 = 0x60000000 → a2 % 4 = 0 → does .granaryHwr 0x22
          ((s.putGroup t.g { t.r with pc := (arg 2).setWidth 48, pcBad := false, wskip := false }).setCtl 0x5020 1) 0) ∧
        (halted → t.r.traps = [] → t.r.wait = .none → a1 = 0 → ∃ u, does .granaryHstep 0x23 u 0 ∧
          u.group? t.g = some { t.r with stepper := some 0 } ∧ u.dev.granary.hstep = some (gidKey t.g, 32, 1, 0, 0)) ∧
        (halted → a1 = 0 → does .granaryHres 0x24
          ((s.putGroup t.g { t.r with halt := {}, skid := 0 }).setCtl 0x5020 1) 0)) ∧
      (s.target? (arg 0) = none → does .granaryHalt 0x20 s 1 ∧ (arg 1 = 0x60000000 → does .granaryHrd 0x21 (s.setCtl 0x5020 0) 1) ∧
        (a1 = 0 → does .granaryHres 0x24 (s.setCtl 0x5020 0) 1)) ∧
      (a0 < 4096 →
        does .killAsid 0x30 (((s.crewsOf a0).foldl (fun u k => u.stopCrew k.1 k.2 none { code := Code.killed }) s).killSavedOf
          fun v => v.crew.asid = a0) 0 ∧
        ∃ u, does .preemptAsid 0x31 u 0 ∧ u = { s with dies := u.dies } ∧
          ∀ core slot c, s.crew? core slot = some c → slot < 16 → c.asid = a0 → c.tentative = false →
            (core, slot) ∈ s.crewsOf a0 ∧ (core, c.uid) ∈ (u.die (dieOf core)).preReqs) ∧
      (4096 ≤ a0 → does .killAsid 0x30 s 2 ∧ does .preemptAsid 0x31 s 2) ∧
      does .snapshotCommand 0x40 (s.trigger 2 []) 0)

/-! ### The machine as a whole -/

/-- Encoding and decoding agree (R35, R39 to R48): the bytes of a well-formed instruction, whatever follows
them, decode in its own stream to that instruction and what follows; and bytes that decode to an instruction
are its bytes. -/
def Obligations.DecodeEncodeAgree : Prop :=
  (∀ (i : Instr) (x : Form) (rest : List Byte), i.form = some x → i.wf = true →
    decode x.matrix (encode i ++ rest) = .ok (i, rest)) ∧
  ∀ (matrix : Bool) (bs : List Byte) (i : Instr) (rest : List Byte), decode matrix bs = .ok (i, rest) →
    bs = encode i ++ rest ∧ ∃ x, i.form = some x ∧ x.matrix = matrix ∧ i.wf = true

/-- Words written out from the encoding (R35, R39 to R48): the worked words of the manual decode to the
instructions they are given for; LEN 0b11, a guard field of an unguarded word, an unassigned OP and a word cut
short decode to none. -/
def Obligations.WorkedWordsDecode : Prop :=
  decode false [0x98, 0x01, 0xA0, 0x10, 0x20, 0x30, 0x10, 0x00] =
    .ok (.ffma { d := 10, a := 1, b := 2, c := 3, fn := 1 }, []) ∧
  decode false [0x00, 0x05, 0x00, 0x50, 0x20, 0x00, 0x30, 0x24] =
    .ok (.jst { a := 5, b := 2, fn := 0x43, ka := true }, []) ∧
  decode false [0x90, 0xB8, 0x70, 0x30, 0x20, 0, 0, 0x40] =
    .ok (.iadd { guard := .on true 5, d := 7, a := 3, b := 2, kb := true }, []) ∧
  decode false [0x91, 0, 0x70, 0x30, 0, 0, 0, 0, 0x64, 0, 0, 0] = .ok (.iadd { len := .w96, d := 7, a := 3, imm := 100 }, []) ∧
  decode false [0x41, 0, 0, 0x10, 0, 0, 0x10, 0, 0x18, 0, 0, 0] =
    .ok (.dpush { len := .w96, a := 1, fn := 1, imm := 0x18 }, []) ∧
  decode false [0x81, 3, 0x50, 0x20, 0x30, 0, 0x40, 0x25, 0x10, 0, 0, 0] =
    .ok (.ld { len := .w96, d := 5, a := 2, b := 3, ka := true, fn := 0x54, imm := 0x10 }, []) ∧
  decode false [0x82, 4, 0, 0x60, 0x40, 0, 0, 0x60, 0x20, 0, 0, 0, 0x12, 0, 0, 0] =
    .ok (.cpyo { len := .w128, a := 6, b := 4, ka := true, kb := true, imm := 0x1200000020 }, []) ∧
  decode false [0x49, 0x2D, 0, 0x60, 0, 0, 0, 0x20, 0, 8, 0, 0] =
    .ok (.fres { len := .w96, guard := .on false 1, a := 6, ka := true, imm := 0x800 }, []) ∧
  decode true [6, 6, 0x40, 0x20, 0x30, 0, 0x10, 0, 0, 1, 0, 0x20, 0, 0x1E, 0, 0] =
    .ok (.mma { len := .w128, u := true, d := 4, a := 2, b := 3, fn := 1, imm := 0x1E0020000100 }, []) ∧
  decode true [0x26, 6, 0, 0x80, 0x60, 0x50, 0, 0, 0, 0, 0xF, 0, 0, 0x2D, 0, 0] =
    .ok (.mdrain { len := .w128, u := true, a := 8, b := 6, c := 5, imm := 0x2D00000F0000 }, []) ∧
  decode false [0x03, 0, 0, 0, 0, 0, 0, 0] = .error .len ∧
  decode false [0x08, 0x10, 0, 0, 0, 0, 0, 0] = .error .field ∧
  decode false [0, 0, 0, 0, 0, 0, 0, 0] = .error .op ∧
  decode false [0x08, 0, 0, 0] = .error .short

/-- Every step goes on and keeps memory's canonical form (R2, R212): from every state whose memory is canonical
the machine takes a next state, and its memory is canonical. (The form is this model's, log 7.) -/
def Obligations.StepKeepsMemory : Prop :=
  ∀ s : State, s.memWf → ∃ t, step s = .next t ∧ t.memWf

/-- Reset (R31, R91, R211, R290, R297, R340, R354, R355): the memories list nothing; the heartbeat, every watch word,
every counter of the issue slots and of sampling and the snapshot's words are zero; every outbox, view, copy queue,
pass queue and link queue is empty; control-block words are zero but for QBACKOFF and FWAIT.
The form of the memory is the model's (log 7). -/
def Obligations.ResetState : Prop :=
  let s := State.reset
  s.memWf ∧ s.mem = [] ∧ s.hostMem = [] ∧ s.dev.hb = 0 ∧ (∀ g, s.group? g = none) ∧ (∀ core slot, s.crew? core slot = none) ∧
  (∀ n, (s.core n).view = [] ∧ (s.core n).sample = 0 ∧ (s.core n).samples = [] ∧ (∀ l < 16, (s.core n).leaf.getD l 1 = 0) ∧
    ∀ w ∈ (s.core n).watch, w.ctl = 0 ∧ w.opa = 0 ∧ w.opb = 0 ∧ w.stat = 0) ∧
  s.copies = [] ∧ s.ops = [] ∧ (∀ n, tfind s.links n = none) ∧ s.heat = [] ∧
  s.dev.snap.ctl = 0 ∧ s.dev.snap.hb = 0 ∧ s.dev.snap.who = 0 ∧
  (∀ off, ¬(0x4900 ≤ off ∧ off < 0x4E00) → ¬(0x2000 ≤ off ∧ off < 0x2800 ∧ off % 32 = 16) → s.ctlw off = 0) ∧
  (∀ p, p < 64 → s.partd p 2 = 0x10000000) ∧ s.ctlw 0x4900 = 0x0004004000040040 ∧ s.ctlw 0x4910 = 0x00040040

/-- A step runs the decoded instruction (R37, R49, R174, R212, R216). `bs` is the 32-byte block that holds the PC, as
fetched; the bytes from the PC on decode to `i`. A group that runs, in no wait: the step is `exec i` there, with that
group as the actor. A group under a halt broadcast or stepped by a debugger: what surrounds the instruction is added
after it. A sequencer: as a group, in the matrix stream. A group in a wait that it polls runs its instruction again,
and a device event is itself. A fetch reads the block from memory where it is not cached; a
cached block runs only where its page is still mapped as pinned code (R37). Where a step halts a group
whose wait had ended, that group has its instruction behind it before the halt lands (R349, R212); where it halts
none, nothing is added. Moves are the model's own way of choosing the next step (logs 1 and 3). -/
def Obligations.StepRunsDecoded : Prop :=
  (∀ (s : State) (g : Gid) (rf : Bool) (rest : List Move) (r : Group),
    let s0 := { s with agenda := rest, refetch := rf }
    let c := s.crewOf g r
    let off := r.pc.toNat % 32
    let ended := ({ s with agenda := rest } : State).endedFirst
    s.agenda = .issue g rf :: rest → s.dev.power = true → s.dev.hold = false → s.group? g = some r →
    r.live ≠ 0 → r.traps = [] → c.saving = false → r.firmware = false →
    (∀ (s1 : State) (bs : List Byte) (i : Instr) (more : List Byte), r.wait = .none → r.pcBad = false →
      (r.linkBad = true → s0.fetchLinked g.core c.asid r.pc = false) →
      r.pc.toNat % 4 = 0 → off ≠ 28 → s0.fetchBlock g.core c.asid (r.pc.toNat - off) = .ok (s1, bs) → bs.length = 32 →
      decode false (bs.drop off) = .ok (i, more) →
      (r.halt.cause = 0 → r.stepper = none → r.bcast = none →
        step s = afterwards (exec i (({ s1 with actor := .grp g } : State).putGroup g { r with cur := i, capf := none }))
          ended) ∧
      (r.halt.cause = 0 ∨ r.stepper.isSome = true ∧ r.halt.cause ≠ 7 → (∀ n k, r.bcast = some (n, k) → n < 4) →
        step s = afterwards (exec i (s1.groupRun g r i)) fun t =>
          ended (s0.finish (s1.groupRun g r i) t g r (s0.stepLanes r i)))) ∧
    (∀ x, r.cur.form = some x → x.matrix = false → r.wait.polled = true → r.halt.cause ≠ 7 → r.stepper = none →
      r.bcast = none → step s = afterwards
        (exec r.cur (({ s0 with actor := .grp g } : State).putGroup g { r with capf := none })) ended)) ∧
  (∀ (s s1 : State) (core slot : Nat) (rf : Bool) (rest : List Move) (c : Crew) (bs : List Byte) (i : Instr) (more : List Byte),
    let off := c.seqr.mpc.toNat % 32
    s.agenda = .seq core slot rf :: rest → s.dev.power = true → s.dev.hold = false → s.crew? core slot = some c →
    c.seqr.exists_ = true → c.seqr.running = true → c.seqr.halted = false → c.tentative = false → c.saving = false →
    c.seqr.mpc.toNat % 4 = 0 → off ≠ 28 →
    ({ s with agenda := rest, refetch := rf } : State).fetchBlock core c.asid (c.seqr.mpc.toNat - off) = .ok (s1, bs) →
    bs.length = 32 → decode true (bs.drop off) = .ok (i, more) →
    step s = afterwards (exec i { s1 with actor := .seq core slot }) ({ s with agenda := rest } : State).endedFirst) ∧
  (∀ (s : State) (i : Instr) (rf : Bool) (rest : List Move), s.agenda = .event i rf :: rest →
    s.allows (.event i rf) = true → i.form = none →
    step s = afterwards (exec i { s with agenda := rest, actor := .device, refetch := rf })
      ({ s with agenda := rest } : State).endedFirst) ∧
  (∀ (s u : State), ((∀ e ∈ u.groups, e.2.halt.cause = 0) → s.endedFirst u = u) ∧
    ∀ g r x, g.slot < 32 → s.group? g = some r → u.group? g = some x → r.halt.cause = 0 → r.bcast = none →
      r.wait = x.wait → s.waitEnds g r = true → x.halt.cause ≠ 0 → x.halt.waiting = true →
      (s.endedFirst u).group? g = some { x with halt := {}, bcast := some (0, x.halt.cause), before := 0 }) ∧
  (∀ (s : State) (core asid b pa : Nat) (n : W64),
    s.refetch = true ∨ tfind (s.core core).icache (asid * 2 ^ 48 + b) = none →
    s.translate core asid b Acc.fetch false true = .ok pa n → s.softErr = [] →
    ∃ s1, s.fetchBlock core asid b = .ok (s1, s.bytes pa 32) ∧
      s1 = { s with cores := s1.cores, dies := s1.dies }) ∧
  -- a cached block runs only where it is still mapped as code
  (∀ (s : State) (core asid b : Nat) (bs : List Byte), s.refetch = false →
    tfind (s.core core).icache (asid * 2 ^ 48 + b) = some bs →
    (∀ pa n, s.translate core asid b Acc.fetch false true = .ok pa n → s.fetchBlock core asid b = .ok (s, bs)) ∧
    ∀ fr, s.translate core asid b Acc.fetch false true = .fault fr →
      s.fetchBlock core asid b = .error { fr with code := Code.addrv }) ∧
  ∀ s : State, s.agenda = [] →
    (∀ m, Config.schedule s.freeCtr = some m → step s = step { s with agenda := [m], freeCtr := s.freeCtr + 1 }) ∧
    (Config.schedule s.freeCtr = none → step s = .next { s with freeCtr := s.freeCtr + 1 })

/-- The checks every group instruction passes before its effect (R41, R49, R50, R182, R222, R292, R356): privilege,
then the registers' granules, each a crew-fatal fault; a group-wide instruction whose guard is false only moves the PC
on and takes its slot; an instruction that writes a register a posted pass holds waits, with nothing changed, and so
does one that names a register which a PROBE or an LPEEK has still to write, or that follows an LPEEK's reads (what
does is DEDUCED, log 97). No
barrier stands complete with its phase unflipped, as none does in a run (R220). -/
def Obligations.IssueChecks : Prop :=
  ∀ (i : Instr) (x : Form) (s : State) (g : Gid) (r : Group), i.form = some x → x.matrix = false →
    s.actor = .grp g → s.group? g = some r →
    (∀ core slot c, s.crew? core slot = some c → ∀ b ∈ c.bars, b.complete = false) →
    (s.levelOf g r < needsLevel i → exec i s = .next (s.crewFatal g r { code := Code.privop })) ∧
    (needsLevel i ≤ s.levelOf g r →
      (32 * r.gran < x.shape.extent x.f → exec i s = .next (s.crewFatal g r { code := Code.illreg })) ∧
      (x.shape.extent x.f ≤ 32 * r.gran →
        (x.f.u = true → s.guard r x.f 0 = false →
          exec i s = .next ((s.countIssue g false).putGroup g { r with pc := nextPc r.pc x.f.len, wskip := false })) ∧
        ((x.f.u = true → s.guard r x.f 0 = true) → s.writesHeld r (x.shape.writes x.f) = true ∨
          r.owes x.f x.shape = true → exec i s = .next s)))

/-! ### Accesses that fail -/

/-- The checks of a lane's access in R226's order, steps 1 to 4: the address and its alignment, the translation (R293,
R294), a write to a lattice page; and those of a scratch access (R74). The range of a region deregistered does not
translate, by the model's choice (log 107). -/
def Claims.AccessChecks : Prop :=
  (∀ (s : State) (core asid : Nat) (a : W64) (n align acc : Nat) (write : Bool),
    let c := s.chkGlobal core asid a n align acc write
    let va := a.toNat
    let fails := fun (code : Nat) => ∃ fr, c = .bad fr ∧ fr.code = code ∧ fr.va = a
    let fits := va < 2 ^ 48 ∧ va % align = 0
    (¬ fits → fails Code.addrv) ∧
    (fits → s.asidLive asid = false → fails Code.addrv) ∧
    (fits → s.asidLive asid = true →
      (∀ d o, s.region? asid va = some (d, o) → (write = true → fails Code.nonmono) ∧ (write = false → c = .lat d o)) ∧
      (s.region? asid va = none → s.goneAt asid va = true → fails Code.addrv) ∧
      (s.region? asid va = none → s.goneAt asid va = false →
        (∀ e lvl p, s.lookup core asid va = .stop e lvl p → fails (if p then Code.pagef else Code.addrv)) ∧
        ∀ e lvl ea, s.lookup core asid va = .leaf e lvl ea →
          (write = true → bitOf e 2 = false → fails (if bitOf e 6 then Code.pagef else Code.addrv)) ∧
          ((write = true → bitOf e 2 = true) → bitOf e 7 = false → s.softErr = [] →
            let pa := s.home (e.toNat / 2 ^ 12 % 2 ^ 40 * 4096 + va % pageSize lvl)
            isAway pa = false → c = .ok pa)))) ∧
  -- one level of the walk (R293, R294); a table on a peer that may not be accessed stops it (R370)
  (∀ (s : State) (asid va lvl tab : Nat),
    let ea := tab + 8 * (va / 2 ^ (12 + 9 * lvl) % 512)
    let e : W64 := BitVec.ofNat 64 (s.pword ea 8)
    (s.answers tab = false → s.walk asid va (lvl + 1) tab = .stop 0 (lvl + 1) false) ∧
    (s.answers tab = true → s.malformed asid va (lvl + 1) e = true →
      s.walk asid va (lvl + 1) tab = .stop e (lvl + 1) false) ∧
    (s.answers tab = true → s.malformed asid va (lvl + 1) e = false →
      (bitOf e 0 = false → s.walk asid va (lvl + 1) tab = .stop e (lvl + 1) (bitOf e 5 && !bitOf e 4)) ∧
      (bitOf e 0 = true → bitOf e 1 = true → s.walk asid va (lvl + 1) tab = .leaf e (lvl + 1) ea) ∧
      (bitOf e 0 = true → bitOf e 1 = false →
        s.walk asid va (lvl + 1) tab = s.walk asid va lvl (e.toNat / 2 ^ 12 % 2 ^ 40 * 4096)))) ∧
  ∀ (s : State) (g : Gid) (r : Group) (a : W64) (n align acc : Nat),
    let c := s.chkScratch g r a n align acc false
    let own := s.crewOf g r
    (own.hold.sg * 16384 < a.toNat + n ∨ a.toNat % align ≠ 0 →
      ∃ fr, c = .bad fr ∧ fr.code = Code.addrv) ∧
    (a.toNat + n ≤ own.hold.sg * 16384 → a.toNat % align = 0 → c = .scr own.uid a.toNat g.core r.crew)

/-- What an instruction does whose lanes fail those checks (R226, R263, R324, R299): with a lane that fails for good
no lane makes its access, and the crew stops with the fault of the lowest such lane; else, with one on a page that is
pending, none does either, and the group waits for the page; lanes in a range that a copy locks trap with RANGELK and the
others complete. A lattice instruction outside every region, or on one of another type, stops its crew too. That the
group-wide LDC's one access counts as every contributing lane's is the model's choice (log 128). -/
def Claims.FailingAccesses : Prop :=
  ∀ (f : Fields) (s : State) (g : Gid) (r : Group) (c : Crew), s.crew? g.core r.crew = some c → c.stop = none →
    r.inHandler = false → g.slot < 32 →
    let asid := s.asidOf g r
    let ls := s.contrib r f
    let n := tyBytes f.ty
    let access := fun (i : Instr) (lanes : List Nat) (chk : Nat → LChk) (ready : Prop) => ∀ x, Issues i x s g r → ready →
      let fatal := lanes.filter fun l => (chk l).fault?.any fun fr => fr.code < 0x100
      let pending := lanes.filter fun l => (chk l).fault?.any fun fr => 0x100 ≤ fr.code
      (∀ l rest fr, fatal = l :: rest → chk l = .bad fr →
        ∃ t, exec i s = .next t ∧ StopsFor s t g r fr (laneMask fatal)) ∧
      (∀ l rest fr, fatal = [] → pending = l :: rest → chk l = .bad fr →
        ∃ t, exec i s = .next t ∧ WaitsOnPage s t g r f fr (laneMask pending))
    let word := fun (acc : Nat) (write : Bool) l => s.chkWord g r (s.addr r f true l) n acc write
    let scratch := fun (acc : Nat) l => s.chkScratch g r (s.addr r f false l) n n acc (f.fnBits 8 8 == 1)
    let loads := fun (chk : Nat → LChk) => ∀ l ∈ s.activeLanes r f, s.loadBlocked r n (chk l) = false
    let stores := fun (n : Nat) (chk : Nat → LChk) => ∀ l ∈ ls, s.storeBlocked n (chk l) = false
    let w := Fields.atomW f / 8
    let atom := fun l => r.linked (s.addrPlain r f true l) Acc.atomic
      (s.chkGlobal g.core asid (s.addrPlain r f true l) w w Acc.atomic true)
    let atoms := fun l => s.chkScratch g r (s.addrPlain r f false l) w w Acc.atomic false
    let block := fun (acc : Nat) (write : Bool) l =>
      (s.chkBlk r g.core asid (s.src64 r false f.ka f.a l) (s.src64 r false f.kb f.b l) f.gb acc write).1
    access (.ld f) ls (word Acc.load false) (loads (word Acc.load false)) ∧
    access (.lds f) ls (scratch Acc.load) (loads (scratch Acc.load)) ∧
    (f.u = false → access (.ldc f) ls (word Acc.load false) (loads (word Acc.load false))) ∧
    (f.u = true → access (.ldc f) (if ls = [] then [0] else ls) (word Acc.load false) (s.loadBlocked r n (word Acc.load false 0) = false)) ∧
    access (.st f) ls (word Acc.store true) True ∧
    access (.sts f) ls (scratch Acc.store) (stores n (scratch Acc.store)) ∧
    access (.atom f) ls atom True ∧ access (.atoms f) ls atoms (stores w atoms) ∧
    access (.ldb f) ls (block Acc.load false) (r.outbox = []) ∧ access (.stb f) ls (block Acc.store true) True ∧
    -- the lattice instructions: ADDRV in no region of the ASID, LATTYPE in one of another type, NONMONO of a NaN
    (let cell := fun (timed : Bool) (acc : Nat) (v : Nat → Nat) l => match s.chkLat asid f (s.latAddr r f timed l) acc with
       | .lat d o => if latNan (s.regionOf d).typ (v l)
           then LChk.bad { code := Code.nonmono, acc := acc, va := s.latAddr r f timed l } else .lat d o
       | x => x
     let v := fun l => if f.latTyp = 9 then (s.src32 r false f.kb f.b l).toNat else s.latVal r (Fields.cell f) f.kb f.b l
     let thr := fun l => s.latVal r (4 * f.latRegs) f.kb f.b l
     access (.jst f) ls (cell false Acc.store v) True ∧ access (.mst f) ls (cell false Acc.store v) True ∧
     access (.tld f) ls (cell false Acc.load thr) True ∧ access (.tldt f) ls (cell true Acc.load thr) True ∧
     access (.lpeek f) ls (fun l => s.chkLat asid f (s.latAddr r f false l) Acc.load) True) ∧
    -- RANGELK
    (∀ x, Issues (.st f) x s g r → s.untraced g r → (∀ l ∈ ls, (word Acc.store true l).fault? = none) →
      let lock := fun l => s.lockedAt g r n (word Acc.store true l) (s.addr r f true l)
      let go := ls.filter fun l => !lock l
      let es := storeEntries (go.flatMap fun l => laneCells l (word Acc.store true l) (s.addr r f true l).toNat (s.storeData r f l))
      ∃ t ts, exec (.st f) s = .next t ∧ t.mem = s.mem ∧ t.vreg = s.vreg ∧
        t.group? g = some { r.next f with
          wskip := false, traps := r.traps ++ ts, outbox := r.outbox ++ es.map fun e => { e with pc := r.pc } } ∧
        ts.map (fun t => (t.lane, t.code, t.pc, t.addr)) =
          (ls.filter lock).map fun l => (l, Code.rangelk, r.pc, s.addr r f true l)) ∧
    ∀ x, Issues (.ld f) x s g r → s.untraced g r → loads (word Acc.load false) → s.activeLanes r f = ls →
      (∀ l ∈ ls, (word Acc.load false l).fault? = none ∧
        ∀ pa, word Acc.load false l = .ok pa → isAway pa = false ∧ pa % 64 + n ≤ 64) →
      let lock := fun l => s.lockedAt g r n (word Acc.load false l) (s.addr r f true l)
      ∃ t ts, exec (.ld f) s = .next t ∧ t.mem = s.mem ∧
        VWritten s t r (ls.filter fun l => !lock l)
          (fun l => pieces f.d.toNat (widen f.ty (s.loadUnit g r n (word Acc.load false l)).1)) ∧
        t.group? g = some { r.next f with wskip := false, traps := r.traps ++ ts } ∧
        ts.map (fun t => (t.lane, t.code, t.pc, t.addr)) =
          (ls.filter lock).map fun l => (l, Code.rangelk, r.pc, s.addr r f true l)

/-- Accesses that fail (R74, R218, R226, R263, R293, R294, R299, R324): which check fails with which code, and what the
instruction then does. -/
def Obligations.AccessFaults : Prop := Claims.AccessChecks ∧ Claims.FailingAccesses
end

