-- ==== Sys2Proof/Laws/Exec.lean ====
section
/-! SUPPORT. The meaning `exec` calls for each constructor. -/

namespace Sys2Proof.Machine

theorem exec_powerOnReset (imageOk : Bool) (failed : List (Nat × Nat)) (domId : Nat) (s : State) :
    exec (.powerOnReset imageOk failed domId) s = execPowerOnReset imageOk failed domId s := rfl
theorem exec_linkRetryFailure (link : Nat) (who : LinkUser) (s : State) : exec (.linkRetryFailure link who) s = execLinkRetryFailure link who s := rfl
theorem exec_drain (g : Gid) (k : Nat) (s : State) : exec (.drain g k) s = execDrain g k s := rfl
theorem exec_evict (core line : Nat) (s : State) : exec (.evict core line) s = execEvict core line s := rfl
theorem exec_remoteReply (g : Gid) (s : State) : exec (.remoteReply g) s = execRemoteReply g s := rfl
theorem exec_taskRecordValidation (die : Nat) (s : State) : exec (.taskRecordValidation die) s = execTaskRecordValidation die s := rfl
theorem exec_dispatchDecision (die : Nat) (s : State) : exec (.dispatchDecision die) s = execDispatchDecision die s := rfl
theorem exec_admissionCommit (die : Nat) (s : State) : exec (.admissionCommit die) s = execAdmissionCommit die s := rfl
theorem exec_admissionRelease (die : Nat) (s : State) : exec (.admissionRelease die) s = execAdmissionRelease die s := rfl
theorem exec_coreReservation (die : Nat) (s : State) : exec (.coreReservation die) s = execCoreReservation die s := rfl
theorem exec_preemptionRequest (core slot : Nat) (s : State) : exec (.preemptionRequest core slot) s = execPreemptionRequest core slot s := rfl
theorem exec_crewEviction (core slot : Nat) (s : State) : exec (.crewEviction core slot) s = execCrewEviction core slot s := rfl
theorem exec_crewRestore (id core : Nat) (s : State) : exec (.crewRestore id core) s = execCrewRestore id core s := rfl
theorem exec_fullTestEnd (core : Nat) (s : State) : exec (.fullTestEnd core) s = execFullTestEnd core s := rfl
theorem exec_spawnRecordStart (core k : Nat) (s : State) : exec (.spawnRecordStart core k) s = execSpawnRecordStart core k s := rfl
theorem exec_overflowRingMove (core : Nat) (s : State) : exec (.overflowRingMove core) s = execOverflowRingMove core s := rfl
theorem exec_crewRetire (core slot : Nat) (s : State) : exec (.crewRetire core slot) s = execCrewRetire core slot s := rfl
theorem exec_queueEntryReceipt (link : Nat) (full : Bool) (s : State) : exec (.queueEntryReceipt link full) s = execQueueEntryReceipt link full s := rfl
theorem exec_acknowledgement (link : Nat) (s : State) : exec (.acknowledgement link) s = execAcknowledgement link s := rfl
theorem exec_negativeAcknowledgement (link : Nat) (s : State) : exec (.negativeAcknowledgement link) s = execNegativeAcknowledgement link s := rfl
theorem exec_backoffExpiry (link : Nat) (s : State) : exec (.backoffExpiry link) s = execBackoffExpiry link s := rfl
theorem exec_sleepExpiry (g : Gid) (s : State) : exec (.sleepExpiry g) s = execSleepExpiry g s := rfl
theorem exec_yieldEnd (g : Gid) (s : State) : exec (.yieldEnd g) s = execYieldEnd g s := rfl
theorem exec_copyIssue (g : Gid) (s : State) : exec (.copyIssue g) s = execCopyIssue g s := rfl
theorem exec_beat (id k : Nat) (s : State) : exec (.beat id k) s = execBeat id k s := rfl
theorem exec_copyCompletion (id : Nat) (s : State) : exec (.copyCompletion id) s = execCopyCompletion id s := rfl
theorem exec_arbiterGrant (engine : Nat) (s : State) : exec (.arbiterGrant engine) s = execArbiterGrant engine s := rfl
theorem exec_passSegment (id : Nat) (s : State) : exec (.passSegment id) s = execPassSegment id s := rfl
theorem exec_passCompletion (id : Nat) (s : State) : exec (.passCompletion id) s = execPassCompletion id s := rfl
theorem exec_siloOperationCompletion (id : Nat) (s : State) : exec (.siloOperationCompletion id) s = execSiloOperationCompletion id s := rfl
theorem exec_engineResume (engine : Nat) (failed : List Nat) (s : State) : exec (.engineResume engine failed) s = execEngineResume engine failed s := rfl
theorem exec_push (k : Nat) (s : State) : exec (.push k) s = execPush k s := rfl
theorem exec_exchange (desc src line : Nat) (s : State) : exec (.exchange desc src line) s = execExchange desc src line s := rfl
theorem exec_phaseEnd (desc : Nat) (stretched : Bool) (s : State) : exec (.phaseEnd desc stretched) s = execPhaseEnd desc stretched s := rfl
theorem exec_thresholdLoad (g : Gid) (s : State) : exec (.thresholdLoad g) s = execThresholdLoad g s := rfl
theorem exec_tldtTimeout (g : Gid) (s : State) : exec (.tldtTimeout g) s = execTldtTimeout g s := rfl
theorem exec_lsyncDone (g : Gid) (s : State) : exec (.lsyncDone g) s = execLsyncDone g s := rfl
theorem exec_futureWaitReturn (g : Gid) (s : State) : exec (.futureWaitReturn g) s = execFutureWaitReturn g s := rfl
theorem exec_fwaitExpiry (g : Gid) (s : State) : exec (.fwaitExpiry g) s = execFwaitExpiry g s := rfl
theorem exec_faultRecordWrite (part : Nat) (s : State) : exec (.faultRecordWrite part) s = execFaultRecordWrite part s := rfl
theorem exec_heatSample (core frame : Nat) (s : State) : exec (.heatSample core frame) s = execHeatSample core frame s := rfl
theorem exec_trapCompaction (core slot : Nat) (s : State) : exec (.trapCompaction core slot) s = execTrapCompaction core slot s := rfl
theorem exec_sheafHaltArrival (core slot : Nat) (s : State) : exec (.sheafHaltArrival core slot) s = execSheafHaltArrival core slot s := rfl
theorem exec_fatalHandlerStart (core slot : Nat) (s : State) : exec (.fatalHandlerStart core slot) s = execFatalHandlerStart core slot s := rfl
theorem exec_queuePoll (lane : Nat) (s : State) : exec (.queuePoll lane) s = execQueuePoll lane s := rfl
theorem exec_deviceLaunchQueueTake (lane : Nat) (s : State) : exec (.deviceLaunchQueueTake lane) s = execDeviceLaunchQueueTake lane s := rfl
theorem exec_queueRestart (lane : Nat) (s : State) : exec (.queueRestart lane) s = execQueueRestart lane s := rfl
theorem exec_regionRegistration (desc : Nat) (w : W64) (s : State) : exec (.regionRegistration desc w) s = execRegionRegistration desc w s := rfl
theorem exec_regionDeregistration (desc : Nat) (w : W64) (s : State) : exec (.regionDeregistration desc w) s = execRegionDeregistration desc w s := rfl
theorem exec_partitionEnable (part : Nat) (w : W64) (s : State) : exec (.partitionEnable part w) s = execPartitionEnable part w s := rfl
theorem exec_asidDisable (asid : Nat) (w : W64) (s : State) : exec (.asidDisable asid w) s = execAsidDisable asid w s := rfl
theorem exec_poolWindowEnable (port win : Nat) (w : W64) (trained : Bool) (s : State) : exec (.poolWindowEnable port win w trained) s = execPoolWindowEnable port win w trained s := rfl
theorem exec_poolWindowDisable (port win : Nat) (w : W64) (s : State) : exec (.poolWindowDisable port win w) s = execPoolWindowDisable port win w s := rfl
theorem exec_freplay (part : Nat) (w : W64) (s : State) : exec (.freplay part w) s = execFreplay part w s := rfl
theorem exec_pteUpdate (die : Nat) (s : State) : exec (.pteUpdate die) s = execPteUpdate die s := rfl
theorem exec_pteInvalidate (die : Nat) (s : State) : exec (.pteInvalidate die) s = execPteInvalidate die s := rfl
theorem exec_shootdownComplete (die : Nat) (s : State) : exec (.shootdownComplete die) s = execShootdownComplete die s := rfl
theorem exec_bar2Read (off size : Nat) (s : State) : exec (.bar2Read off size) s = execBar2Read off size s := rfl
theorem exec_bar2Write (off size : Nat) (val : W64) (s : State) : exec (.bar2Write off size val) s = execBar2Write off size val s := rfl
theorem exec_registerWrite (who : Agent) (off : Nat) (w : W64) (s : State) : exec (.registerWrite who off w) s = execRegisterWrite who off w s := rfl
theorem exec_nop (f : Fields) (s : State) : exec (.nop f) s = execNop f s := rfl
theorem exec_exit (f : Fields) (s : State) : exec (.exit f) s = execExit f s := rfl
theorem exec_bra (f : Fields) (s : State) : exec (.bra f) s = execBra f s := rfl
theorem exec_brx (f : Fields) (s : State) : exec (.brx f) s = execBrx f s := rfl
theorem exec_call (f : Fields) (s : State) : exec (.call f) s = execCall f s := rfl
theorem exec_callI (f : Fields) (s : State) : exec (.callI f) s = execCallI f s := rfl
theorem exec_ret (f : Fields) (s : State) : exec (.ret f) s = execRet f s := rfl
theorem exec_loop (f : Fields) (s : State) : exec (.loop f) s = execLoop f s := rfl
theorem exec_dpush (f : Fields) (s : State) : exec (.dpush f) s = execDpush f s := rfl
theorem exec_delse (f : Fields) (s : State) : exec (.delse f) s = execDelse f s := rfl
theorem exec_dpop (f : Fields) (s : State) : exec (.dpop f) s = execDpop f s := rfl
theorem exec_repack (f : Fields) (s : State) : exec (.repack f) s = execRepack f s := rfl
theorem exec_unpack (f : Fields) (s : State) : exec (.unpack f) s = execUnpack f s := rfl
theorem exec_setfmt (f : Fields) (s : State) : exec (.setfmt f) s = execSetfmt f s := rfl
theorem exec_yield (f : Fields) (s : State) : exec (.yield f) s = execYield f s := rfl
theorem exec_sleep (f : Fields) (s : State) : exec (.sleep f) s = execSleep f s := rfl
theorem exec_movs (f : Fields) (s : State) : exec (.movs f) s = execMovs f s := rfl
theorem exec_movsw (f : Fields) (s : State) : exec (.movsw f) s = execMovsw f s := rfl
theorem exec_leader (f : Fields) (s : State) : exec (.leader f) s = execLeader f s := rfl
theorem exec_mov (f : Fields) (s : State) : exec (.mov f) s = execMov f s := rfl
theorem exec_movi (f : Fields) (s : State) : exec (.movi f) s = execMovi f s := rfl
theorem exec_sel (f : Fields) (s : State) : exec (.sel f) s = execSel f s := rfl
theorem exec_iadd (f : Fields) (s : State) : exec (.iadd f) s = execIadd f s := rfl
theorem exec_iaddc (f : Fields) (s : State) : exec (.iaddc f) s = execIaddc f s := rfl
theorem exec_isub (f : Fields) (s : State) : exec (.isub f) s = execIsub f s := rfl
theorem exec_isubb (f : Fields) (s : State) : exec (.isubb f) s = execIsubb f s := rfl
theorem exec_imul (f : Fields) (s : State) : exec (.imul f) s = execImul f s := rfl
theorem exec_imulh (f : Fields) (s : State) : exec (.imulh f) s = execImulh f s := rfl
theorem exec_imad (f : Fields) (s : State) : exec (.imad f) s = execImad f s := rfl
theorem exec_imadw (f : Fields) (s : State) : exec (.imadw f) s = execImadw f s := rfl
theorem exec_iabs (f : Fields) (s : State) : exec (.iabs f) s = execIabs f s := rfl
theorem exec_ineg (f : Fields) (s : State) : exec (.ineg f) s = execIneg f s := rfl
theorem exec_imin (f : Fields) (s : State) : exec (.imin f) s = execImin f s := rfl
theorem exec_imax (f : Fields) (s : State) : exec (.imax f) s = execImax f s := rfl
theorem exec_icmp (f : Fields) (s : State) : exec (.icmp f) s = execIcmp f s := rfl
theorem exec_lea (f : Fields) (s : State) : exec (.lea f) s = execLea f s := rfl
theorem exec_and (f : Fields) (s : State) : exec (.and f) s = execAnd f s := rfl
theorem exec_or (f : Fields) (s : State) : exec (.or f) s = execOr f s := rfl
theorem exec_xor (f : Fields) (s : State) : exec (.xor f) s = execXor f s := rfl
theorem exec_not (f : Fields) (s : State) : exec (.not f) s = execNot f s := rfl
theorem exec_btab (f : Fields) (s : State) : exec (.btab f) s = execBtab f s := rfl
theorem exec_shl (f : Fields) (s : State) : exec (.shl f) s = execShl f s := rfl
theorem exec_shr (f : Fields) (s : State) : exec (.shr f) s = execShr f s := rfl
theorem exec_sha (f : Fields) (s : State) : exec (.sha f) s = execSha f s := rfl
theorem exec_rot (f : Fields) (s : State) : exec (.rot f) s = execRot f s := rfl
theorem exec_bfx (f : Fields) (s : State) : exec (.bfx f) s = execBfx f s := rfl
theorem exec_bfi (f : Fields) (s : State) : exec (.bfi f) s = execBfi f s := rfl
theorem exec_popc (f : Fields) (s : State) : exec (.popc f) s = execPopc f s := rfl
theorem exec_clz (f : Fields) (s : State) : exec (.clz f) s = execClz f s := rfl
theorem exec_brev (f : Fields) (s : State) : exec (.brev f) s = execBrev f s := rfl
theorem exec_bysel (f : Fields) (s : State) : exec (.bysel f) s = execBysel f s := rfl
theorem exec_dot4 (f : Fields) (s : State) : exec (.dot4 f) s = execDot4 f s := rfl
theorem exec_fadd (f : Fields) (s : State) : exec (.fadd f) s = execFadd f s := rfl
theorem exec_fsub (f : Fields) (s : State) : exec (.fsub f) s = execFsub f s := rfl
theorem exec_fmul (f : Fields) (s : State) : exec (.fmul f) s = execFmul f s := rfl
theorem exec_ffma (f : Fields) (s : State) : exec (.ffma f) s = execFfma f s := rfl
theorem exec_fmin (f : Fields) (s : State) : exec (.fmin f) s = execFmin f s := rfl
theorem exec_fmax (f : Fields) (s : State) : exec (.fmax f) s = execFmax f s := rfl
theorem exec_fcmp (f : Fields) (s : State) : exec (.fcmp f) s = execFcmp f s := rfl
theorem exec_fdiv (f : Fields) (s : State) : exec (.fdiv f) s = execFdiv f s := rfl
theorem exec_fsqrt (f : Fields) (s : State) : exec (.fsqrt f) s = execFsqrt f s := rfl
theorem exec_frcp (f : Fields) (s : State) : exec (.frcp f) s = execFrcp f s := rfl
theorem exec_frsq (f : Fields) (s : State) : exec (.frsq f) s = execFrsq f s := rfl
theorem exec_fexp2 (f : Fields) (s : State) : exec (.fexp2 f) s = execFexp2 f s := rfl
theorem exec_flog2 (f : Fields) (s : State) : exec (.flog2 f) s = execFlog2 f s := rfl
theorem exec_frnd (f : Fields) (s : State) : exec (.frnd f) s = execFrnd f s := rfl
theorem exec_fclass (f : Fields) (s : State) : exec (.fclass f) s = execFclass f s := rfl
theorem exec_pfma (f : Fields) (s : State) : exec (.pfma f) s = execPfma f s := rfl
theorem exec_f2f (f : Fields) (s : State) : exec (.f2f f) s = execF2f f s := rfl
theorem exec_f2i (f : Fields) (s : State) : exec (.f2i f) s = execF2i f s := rfl
theorem exec_i2f (f : Fields) (s : State) : exec (.i2f f) s = execI2f f s := rfl
theorem exec_qblk (f : Fields) (s : State) : exec (.qblk f) s = execQblk f s := rfl
theorem exec_dqblk (f : Fields) (s : State) : exec (.dqblk f) s = execDqblk f s := rfl
theorem exec_lxch (f : Fields) (s : State) : exec (.lxch f) s = execLxch f s := rfl
theorem exec_qswz (f : Fields) (s : State) : exec (.qswz f) s = execQswz f s := rfl
theorem exec_qbcast (f : Fields) (s : State) : exec (.qbcast f) s = execQbcast f s := rfl
theorem exec_qdiff (f : Fields) (s : State) : exec (.qdiff f) s = execQdiff f s := rfl
theorem exec_pcoll (f : Fields) (s : State) : exec (.pcoll f) s = execPcoll f s := rfl
theorem exec_redg (f : Fields) (s : State) : exec (.redg f) s = execRedg f s := rfl
theorem exec_scang (f : Fields) (s : State) : exec (.scang f) s = execScang f s := rfl
theorem exec_bcastg (f : Fields) (s : State) : exec (.bcastg f) s = execBcastg f s := rfl
theorem exec_matchg (f : Fields) (s : State) : exec (.matchg f) s = execMatchg f s := rfl
theorem exec_plop (f : Fields) (s : State) : exec (.plop f) s = execPlop f s := rfl
theorem exec_pmov (f : Fields) (s : State) : exec (.pmov f) s = execPmov f s := rfl
theorem exec_qlop (f : Fields) (s : State) : exec (.qlop f) s = execQlop f s := rfl
theorem exec_ld (f : Fields) (s : State) : exec (.ld f) s = execLd f s := rfl
theorem exec_st (f : Fields) (s : State) : exec (.st f) s = execSt f s := rfl
theorem exec_lds (f : Fields) (s : State) : exec (.lds f) s = execLds f s := rfl
theorem exec_sts (f : Fields) (s : State) : exec (.sts f) s = execSts f s := rfl
theorem exec_ldc (f : Fields) (s : State) : exec (.ldc f) s = execLdc f s := rfl
theorem exec_ldb (f : Fields) (s : State) : exec (.ldb f) s = execLdb f s := rfl
theorem exec_stb (f : Fields) (s : State) : exec (.stb f) s = execStb f s := rfl
theorem exec_spill (f : Fields) (s : State) : exec (.spill f) s = execSpill f s := rfl
theorem exec_fill (f : Fields) (s : State) : exec (.fill f) s = execFill f s := rfl
theorem exec_pref (f : Fields) (s : State) : exec (.pref f) s = execPref f s := rfl
theorem exec_cctlIc (f : Fields) (s : State) : exec (.cctlIc f) s = execCctlIc f s := rfl
theorem exec_cctlView (f : Fields) (s : State) : exec (.cctlView f) s = execCctlView f s := rfl
theorem exec_cctlWb (f : Fields) (s : State) : exec (.cctlWb f) s = execCctlWb f s := rfl
theorem exec_atom (f : Fields) (s : State) : exec (.atom f) s = execAtom f s := rfl
theorem exec_atoms (f : Fields) (s : State) : exec (.atoms f) s = execAtoms f s := rfl
theorem exec_fence (f : Fields) (s : State) : exec (.fence f) s = execFence f s := rfl
theorem exec_fsc (f : Fields) (s : State) : exec (.fsc f) s = execFsc f s := rfl
theorem exec_cpyt (f : Fields) (s : State) : exec (.cpyt f) s = execCpyt f s := rfl
theorem exec_cpyo (f : Fields) (s : State) : exec (.cpyo f) s = execCpyo f s := rfl
theorem exec_cpyb (f : Fields) (s : State) : exec (.cpyb f) s = execCpyb f s := rfl
theorem exec_binit (f : Fields) (s : State) : exec (.binit f) s = execBinit f s := rfl
theorem exec_barv (f : Fields) (s : State) : exec (.barv f) s = execBarv f s := rfl
theorem exec_bwait (f : Fields) (s : State) : exec (.bwait f) s = execBwait f s := rfl
theorem exec_barw (f : Fields) (s : State) : exec (.barw f) s = execBarw f s := rfl
theorem exec_bexp (f : Fields) (s : State) : exec (.bexp f) s = execBexp f s := rfl
theorem exec_btest (f : Fields) (s : State) : exec (.btest f) s = execBtest f s := rfl
theorem exec_sqcfg (f : Fields) (s : State) : exec (.sqcfg f) s = execSqcfg f s := rfl
theorem exec_sqwait (f : Fields) (s : State) : exec (.sqwait f) s = execSqwait f s := rfl
theorem exec_sqrel (f : Fields) (s : State) : exec (.sqrel f) s = execSqrel f s := rfl
theorem exec_jst (f : Fields) (s : State) : exec (.jst f) s = execJst f s := rfl
theorem exec_mst (f : Fields) (s : State) : exec (.mst f) s = execMst f s := rfl
theorem exec_tld (f : Fields) (s : State) : exec (.tld f) s = execTld f s := rfl
theorem exec_tldt (f : Fields) (s : State) : exec (.tldt f) s = execTldt f s := rfl
theorem exec_lpeek (f : Fields) (s : State) : exec (.lpeek f) s = execLpeek f s := rfl
theorem exec_ljoin (f : Fields) (s : State) : exec (.ljoin f) s = execLjoin f s := rfl
theorem exec_lcmp (f : Fields) (s : State) : exec (.lcmp f) s = execLcmp f s := rfl
theorem exec_lsync (f : Fields) (s : State) : exec (.lsync f) s = execLsync f s := rfl
theorem exec_freg (f : Fields) (s : State) : exec (.freg f) s = execFreg f s := rfl
theorem exec_fregWait (f : Fields) (s : State) : exec (.fregWait f) s = execFregWait f s := rfl
theorem exec_fres (f : Fields) (s : State) : exec (.fres f) s = execFres f s := rfl
theorem exec_fpois (f : Fields) (s : State) : exec (.fpois f) s = execFpois f s := rfl
theorem exec_spawn (f : Fields) (s : State) : exec (.spawn f) s = execSpawn f s := rfl
theorem exec_tsub (f : Fields) (s : State) : exec (.tsub f) s = execTsub f s := rfl
theorem exec_qpop (f : Fields) (s : State) : exec (.qpop f) s = execQpop f s := rfl
theorem exec_qpush (f : Fields) (s : State) : exec (.qpush f) s = execQpush f s := rfl
theorem exec_claim (f : Fields) (s : State) : exec (.claim f) s = execClaim f s := rfl
theorem exec_release (f : Fields) (s : State) : exec (.release f) s = execRelease f s := rfl
theorem exec_rgsur (f : Fields) (s : State) : exec (.rgsur f) s = execRgsur f s := rfl
theorem exec_rgclm (f : Fields) (s : State) : exec (.rgclm f) s = execRgclm f s := rfl
theorem exec_clqry (f : Fields) (s : State) : exec (.clqry f) s = execClqry f s := rfl
theorem exec_helperOn (f : Fields) (s : State) : exec (.helperOn f) s = execHelperOn f s := rfl
theorem exec_helperOff (f : Fields) (s : State) : exec (.helperOff f) s = execHelperOff f s := rfl
theorem exec_helperRd (f : Fields) (s : State) : exec (.helperRd f) s = execHelperRd f s := rfl
theorem exec_mma (f : Fields) (s : State) : exec (.mma f) s = execMma f s := rfl
theorem exec_mmas (f : Fields) (s : State) : exec (.mmas f) s = execMmas f s := rfl
theorem exec_mzero (f : Fields) (s : State) : exec (.mzero f) s = execMzero f s := rfl
theorem exec_mfill (f : Fields) (s : State) : exec (.mfill f) s = execMfill f s := rfl
theorem exec_mdrain (f : Fields) (s : State) : exec (.mdrain f) s = execMdrain f s := rfl
theorem exec_mcpyOut (f : Fields) (s : State) : exec (.mcpyOut f) s = execMcpyOut f s := rfl
theorem exec_mcpyIn (f : Fields) (s : State) : exec (.mcpyIn f) s = execMcpyIn f s := rfl
theorem exec_mtld (f : Fields) (s : State) : exec (.mtld f) s = execMtld f s := rfl
theorem exec_mcfgFmt (f : Fields) (s : State) : exec (.mcfgFmt f) s = execMcfgFmt f s := rfl
theorem exec_mcfgFmtm (f : Fields) (s : State) : exec (.mcfgFmtm f) s = execMcfgFmtm f s := rfl
theorem exec_mcfgGrp (f : Fields) (s : State) : exec (.mcfgGrp f) s = execMcfgGrp f s := rfl
theorem exec_msync (f : Fields) (s : State) : exec (.msync f) s = execMsync f s := rfl
theorem exec_mbarArv (f : Fields) (s : State) : exec (.mbarArv f) s = execMbarArv f s := rfl
theorem exec_mbarWait (f : Fields) (s : State) : exec (.mbarWait f) s = execMbarWait f s := rfl
theorem exec_mstat (f : Fields) (s : State) : exec (.mstat f) s = execMstat f s := rfl
theorem exec_seqMovi (f : Fields) (s : State) : exec (.seqMovi f) s = execSeqMovi f s := rfl
theorem exec_seqIadd (f : Fields) (s : State) : exec (.seqIadd f) s = execSeqIadd f s := rfl
theorem exec_seqIsub (f : Fields) (s : State) : exec (.seqIsub f) s = execSeqIsub f s := rfl
theorem exec_seqIcmp (f : Fields) (s : State) : exec (.seqIcmp f) s = execSeqIcmp f s := rfl
theorem exec_seqBra (f : Fields) (s : State) : exec (.seqBra f) s = execSeqBra f s := rfl
theorem exec_seqLoop (f : Fields) (s : State) : exec (.seqLoop f) s = execSeqLoop f s := rfl
theorem exec_seqExit (f : Fields) (s : State) : exec (.seqExit f) s = execSeqExit f s := rfl
theorem exec_trap (f : Fields) (s : State) : exec (.trap f) s = execTrap f s := rfl
theorem exec_trapHset (f : Fields) (s : State) : exec (.trapHset f) s = execTrapHset f s := rfl
theorem exec_trapFset (f : Fields) (s : State) : exec (.trapFset f) s = execTrapFset f s := rfl
theorem exec_tret (f : Fields) (s : State) : exec (.tret f) s = execTret f s := rfl
theorem exec_tretWr (f : Fields) (s : State) : exec (.tretWr f) s = execTretWr f s := rfl
theorem exec_bkpt (f : Fields) (s : State) : exec (.bkpt f) s = execBkpt f s := rfl
theorem exec_bkptCrew (f : Fields) (s : State) : exec (.bkptCrew f) s = execBkptCrew f s := rfl
theorem exec_dump (f : Fields) (s : State) : exec (.dump f) s = execDump f s := rfl
theorem exec_errinj (f : Fields) (s : State) : exec (.errinj f) s = execErrinj f s := rfl
theorem exec_wpset (f : Fields) (s : State) : exec (.wpset f) s = execWpset f s := rfl
theorem exec_wpclr (f : Fields) (s : State) : exec (.wpclr f) s = execWpclr f s := rfl
theorem exec_wprd (f : Fields) (s : State) : exec (.wprd f) s = execWprd f s := rfl
theorem exec_hrd (f : Fields) (s : State) : exec (.hrd f) s = execHrd f s := rfl
theorem exec_hwr (f : Fields) (s : State) : exec (.hwr f) s = execHwr f s := rfl
theorem exec_hstep (f : Fields) (s : State) : exec (.hstep f) s = execHstep f s := rfl
theorem exec_hstepLane (f : Fields) (s : State) : exec (.hstepLane f) s = execHstepLane f s := rfl
theorem exec_hres (f : Fields) (s : State) : exec (.hres f) s = execHres f s := rfl
theorem exec_hresCrew (f : Fields) (s : State) : exec (.hresCrew f) s = execHresCrew f s := rfl
theorem exec_hresSheaf (f : Fields) (s : State) : exec (.hresSheaf f) s = execHresSheaf f s := rfl
theorem exec_snap (f : Fields) (s : State) : exec (.snap f) s = execSnap f s := rfl
theorem exec_probe (f : Fields) (s : State) : exec (.probe f) s = execProbe f s := rfl
theorem exec_trace (f : Fields) (s : State) : exec (.trace f) s = execTrace f s := rfl
theorem exec_heatrd (f : Fields) (s : State) : exec (.heatrd f) s = execHeatrd f s := rfl
theorem exec_cctlCompletion (g : Gid) (s : State) : exec (.cctlCompletion g) s = execCctlCompletion g s := rfl
theorem exec_msixUnmask (vec : Nat) (s : State) : exec (.msixUnmask vec) s = execMsixUnmask vec s := rfl
theorem exec_peerLinkChange (s : State) : exec .peerLinkChange s = execPeerLinkChange s := rfl
theorem exec_backInvalidate (s : State) : exec .backInvalidate s = execBackInvalidate s := rfl
theorem exec_tick (s : State) : exec .tick s = execTick s := rfl
theorem exec_sensorSample (s : State) : exec .sensorSample s = execSensorSample s := rfl
theorem exec_coolPeriodExpiry (s : State) : exec .coolPeriodExpiry s = execCoolPeriodExpiry s := rfl
theorem exec_engineWatchdogExpiry (s : State) : exec .engineWatchdogExpiry s = execEngineWatchdogExpiry s := rfl
theorem exec_snapshotTrigger (s : State) : exec .snapshotTrigger s = execSnapshotTrigger s := rfl
theorem exec_snapshotLatch (s : State) : exec .snapshotLatch s = execSnapshotLatch s := rfl
theorem exec_thresherRound (s : State) : exec .thresherRound s = execThresherRound s := rfl
theorem exec_nopPacket (s : State) : exec .nopPacket s = execNopPacket s := rfl
theorem exec_launch (s : State) : exec .launch s = execLaunch s := rfl
theorem exec_ibCall (s : State) : exec .ibCall s = execIbCall s := rfl
theorem exec_waitValue (s : State) : exec .waitValue s = execWaitValue s := rfl
theorem exec_writeValue (s : State) : exec .writeValue s = execWriteValue s := rfl
theorem exec_fencePacket (s : State) : exec .fencePacket s = execFencePacket s := rfl
theorem exec_timestamp (s : State) : exec .timestamp s = execTimestamp s := rfl
theorem exec_snapshotRelease (s : State) : exec .snapshotRelease s = execSnapshotRelease s := rfl
theorem exec_hostTrigger (s : State) : exec .hostTrigger s = execHostTrigger s := rfl
theorem exec_readEventLog (s : State) : exec .readEventLog s = execReadEventLog s := rfl
theorem exec_updateBegin (s : State) : exec .updateBegin s = execUpdateBegin s := rfl
theorem exec_updateData (s : State) : exec .updateData s = execUpdateData s := rfl
theorem exec_updateCommit (s : State) : exec .updateCommit s = execUpdateCommit s := rfl
theorem exec_granaryHalt (s : State) : exec .granaryHalt s = execGranaryHalt s := rfl
theorem exec_granaryHrd (s : State) : exec .granaryHrd s = execGranaryHrd s := rfl
theorem exec_granaryHwr (s : State) : exec .granaryHwr s = execGranaryHwr s := rfl
theorem exec_granaryHstep (s : State) : exec .granaryHstep s = execGranaryHstep s := rfl
theorem exec_granaryHres (s : State) : exec .granaryHres s = execGranaryHres s := rfl
theorem exec_killAsid (s : State) : exec .killAsid s = execKillAsid s := rfl
theorem exec_preemptAsid (s : State) : exec .preemptAsid s = execPreemptAsid s := rfl
theorem exec_snapshotCommand (s : State) : exec .snapshotCommand s = execSnapshotCommand s := rfl
theorem exec_mailboxCommandCompletion (s : State) : exec .mailboxCommandCompletion s = execMailboxCommandCompletion s := rfl
theorem exec_powerLoss (s : State) : exec .powerLoss s = execPowerLoss s := rfl

end Sys2Proof.Machine
end

