-- ==== Sys2Proof/Laws/Tab.lean ====
section
/-! SUPPORT. The laws of tables: a read after a write, what a write leaves alone, and the canonical form. -/

namespace Sys2Proof.Machine

variable {α : Type}

@[simp] theorem tget_nil (d : α) (x : Nat) : tget d [] x = d := rfl
@[simp] theorem tfind_nil (x : Nat) : tfind ([] : Tab α) x = none := rfl

theorem tget_tput (d v : α) (t : Tab α) (x y : Nat) :
    tget d (tput t x v) y = if y = x then v else tget d t y := by
  induction t with
  | nil => grind [tput, tget]
  | cons e t ih => grind [tput, tget]

theorem tget_tdel (d : α) (t : Tab α) (x y : Nat) :
    tget d (tdel t x) y = if y = x then d else tget d t y := by
  unfold tdel
  induction t with
  | nil => simp
  | cons e t ih => grind [tget]

/-- A read after a write: the value written at its key, and the value before at every other. -/
theorem tget_tset [DecidableEq α] (d v : α) (t : Tab α) (x y : Nat) :
    tget d (tset d t x v) y = if y = x then v else tget d t y := by
  unfold tset
  split
  · subst_vars; exact tget_tdel ..
  · exact tget_tput ..

@[simp] theorem tget_tset_self [DecidableEq α] (d v : α) (t : Tab α) (x : Nat) :
    tget d (tset d t x v) x = v := by simp [tget_tset]

theorem tget_tset_ne [DecidableEq α] (d v : α) (t : Tab α) {x y : Nat} (h : y ≠ x) :
    tget d (tset d t x v) y = tget d t y := by simp [tget_tset, h]

theorem tfind_tput (v : α) (t : Tab α) (x y : Nat) :
    tfind (tput t x v) y = if y = x then some v else tfind t y := by
  induction t with
  | nil => grind [tput, tfind]
  | cons e t ih => grind [tput, tfind]

@[simp] theorem tfind_tput_self (v : α) (t : Tab α) (x : Nat) : tfind (tput t x v) x = some v := by
  simp [tfind_tput]

theorem tfind_tput_ne (v : α) (t : Tab α) {x y : Nat} (h : y ≠ x) : tfind (tput t x v) y = tfind t y := by
  simp [tfind_tput, h]

theorem tfind_tdel (t : Tab α) (x y : Nat) :
    tfind (tdel t x) y = if y = x then none else tfind t y := by
  unfold tdel
  induction t with
  | nil => simp
  | cons e t ih => grind [tfind]

theorem tfind_tmod (t : Tab α) (f : α → α) (x y : Nat) :
    tfind (tmod t x f) y = if y = x then (tfind t y).map f else tfind t y := by
  unfold tmod
  induction t with
  | nil => simp
  | cons e t ih => grind [tfind]

theorem tget_tclear (d : α) (t : Tab α) (lo hi y : Nat) :
    tget d (tclear t lo hi) y = if lo ≤ y ∧ y < hi then d else tget d t y := by
  unfold tclear
  induction t with
  | nil => simp
  | cons e t ih => grind [tget]

/-! ### The canonical form -/

/-- The canonical form as a fact about the list: keys rise, and no entry is the unlisted value. -/
theorem twf_iff [DecidableEq α] (d : α) (t : Tab α) :
    twf d t = true ↔ t.Pairwise (fun a b => a.1 < b.1) ∧ ∀ e ∈ t, e.2 ≠ d := by
  have hs : ∀ t : Tab α, tsorted t = true ↔ t.Pairwise (fun a b => a.1 < b.1) := by
    intro t
    induction t with
    | nil => simp [tsorted]
    | cons e t ih =>
      obtain ⟨k, w⟩ := e
      cases t with
      | nil => simp [tsorted]
      | cons e' t =>
        obtain ⟨k', w'⟩ := e'
        simp only [tsorted, Bool.and_eq_true, decide_eq_true_eq, ih, List.pairwise_cons, List.mem_cons]
        constructor
        · rintro ⟨h, h1, h2⟩
          exact ⟨by rintro a (rfl | ha); exacts [h, h.trans (h1 a ha)], h1, h2⟩
        · rintro ⟨h, h1, h2⟩
          exact ⟨h _ (.inl rfl), h1, h2⟩
  simp [twf, hs]

theorem twf_filter [DecidableEq α] {d : α} {t : Tab α} (p : Nat × α → Bool) (h : twf d t = true) :
    twf d (t.filter p) = true := by
  rw [twf_iff] at h ⊢
  exact ⟨h.1.filter _, fun e he => h.2 e (List.mem_filter.mp he).1⟩

theorem twf_tdel [DecidableEq α] {d : α} {t : Tab α} (x : Nat) (h : twf d t = true) :
    twf d (tdel t x) = true := twf_filter _ h

theorem twf_tclear [DecidableEq α] {d : α} {t : Tab α} (lo hi : Nat) (h : twf d t = true) :
    twf d (tclear t lo hi) = true := twf_filter _ h

theorem mem_tput {v : α} {t : Tab α} {x : Nat} {e : Nat × α} (h : e ∈ tput t x v) :
    e = (x, v) ∨ e ∈ t := by
  induction t with
  | nil => simpa [tput] using h
  | cons c t ih =>
    obtain ⟨k, w⟩ := c
    simp only [tput] at h
    split at h
    · simp only [List.mem_cons] at h ⊢; tauto
    · split at h
      · simp only [List.mem_cons] at h ⊢; tauto
      · simp only [List.mem_cons] at h ⊢
        rcases h with h | h
        · exact .inr (.inl h)
        · exact (ih h).imp id .inr

theorem twf_tput [DecidableEq α] {d v : α} {t : Tab α} (x : Nat) (hv : v ≠ d) (h : twf d t = true) :
    twf d (tput t x v) = true := by
  rw [twf_iff] at h ⊢
  refine ⟨?_, fun e he => (mem_tput he).elim (fun h' => h' ▸ hv) (h.2 e)⟩
  replace h := h.1
  induction t with
  | nil => simp [tput]
  | cons c t ih =>
    obtain ⟨k, w⟩ := c
    obtain ⟨h1, h2⟩ := List.pairwise_cons.mp h
    simp only [tput]
    split
    · subst_vars; exact List.pairwise_cons.mpr ⟨h1, h2⟩
    · split
      · refine List.pairwise_cons.mpr ⟨?_, h⟩
        intro a ha
        rcases List.mem_cons.mp ha with rfl | ha
        · assumption
        · exact Nat.lt_trans ‹x < k› (h1 a ha)
      · refine List.pairwise_cons.mpr ⟨fun a ha => ?_, ih h2⟩
        rcases mem_tput ha with rfl | ha
        · show k < x; omega
        · exact h1 a ha

/-- A write keeps the canonical form. -/
theorem twf_tset [DecidableEq α] {d : α} {t : Tab α} (x : Nat) (v : α) (h : twf d t = true) :
    twf d (tset d t x v) = true := by
  unfold tset
  split
  · exact twf_tdel x h
  · exact twf_tput x ‹_› h

theorem twf_tsetMany [DecidableEq α] {d : α} {t : Tab α} (l : List (Nat × α)) (h : twf d t = true) :
    twf d (tsetMany d t l) = true := by
  unfold tsetMany
  induction l generalizing t with
  | nil => exact h
  | cons e l ih => exact ih (twf_tset _ _ h)

/-- Tables in canonical form that read alike are equal. -/
theorem twf_ext [DecidableEq α] {d : α} {t u : Tab α} (ht : twf d t = true) (hu : twf d u = true)
    (h : ∀ x, tget d t x = tget d u x) : t = u := by
  rw [twf_iff] at ht hu
  obtain ⟨ht, ht'⟩ := ht
  obtain ⟨hu, hu'⟩ := hu
  have absent : ∀ (t : Tab α) (x : Nat), (∀ a ∈ t, x < a.1) → tget d t x = d := by
    intro t x
    induction t with
    | nil => simp
    | cons e t ih =>
      intro h
      have := h e (by simp)
      simp only [tget]
      rw [if_neg (by omega)]
      exact ih fun a ha => h a (by simp [ha])
  induction t generalizing u with
  | nil =>
    cases u with
    | nil => rfl
    | cons e u => have := h e.1; simp [tget] at this; exact absurd this.symm (hu' e (by simp))
  | cons e t ih =>
    cases u with
    | nil => have := h e.1; simp [tget] at this; exact absurd this (ht' e (by simp))
    | cons e' u =>
      obtain ⟨h1, h2⟩ := List.pairwise_cons.mp ht
      obtain ⟨h3, h4⟩ := List.pairwise_cons.mp hu
      have ne := ht' e (by simp)
      have ne' := hu' e' (by simp)
      have key : e.1 = e'.1 := by
        rcases lt_trichotomy e.1 e'.1 with hl | he | hl
        · have := h e.1
          rw [absent (e' :: u) e.1 (by
            intro a ha; rcases List.mem_cons.mp ha with rfl | ha
            · exact hl
            · exact hl.trans (h3 a ha))] at this
          simp [tget] at this; exact absurd this ne
        · exact he
        · have := h e'.1
          rw [absent (e :: t) e'.1 (by
            intro a ha; rcases List.mem_cons.mp ha with rfl | ha
            · exact hl
            · exact hl.trans (h1 a ha))] at this
          simp [tget] at this; exact absurd this.symm ne'
      have val : e.2 = e'.2 := by have := h e.1; simpa [tget, key] using this
      have tl : t = u := by
        refine ih (fun x => ?_) h2 (fun a ha => ht' a (by simp [ha])) h4 (fun a ha => hu' a (by simp [ha]))
        by_cases hx : x = e.1
        · subst hx; rw [absent t _ (fun a ha => h1 a ha), absent u _ (fun a ha => key ▸ h3 a ha)]
        · have := h x
          simp only [tget] at this
          rwa [if_neg (Ne.symm hx), if_neg (by rw [← key]; exact Ne.symm hx)] at this
      rw [tl, Prod.ext key val]

end Sys2Proof.Machine
end

