-- ==== Sys2Proof/Laws/Memory.lean ====
section
/-! SUPPORT. Memory: every operation that writes it keeps its canonical form, and a read after a write
gives what was written there and what stood elsewhere. -/

namespace Sys2Proof.Machine

/-! ### The canonical form -/

theorem reset_memWf : State.reset.memWf := ⟨rfl, rfl⟩

/-- Memory keeps its canonical form wherever the two tables are as before. -/
theorem State.memWf_of_eq {s t : State} (h : s.memWf) (hm : t.mem = s.mem) (hh : t.hostMem = s.hostMem) : t.memWf :=
  ⟨hm ▸ h.1, hh ▸ h.2⟩

theorem State.memWf_storeCells {s : State} (h : s.memWf) (cs : List (Nat × Byte)) : (s.storeCells cs).memWf :=
  ⟨twf_tsetMany _ h.1, h.2⟩
theorem State.memWf_store {s : State} (h : s.memWf) (pa : Nat) (bs : List Byte) : (s.store pa bs).memWf :=
  ⟨twf_tsetMany _ h.1, h.2⟩
theorem State.memWf_storeWord {s : State} (h : s.memWf) (pa n x : Nat) : (s.storeWord pa n x).memWf :=
  State.memWf_store h _ _
theorem State.memWf_hstore {s : State} (h : s.memWf) (a : Nat) (bs : List Byte) : (s.hstore a bs).memWf :=
  ⟨h.1, twf_tsetMany _ h.2⟩
theorem State.memWf_pstore {s : State} (h : s.memWf) (pa n x : Nat) : (s.pstore pa n x).memWf :=
  State.memWf_store h _ _
theorem State.memWf_setCtl {s : State} (h : s.memWf) (off : Nat) (w : W64) : (s.setCtl off w).memWf := h
theorem State.memWf_dropLeaf {s : State} (h : s.memWf) (ea : Nat) : (s.dropLeaf ea).memWf := h

theorem State.memWf_movePage {s : State} (h : s.memWf) (a b : Nat) : (s.movePage a b).memWf := by
  unfold State.movePage
  split
  · exact h
  · refine State.memWf_of_eq (s := if 2 ^ 62 ≤ b then _ else _) ?_ rfl rfl
    split
    · exact ⟨twf_tclear _ _ h.1, h.2⟩
    · exact State.memWf_store (s := { s with mem := _ }) ⟨twf_tclear _ _ h.1, h.2⟩ _ _

/-- A write at the home slice that is made keeps the form. -/
theorem State.memWf_homeWrite {s t : State} (h : s.memWf) {me : Party} {asid va : Nat} {cells : List (Nat × Byte)}
    (ht : s.homeWrite me asid va cells = .ok t) : t.memWf := by
  unfold State.homeWrite at ht
  split at ht
  · cases ht; exact State.memWf_storeCells h _
  · split at ht
    · cases ht; exact State.memWf_storeCells h _
    · split at ht
      · cases ht; exact State.memWf_storeCells h _
      split at ht
      · cases ht
      · dsimp only at ht
        generalize imageNeed _ = n at ht
        split at ht
        · split at ht
          · cases ht; exact State.memWf_storeCells h _
          · cases ht
            exact State.memWf_dropLeaf (State.memWf_pstore (State.memWf_movePage (State.memWf_storeCells h _) _ _) _ _ _) _
        · split at ht
          · cases ht
          · cases ht
            refine State.memWf_setCtl ?_ _ _
            have h3 : ∀ pa x y z a b c d, ((((((s.storeCells a).movePage b c).pstore d 8 x).dropLeaf d).pstore pa y z).memWf) :=
              fun _ _ _ _ _ _ _ _ => State.memWf_pstore (State.memWf_dropLeaf (State.memWf_pstore
                (State.memWf_movePage (State.memWf_storeCells h _) _ _) _ _ _) _) _ _ _
            split
            · exact h3 _ _ _ _ _ _ _ _
            · exact State.memWf_pstore (State.memWf_pstore (h3 _ _ _ _ _ _ _ _) _ _ _) _ _ _

theorem State.memWf_homeWrites {s t : State} (h : s.memWf) {me : Party} {asid : Nat} {ps : List (Nat × List (Nat × Byte))}
    (ht : s.homeWrites me asid ps = .ok t) : t.memWf := by
  induction ps generalizing s with
  | nil => cases ht; exact h
  | cons p ps ih =>
    unfold State.homeWrites at ht
    split at ht
    · cases ht
    · cases ht
    · exact ih (State.memWf_homeWrite h ‹_›) ht

/-! ### Reading after writing -/

theorem tget_tsetMany (t : Tab Byte) (l : List (Nat × Byte)) (a : Nat) (h : ∀ e ∈ l, e.1 ≠ a) :
    tget 0 (tsetMany 0 t l) a = tget 0 t a := by
  unfold tsetMany
  induction l generalizing t with
  | nil => rfl
  | cons e l ih =>
    rw [List.foldl_cons, ih _ fun x hx => h x (List.mem_cons_of_mem _ hx),
      tget_tset_ne _ _ _ (h e List.mem_cons_self).symm]

/-- A cell of a list of distinct addresses holds its byte after the write. -/
theorem tget_tsetMany_byte (t : Tab Byte) (l : List (Nat × Byte)) (hn : (l.map (·.1)).Nodup) {e : Nat × Byte} (he : e ∈ l) :
    tget 0 (tsetMany 0 t l) e.1 = e.2 := by
  unfold tsetMany
  induction l generalizing t with
  | nil => cases he
  | cons x l ih =>
    rw [List.map_cons, List.nodup_cons] at hn
    rw [List.foldl_cons]
    rcases List.mem_cons.mp he with rfl | h
    · rw [show List.foldl (fun t (e : Nat × Byte) => tset 0 t e.1 e.2) (tset 0 t e.1 e.2) l = tsetMany 0 (tset 0 t e.1 e.2) l from rfl,
        tget_tsetMany _ _ _ fun y hy hc => hn.1 (List.mem_map.mpr ⟨y, hy, hc⟩), tget_tset_self]
    · exact ih _ hn.2 h

theorem State.byte_storeCells_ne (s : State) (cs : List (Nat × Byte)) (a : Nat) (h : ∀ c ∈ cs, c.1 ≠ a) :
    (s.storeCells cs).byte a = s.byte a := tget_tsetMany _ _ _ h

theorem State.byte_storeCells (s : State) (cs : List (Nat × Byte)) (hn : (cs.map (·.1)).Nodup) {c : Nat × Byte}
    (hc : c ∈ cs) : (s.storeCells cs).byte c.1 = c.2 := tget_tsetMany_byte _ _ hn hc

theorem State.byte_store_ne (s : State) (pa : Nat) (bs : List Byte) (a : Nat) (h : a < pa ∨ pa + bs.length ≤ a) :
    (s.store pa bs).byte a = s.byte a := by
  refine tget_tsetMany _ _ _ fun e he hc => ?_
  obtain ⟨i, hi, rfl⟩ := List.mem_map.mp he
  rw [List.mem_range] at hi
  simp only at hc
  omega

theorem State.byte_store (s : State) (pa : Nat) (bs : List Byte) {i : Nat} (hi : i < bs.length) :
    (s.store pa bs).byte (pa + i) = bs.getD i 0 := by
  refine tget_tsetMany_byte (e := (pa + i, bs.getD i 0)) s.mem _ ?_ (List.mem_map.mpr ⟨i, List.mem_range.mpr hi, rfl⟩)
  rw [List.map_map]
  exact (List.nodup_range).map fun x y h => Nat.add_left_cancel h

/-- The bytes stored are the bytes read. -/
theorem State.bytes_store (s : State) (pa : Nat) (bs : List Byte) : (s.store pa bs).bytes pa bs.length = bs := by
  refine List.ext_getElem (by simp [State.bytes]) fun i h1 h2 => ?_
  simp only [State.bytes, List.getElem_map, List.getElem_range]
  rw [State.byte_store s pa bs h2, List.getD_eq_getElem?_getD, List.getElem?_eq_getElem h2]
  rfl

@[simp] theorem length_leBytes (n x : Nat) : (leBytes n x).length = n := by
  induction n generalizing x with
  | zero => rfl
  | succ n ih => simp [leBytes, ih]

theorem leNat_leBytes (n x : Nat) : leNat (leBytes n x) = x % 256 ^ n := by
  induction n generalizing x with
  | zero => simp [leBytes, leNat, Nat.mod_one]
  | succ n ih =>
    rw [leBytes, leNat, ih, BitVec.toNat_ofNat, show (2 : Nat) ^ 8 = 256 from rfl, Nat.pow_succ' (n := n), Nat.mod_mul]

/-- A word stored is the word read, in its width. -/
theorem State.word_storeWord (s : State) (pa n x : Nat) : (s.storeWord pa n x).word pa n = x % 256 ^ n := by
  have h := State.bytes_store s pa (leBytes n x)
  rw [length_leBytes] at h
  unfold State.word State.storeWord
  rw [h, leNat_leBytes]

end Sys2Proof.Machine
end

