-- ==== Sys2Proof/Laws/Frame.lean ====
section
/-! SUPPORT. Context frames: what writing one does to memory, and what reading one leaves. -/

namespace Sys2Proof.Machine

theorem State.memWf_writeFrames {s : State} (h : s.memWf) (sv : Saved) : (s.writeFrames sv).memWf :=
  State.memWf_storeCells h _

/-- A chain's bytes lie in its frames. -/
theorem framePlace_mem {fs : List Nat} {off a : Nat} (h : framePlace fs off = some a) :
    ∃ f ∈ fs, f ≤ a ∧ a < f + 2097152 := by
  simp only [framePlace, Option.map_eq_some_iff] at h
  obtain ⟨f, hf, rfl⟩ := h
  refine ⟨f, List.mem_of_getElem? hf, by omega, ?_⟩
  have : off % framePayload < framePayload := Nat.mod_lt _ (by decide)
  simp only [framePayload] at this ⊢
  omega

/-- Writing frames changes no byte but those where the frames' bytes are kept. -/
theorem State.byte_writeFrames_ne (s : State) (sv : Saved) (a : Nat)
    (h : ∀ f ∈ sv.frames, ∀ i < 2097152, a ≠ s.home (f + i)) :
    (s.writeFrames sv).byte a = s.byte a := by
  refine State.byte_storeCells_ne s _ a fun c hc => ?_
  simp only [List.mem_append, List.mem_map, List.mem_filterMap, List.mem_range, Option.map_eq_some_iff] at hc
  obtain ⟨i, hi, rfl⟩ | ⟨e, _, b, hb, rfl⟩ := hc
  · have hm : (sv.frames.flatMap fun a => (List.range 128).map fun i => a + i).getD i 0 ∈
        sv.frames.flatMap fun a => (List.range 128).map fun i => a + i := by
      rw [List.getD_eq_getElem _ _ hi]
      exact List.getElem_mem hi
    obtain ⟨f, hf, hx⟩ := List.mem_flatMap.mp hm
    obtain ⟨k, hk, hx⟩ := List.mem_map.mp hx
    have := List.mem_range.mp hk
    exact fun h' => h f hf k (by omega) (by rw [← h', ← hx])
  · obtain ⟨f, hf, h1, h2⟩ := framePlace_mem hb
    exact fun h' => h f hf (b - f) (by omega) (by rw [← h', Nat.add_sub_cancel' h1])

/-- A restore reads back what a save wrote. -/
theorem readBack_laidOut (part n : Nat) (vals : List Nat) : readBack part (laidOut part n vals) vals = vals := by
  simp [readBack, laidOut]

end Sys2Proof.Machine
end

