-- ==== Sys2Proof/Laws/State.lean ====
section
/-! SUPPORT. What each named update of the state leaves in each field: one lemma per field per update. -/

namespace Sys2Proof.Machine

variable (s : State)

/-! ### putGroup -/

@[simp] theorem State.putGroup_agenda (g : Gid) (r : Group) : (s.putGroup g r).agenda = s.agenda := rfl
@[simp] theorem State.putGroup_actor (g : Gid) (r : Group) : (s.putGroup g r).actor = s.actor := rfl
@[simp] theorem State.putGroup_refetch (g : Gid) (r : Group) : (s.putGroup g r).refetch = s.refetch := rfl
@[simp] theorem State.putGroup_freeCtr (g : Gid) (r : Group) : (s.putGroup g r).freeCtr = s.freeCtr := rfl
@[simp] theorem State.putGroup_nextId (g : Gid) (r : Group) : (s.putGroup g r).nextId = s.nextId := rfl
@[simp] theorem State.putGroup_vreg (g : Gid) (r : Group) : (s.putGroup g r).vreg = s.vreg := rfl
@[simp] theorem State.putGroup_preg (g : Gid) (r : Group) : (s.putGroup g r).preg = s.preg := rfl
@[simp] theorem State.putGroup_fpx (g : Gid) (r : Group) : (s.putGroup g r).fpx = s.fpx := rfl
@[simp] theorem State.putGroup_greg (g : Gid) (r : Group) : (s.putGroup g r).greg = s.greg := rfl
@[simp] theorem State.putGroup_groups (g : Gid) (r : Group) : (s.putGroup g r).groups = tput s.groups (gidKey g) r := rfl
@[simp] theorem State.putGroup_crews (g : Gid) (r : Group) : (s.putGroup g r).crews = s.crews := rfl
@[simp] theorem State.putGroup_cores (g : Gid) (r : Group) : (s.putGroup g r).cores = s.cores := rfl
@[simp] theorem State.putGroup_scratch (g : Gid) (r : Group) : (s.putGroup g r).scratch = s.scratch := rfl
@[simp] theorem State.putGroup_silo (g : Gid) (r : Group) : (s.putGroup g r).silo = s.silo := rfl
@[simp] theorem State.putGroup_poison (g : Gid) (r : Group) : (s.putGroup g r).poison = s.poison := rfl
@[simp] theorem State.putGroup_mem (g : Gid) (r : Group) : (s.putGroup g r).mem = s.mem := rfl
@[simp] theorem State.putGroup_hostMem (g : Gid) (r : Group) : (s.putGroup g r).hostMem = s.hostMem := rfl
@[simp] theorem State.putGroup_ctl (g : Gid) (r : Group) : (s.putGroup g r).ctl = s.ctl := rfl
@[simp] theorem State.putGroup_heat (g : Gid) (r : Group) : (s.putGroup g r).heat = s.heat := rfl
@[simp] theorem State.putGroup_images (g : Gid) (r : Group) : (s.putGroup g r).images = s.images := rfl
@[simp] theorem State.putGroup_copies (g : Gid) (r : Group) : (s.putGroup g r).copies = s.copies := rfl
@[simp] theorem State.putGroup_ops (g : Gid) (r : Group) : (s.putGroup g r).ops = s.ops := rfl
@[simp] theorem State.putGroup_engines (g : Gid) (r : Group) : (s.putGroup g r).engines = s.engines := rfl
@[simp] theorem State.putGroup_dies (g : Gid) (r : Group) : (s.putGroup g r).dies = s.dies := rfl
@[simp] theorem State.putGroup_regions (g : Gid) (r : Group) : (s.putGroup g r).regions = s.regions := rfl
@[simp] theorem State.putGroup_goneRanges (g : Gid) (r : Group) : (s.putGroup g r).goneRanges = s.goneRanges := rfl
@[simp] theorem State.putGroup_launches (g : Gid) (r : Group) : (s.putGroup g r).launches = s.launches := rfl
@[simp] theorem State.putGroup_saved (g : Gid) (r : Group) : (s.putGroup g r).saved = s.saved := rfl
@[simp] theorem State.putGroup_links (g : Gid) (r : Group) : (s.putGroup g r).links = s.links := rfl
@[simp] theorem State.putGroup_lanes (g : Gid) (r : Group) : (s.putGroup g r).lanes = s.lanes := rfl
@[simp] theorem State.putGroup_records (g : Gid) (r : Group) : (s.putGroup g r).records = s.records := rfl
@[simp] theorem State.putGroup_pushes (g : Gid) (r : Group) : (s.putGroup g r).pushes = s.pushes := rfl
@[simp] theorem State.putGroup_softErr (g : Gid) (r : Group) : (s.putGroup g r).softErr = s.softErr := rfl
@[simp] theorem State.putGroup_dev (g : Gid) (r : Group) : (s.putGroup g r).dev = s.dev := rfl

/-! ### modGroup -/

@[simp] theorem State.modGroup_agenda (g : Gid) (f : Group → Group) : (s.modGroup g f).agenda = s.agenda := rfl
@[simp] theorem State.modGroup_actor (g : Gid) (f : Group → Group) : (s.modGroup g f).actor = s.actor := rfl
@[simp] theorem State.modGroup_refetch (g : Gid) (f : Group → Group) : (s.modGroup g f).refetch = s.refetch := rfl
@[simp] theorem State.modGroup_freeCtr (g : Gid) (f : Group → Group) : (s.modGroup g f).freeCtr = s.freeCtr := rfl
@[simp] theorem State.modGroup_nextId (g : Gid) (f : Group → Group) : (s.modGroup g f).nextId = s.nextId := rfl
@[simp] theorem State.modGroup_vreg (g : Gid) (f : Group → Group) : (s.modGroup g f).vreg = s.vreg := rfl
@[simp] theorem State.modGroup_preg (g : Gid) (f : Group → Group) : (s.modGroup g f).preg = s.preg := rfl
@[simp] theorem State.modGroup_fpx (g : Gid) (f : Group → Group) : (s.modGroup g f).fpx = s.fpx := rfl
@[simp] theorem State.modGroup_greg (g : Gid) (f : Group → Group) : (s.modGroup g f).greg = s.greg := rfl
@[simp] theorem State.modGroup_groups (g : Gid) (f : Group → Group) : (s.modGroup g f).groups = tmod s.groups (gidKey g) f := rfl
@[simp] theorem State.modGroup_crews (g : Gid) (f : Group → Group) : (s.modGroup g f).crews = s.crews := rfl
@[simp] theorem State.modGroup_cores (g : Gid) (f : Group → Group) : (s.modGroup g f).cores = s.cores := rfl
@[simp] theorem State.modGroup_scratch (g : Gid) (f : Group → Group) : (s.modGroup g f).scratch = s.scratch := rfl
@[simp] theorem State.modGroup_silo (g : Gid) (f : Group → Group) : (s.modGroup g f).silo = s.silo := rfl
@[simp] theorem State.modGroup_poison (g : Gid) (f : Group → Group) : (s.modGroup g f).poison = s.poison := rfl
@[simp] theorem State.modGroup_mem (g : Gid) (f : Group → Group) : (s.modGroup g f).mem = s.mem := rfl
@[simp] theorem State.modGroup_hostMem (g : Gid) (f : Group → Group) : (s.modGroup g f).hostMem = s.hostMem := rfl
@[simp] theorem State.modGroup_ctl (g : Gid) (f : Group → Group) : (s.modGroup g f).ctl = s.ctl := rfl
@[simp] theorem State.modGroup_heat (g : Gid) (f : Group → Group) : (s.modGroup g f).heat = s.heat := rfl
@[simp] theorem State.modGroup_images (g : Gid) (f : Group → Group) : (s.modGroup g f).images = s.images := rfl
@[simp] theorem State.modGroup_copies (g : Gid) (f : Group → Group) : (s.modGroup g f).copies = s.copies := rfl
@[simp] theorem State.modGroup_ops (g : Gid) (f : Group → Group) : (s.modGroup g f).ops = s.ops := rfl
@[simp] theorem State.modGroup_engines (g : Gid) (f : Group → Group) : (s.modGroup g f).engines = s.engines := rfl
@[simp] theorem State.modGroup_dies (g : Gid) (f : Group → Group) : (s.modGroup g f).dies = s.dies := rfl
@[simp] theorem State.modGroup_regions (g : Gid) (f : Group → Group) : (s.modGroup g f).regions = s.regions := rfl
@[simp] theorem State.modGroup_goneRanges (g : Gid) (f : Group → Group) : (s.modGroup g f).goneRanges = s.goneRanges := rfl
@[simp] theorem State.modGroup_launches (g : Gid) (f : Group → Group) : (s.modGroup g f).launches = s.launches := rfl
@[simp] theorem State.modGroup_saved (g : Gid) (f : Group → Group) : (s.modGroup g f).saved = s.saved := rfl
@[simp] theorem State.modGroup_links (g : Gid) (f : Group → Group) : (s.modGroup g f).links = s.links := rfl
@[simp] theorem State.modGroup_lanes (g : Gid) (f : Group → Group) : (s.modGroup g f).lanes = s.lanes := rfl
@[simp] theorem State.modGroup_records (g : Gid) (f : Group → Group) : (s.modGroup g f).records = s.records := rfl
@[simp] theorem State.modGroup_pushes (g : Gid) (f : Group → Group) : (s.modGroup g f).pushes = s.pushes := rfl
@[simp] theorem State.modGroup_softErr (g : Gid) (f : Group → Group) : (s.modGroup g f).softErr = s.softErr := rfl
@[simp] theorem State.modGroup_dev (g : Gid) (f : Group → Group) : (s.modGroup g f).dev = s.dev := rfl

/-! ### putCrew -/

@[simp] theorem State.putCrew_agenda (c k : Nat) (x : Crew) : (s.putCrew c k x).agenda = s.agenda := rfl
@[simp] theorem State.putCrew_actor (c k : Nat) (x : Crew) : (s.putCrew c k x).actor = s.actor := rfl
@[simp] theorem State.putCrew_refetch (c k : Nat) (x : Crew) : (s.putCrew c k x).refetch = s.refetch := rfl
@[simp] theorem State.putCrew_freeCtr (c k : Nat) (x : Crew) : (s.putCrew c k x).freeCtr = s.freeCtr := rfl
@[simp] theorem State.putCrew_nextId (c k : Nat) (x : Crew) : (s.putCrew c k x).nextId = s.nextId := rfl
@[simp] theorem State.putCrew_vreg (c k : Nat) (x : Crew) : (s.putCrew c k x).vreg = s.vreg := rfl
@[simp] theorem State.putCrew_preg (c k : Nat) (x : Crew) : (s.putCrew c k x).preg = s.preg := rfl
@[simp] theorem State.putCrew_fpx (c k : Nat) (x : Crew) : (s.putCrew c k x).fpx = s.fpx := rfl
@[simp] theorem State.putCrew_greg (c k : Nat) (x : Crew) : (s.putCrew c k x).greg = s.greg := rfl
@[simp] theorem State.putCrew_groups (c k : Nat) (x : Crew) : (s.putCrew c k x).groups = s.groups := rfl
@[simp] theorem State.putCrew_crews (c k : Nat) (x : Crew) : (s.putCrew c k x).crews = tput s.crews (crewKey c k) x := rfl
@[simp] theorem State.putCrew_cores (c k : Nat) (x : Crew) : (s.putCrew c k x).cores = s.cores := rfl
@[simp] theorem State.putCrew_scratch (c k : Nat) (x : Crew) : (s.putCrew c k x).scratch = s.scratch := rfl
@[simp] theorem State.putCrew_silo (c k : Nat) (x : Crew) : (s.putCrew c k x).silo = s.silo := rfl
@[simp] theorem State.putCrew_poison (c k : Nat) (x : Crew) : (s.putCrew c k x).poison = s.poison := rfl
@[simp] theorem State.putCrew_mem (c k : Nat) (x : Crew) : (s.putCrew c k x).mem = s.mem := rfl
@[simp] theorem State.putCrew_hostMem (c k : Nat) (x : Crew) : (s.putCrew c k x).hostMem = s.hostMem := rfl
@[simp] theorem State.putCrew_ctl (c k : Nat) (x : Crew) : (s.putCrew c k x).ctl = s.ctl := rfl
@[simp] theorem State.putCrew_heat (c k : Nat) (x : Crew) : (s.putCrew c k x).heat = s.heat := rfl
@[simp] theorem State.putCrew_images (c k : Nat) (x : Crew) : (s.putCrew c k x).images = s.images := rfl
@[simp] theorem State.putCrew_copies (c k : Nat) (x : Crew) : (s.putCrew c k x).copies = s.copies := rfl
@[simp] theorem State.putCrew_ops (c k : Nat) (x : Crew) : (s.putCrew c k x).ops = s.ops := rfl
@[simp] theorem State.putCrew_engines (c k : Nat) (x : Crew) : (s.putCrew c k x).engines = s.engines := rfl
@[simp] theorem State.putCrew_dies (c k : Nat) (x : Crew) : (s.putCrew c k x).dies = s.dies := rfl
@[simp] theorem State.putCrew_regions (c k : Nat) (x : Crew) : (s.putCrew c k x).regions = s.regions := rfl
@[simp] theorem State.putCrew_goneRanges (c k : Nat) (x : Crew) : (s.putCrew c k x).goneRanges = s.goneRanges := rfl
@[simp] theorem State.putCrew_launches (c k : Nat) (x : Crew) : (s.putCrew c k x).launches = s.launches := rfl
@[simp] theorem State.putCrew_saved (c k : Nat) (x : Crew) : (s.putCrew c k x).saved = s.saved := rfl
@[simp] theorem State.putCrew_links (c k : Nat) (x : Crew) : (s.putCrew c k x).links = s.links := rfl
@[simp] theorem State.putCrew_lanes (c k : Nat) (x : Crew) : (s.putCrew c k x).lanes = s.lanes := rfl
@[simp] theorem State.putCrew_records (c k : Nat) (x : Crew) : (s.putCrew c k x).records = s.records := rfl
@[simp] theorem State.putCrew_pushes (c k : Nat) (x : Crew) : (s.putCrew c k x).pushes = s.pushes := rfl
@[simp] theorem State.putCrew_softErr (c k : Nat) (x : Crew) : (s.putCrew c k x).softErr = s.softErr := rfl
@[simp] theorem State.putCrew_dev (c k : Nat) (x : Crew) : (s.putCrew c k x).dev = s.dev := rfl

/-! ### modCrew -/

@[simp] theorem State.modCrew_agenda (c k : Nat) (f : Crew → Crew) : (s.modCrew c k f).agenda = s.agenda := rfl
@[simp] theorem State.modCrew_actor (c k : Nat) (f : Crew → Crew) : (s.modCrew c k f).actor = s.actor := rfl
@[simp] theorem State.modCrew_refetch (c k : Nat) (f : Crew → Crew) : (s.modCrew c k f).refetch = s.refetch := rfl
@[simp] theorem State.modCrew_freeCtr (c k : Nat) (f : Crew → Crew) : (s.modCrew c k f).freeCtr = s.freeCtr := rfl
@[simp] theorem State.modCrew_nextId (c k : Nat) (f : Crew → Crew) : (s.modCrew c k f).nextId = s.nextId := rfl
@[simp] theorem State.modCrew_vreg (c k : Nat) (f : Crew → Crew) : (s.modCrew c k f).vreg = s.vreg := rfl
@[simp] theorem State.modCrew_preg (c k : Nat) (f : Crew → Crew) : (s.modCrew c k f).preg = s.preg := rfl
@[simp] theorem State.modCrew_fpx (c k : Nat) (f : Crew → Crew) : (s.modCrew c k f).fpx = s.fpx := rfl
@[simp] theorem State.modCrew_greg (c k : Nat) (f : Crew → Crew) : (s.modCrew c k f).greg = s.greg := rfl
@[simp] theorem State.modCrew_groups (c k : Nat) (f : Crew → Crew) : (s.modCrew c k f).groups = s.groups := rfl
@[simp] theorem State.modCrew_crews (c k : Nat) (f : Crew → Crew) : (s.modCrew c k f).crews = tmod s.crews (crewKey c k) f := rfl
@[simp] theorem State.modCrew_cores (c k : Nat) (f : Crew → Crew) : (s.modCrew c k f).cores = s.cores := rfl
@[simp] theorem State.modCrew_scratch (c k : Nat) (f : Crew → Crew) : (s.modCrew c k f).scratch = s.scratch := rfl
@[simp] theorem State.modCrew_silo (c k : Nat) (f : Crew → Crew) : (s.modCrew c k f).silo = s.silo := rfl
@[simp] theorem State.modCrew_poison (c k : Nat) (f : Crew → Crew) : (s.modCrew c k f).poison = s.poison := rfl
@[simp] theorem State.modCrew_mem (c k : Nat) (f : Crew → Crew) : (s.modCrew c k f).mem = s.mem := rfl
@[simp] theorem State.modCrew_hostMem (c k : Nat) (f : Crew → Crew) : (s.modCrew c k f).hostMem = s.hostMem := rfl
@[simp] theorem State.modCrew_ctl (c k : Nat) (f : Crew → Crew) : (s.modCrew c k f).ctl = s.ctl := rfl
@[simp] theorem State.modCrew_heat (c k : Nat) (f : Crew → Crew) : (s.modCrew c k f).heat = s.heat := rfl
@[simp] theorem State.modCrew_images (c k : Nat) (f : Crew → Crew) : (s.modCrew c k f).images = s.images := rfl
@[simp] theorem State.modCrew_copies (c k : Nat) (f : Crew → Crew) : (s.modCrew c k f).copies = s.copies := rfl
@[simp] theorem State.modCrew_ops (c k : Nat) (f : Crew → Crew) : (s.modCrew c k f).ops = s.ops := rfl
@[simp] theorem State.modCrew_engines (c k : Nat) (f : Crew → Crew) : (s.modCrew c k f).engines = s.engines := rfl
@[simp] theorem State.modCrew_dies (c k : Nat) (f : Crew → Crew) : (s.modCrew c k f).dies = s.dies := rfl
@[simp] theorem State.modCrew_regions (c k : Nat) (f : Crew → Crew) : (s.modCrew c k f).regions = s.regions := rfl
@[simp] theorem State.modCrew_goneRanges (c k : Nat) (f : Crew → Crew) : (s.modCrew c k f).goneRanges = s.goneRanges := rfl
@[simp] theorem State.modCrew_launches (c k : Nat) (f : Crew → Crew) : (s.modCrew c k f).launches = s.launches := rfl
@[simp] theorem State.modCrew_saved (c k : Nat) (f : Crew → Crew) : (s.modCrew c k f).saved = s.saved := rfl
@[simp] theorem State.modCrew_links (c k : Nat) (f : Crew → Crew) : (s.modCrew c k f).links = s.links := rfl
@[simp] theorem State.modCrew_lanes (c k : Nat) (f : Crew → Crew) : (s.modCrew c k f).lanes = s.lanes := rfl
@[simp] theorem State.modCrew_records (c k : Nat) (f : Crew → Crew) : (s.modCrew c k f).records = s.records := rfl
@[simp] theorem State.modCrew_pushes (c k : Nat) (f : Crew → Crew) : (s.modCrew c k f).pushes = s.pushes := rfl
@[simp] theorem State.modCrew_softErr (c k : Nat) (f : Crew → Crew) : (s.modCrew c k f).softErr = s.softErr := rfl
@[simp] theorem State.modCrew_dev (c k : Nat) (f : Crew → Crew) : (s.modCrew c k f).dev = s.dev := rfl

/-! ### putCore -/

@[simp] theorem State.putCore_agenda (n : Nat) (c : Core) : (s.putCore n c).agenda = s.agenda := rfl
@[simp] theorem State.putCore_actor (n : Nat) (c : Core) : (s.putCore n c).actor = s.actor := rfl
@[simp] theorem State.putCore_refetch (n : Nat) (c : Core) : (s.putCore n c).refetch = s.refetch := rfl
@[simp] theorem State.putCore_freeCtr (n : Nat) (c : Core) : (s.putCore n c).freeCtr = s.freeCtr := rfl
@[simp] theorem State.putCore_nextId (n : Nat) (c : Core) : (s.putCore n c).nextId = s.nextId := rfl
@[simp] theorem State.putCore_vreg (n : Nat) (c : Core) : (s.putCore n c).vreg = s.vreg := rfl
@[simp] theorem State.putCore_preg (n : Nat) (c : Core) : (s.putCore n c).preg = s.preg := rfl
@[simp] theorem State.putCore_fpx (n : Nat) (c : Core) : (s.putCore n c).fpx = s.fpx := rfl
@[simp] theorem State.putCore_greg (n : Nat) (c : Core) : (s.putCore n c).greg = s.greg := rfl
@[simp] theorem State.putCore_groups (n : Nat) (c : Core) : (s.putCore n c).groups = s.groups := rfl
@[simp] theorem State.putCore_crews (n : Nat) (c : Core) : (s.putCore n c).crews = s.crews := rfl
@[simp] theorem State.putCore_cores (n : Nat) (c : Core) : (s.putCore n c).cores = tput s.cores n c := rfl
@[simp] theorem State.putCore_scratch (n : Nat) (c : Core) : (s.putCore n c).scratch = s.scratch := rfl
@[simp] theorem State.putCore_silo (n : Nat) (c : Core) : (s.putCore n c).silo = s.silo := rfl
@[simp] theorem State.putCore_poison (n : Nat) (c : Core) : (s.putCore n c).poison = s.poison := rfl
@[simp] theorem State.putCore_mem (n : Nat) (c : Core) : (s.putCore n c).mem = s.mem := rfl
@[simp] theorem State.putCore_hostMem (n : Nat) (c : Core) : (s.putCore n c).hostMem = s.hostMem := rfl
@[simp] theorem State.putCore_ctl (n : Nat) (c : Core) : (s.putCore n c).ctl = s.ctl := rfl
@[simp] theorem State.putCore_heat (n : Nat) (c : Core) : (s.putCore n c).heat = s.heat := rfl
@[simp] theorem State.putCore_images (n : Nat) (c : Core) : (s.putCore n c).images = s.images := rfl
@[simp] theorem State.putCore_copies (n : Nat) (c : Core) : (s.putCore n c).copies = s.copies := rfl
@[simp] theorem State.putCore_ops (n : Nat) (c : Core) : (s.putCore n c).ops = s.ops := rfl
@[simp] theorem State.putCore_engines (n : Nat) (c : Core) : (s.putCore n c).engines = s.engines := rfl
@[simp] theorem State.putCore_dies (n : Nat) (c : Core) : (s.putCore n c).dies = s.dies := rfl
@[simp] theorem State.putCore_regions (n : Nat) (c : Core) : (s.putCore n c).regions = s.regions := rfl
@[simp] theorem State.putCore_goneRanges (n : Nat) (c : Core) : (s.putCore n c).goneRanges = s.goneRanges := rfl
@[simp] theorem State.putCore_launches (n : Nat) (c : Core) : (s.putCore n c).launches = s.launches := rfl
@[simp] theorem State.putCore_saved (n : Nat) (c : Core) : (s.putCore n c).saved = s.saved := rfl
@[simp] theorem State.putCore_links (n : Nat) (c : Core) : (s.putCore n c).links = s.links := rfl
@[simp] theorem State.putCore_lanes (n : Nat) (c : Core) : (s.putCore n c).lanes = s.lanes := rfl
@[simp] theorem State.putCore_records (n : Nat) (c : Core) : (s.putCore n c).records = s.records := rfl
@[simp] theorem State.putCore_pushes (n : Nat) (c : Core) : (s.putCore n c).pushes = s.pushes := rfl
@[simp] theorem State.putCore_softErr (n : Nat) (c : Core) : (s.putCore n c).softErr = s.softErr := rfl
@[simp] theorem State.putCore_dev (n : Nat) (c : Core) : (s.putCore n c).dev = s.dev := rfl

/-! ### modCore -/

@[simp] theorem State.modCore_agenda (n : Nat) (f : Core → Core) : (s.modCore n f).agenda = s.agenda := rfl
@[simp] theorem State.modCore_actor (n : Nat) (f : Core → Core) : (s.modCore n f).actor = s.actor := rfl
@[simp] theorem State.modCore_refetch (n : Nat) (f : Core → Core) : (s.modCore n f).refetch = s.refetch := rfl
@[simp] theorem State.modCore_freeCtr (n : Nat) (f : Core → Core) : (s.modCore n f).freeCtr = s.freeCtr := rfl
@[simp] theorem State.modCore_nextId (n : Nat) (f : Core → Core) : (s.modCore n f).nextId = s.nextId := rfl
@[simp] theorem State.modCore_vreg (n : Nat) (f : Core → Core) : (s.modCore n f).vreg = s.vreg := rfl
@[simp] theorem State.modCore_preg (n : Nat) (f : Core → Core) : (s.modCore n f).preg = s.preg := rfl
@[simp] theorem State.modCore_fpx (n : Nat) (f : Core → Core) : (s.modCore n f).fpx = s.fpx := rfl
@[simp] theorem State.modCore_greg (n : Nat) (f : Core → Core) : (s.modCore n f).greg = s.greg := rfl
@[simp] theorem State.modCore_groups (n : Nat) (f : Core → Core) : (s.modCore n f).groups = s.groups := rfl
@[simp] theorem State.modCore_crews (n : Nat) (f : Core → Core) : (s.modCore n f).crews = s.crews := rfl
@[simp] theorem State.modCore_cores (n : Nat) (f : Core → Core) : (s.modCore n f).cores = tput s.cores n (f (s.core n)) := rfl
@[simp] theorem State.modCore_scratch (n : Nat) (f : Core → Core) : (s.modCore n f).scratch = s.scratch := rfl
@[simp] theorem State.modCore_silo (n : Nat) (f : Core → Core) : (s.modCore n f).silo = s.silo := rfl
@[simp] theorem State.modCore_poison (n : Nat) (f : Core → Core) : (s.modCore n f).poison = s.poison := rfl
@[simp] theorem State.modCore_mem (n : Nat) (f : Core → Core) : (s.modCore n f).mem = s.mem := rfl
@[simp] theorem State.modCore_hostMem (n : Nat) (f : Core → Core) : (s.modCore n f).hostMem = s.hostMem := rfl
@[simp] theorem State.modCore_ctl (n : Nat) (f : Core → Core) : (s.modCore n f).ctl = s.ctl := rfl
@[simp] theorem State.modCore_heat (n : Nat) (f : Core → Core) : (s.modCore n f).heat = s.heat := rfl
@[simp] theorem State.modCore_images (n : Nat) (f : Core → Core) : (s.modCore n f).images = s.images := rfl
@[simp] theorem State.modCore_copies (n : Nat) (f : Core → Core) : (s.modCore n f).copies = s.copies := rfl
@[simp] theorem State.modCore_ops (n : Nat) (f : Core → Core) : (s.modCore n f).ops = s.ops := rfl
@[simp] theorem State.modCore_engines (n : Nat) (f : Core → Core) : (s.modCore n f).engines = s.engines := rfl
@[simp] theorem State.modCore_dies (n : Nat) (f : Core → Core) : (s.modCore n f).dies = s.dies := rfl
@[simp] theorem State.modCore_regions (n : Nat) (f : Core → Core) : (s.modCore n f).regions = s.regions := rfl
@[simp] theorem State.modCore_goneRanges (n : Nat) (f : Core → Core) : (s.modCore n f).goneRanges = s.goneRanges := rfl
@[simp] theorem State.modCore_launches (n : Nat) (f : Core → Core) : (s.modCore n f).launches = s.launches := rfl
@[simp] theorem State.modCore_saved (n : Nat) (f : Core → Core) : (s.modCore n f).saved = s.saved := rfl
@[simp] theorem State.modCore_links (n : Nat) (f : Core → Core) : (s.modCore n f).links = s.links := rfl
@[simp] theorem State.modCore_lanes (n : Nat) (f : Core → Core) : (s.modCore n f).lanes = s.lanes := rfl
@[simp] theorem State.modCore_records (n : Nat) (f : Core → Core) : (s.modCore n f).records = s.records := rfl
@[simp] theorem State.modCore_pushes (n : Nat) (f : Core → Core) : (s.modCore n f).pushes = s.pushes := rfl
@[simp] theorem State.modCore_softErr (n : Nat) (f : Core → Core) : (s.modCore n f).softErr = s.softErr := rfl
@[simp] theorem State.modCore_dev (n : Nat) (f : Core → Core) : (s.modCore n f).dev = s.dev := rfl

/-! ### countIssue -/

@[simp] theorem State.countIssue_agenda (g : Gid) (b : Bool) : (s.countIssue g b).agenda = s.agenda := rfl
@[simp] theorem State.countIssue_actor (g : Gid) (b : Bool) : (s.countIssue g b).actor = s.actor := rfl
@[simp] theorem State.countIssue_refetch (g : Gid) (b : Bool) : (s.countIssue g b).refetch = s.refetch := rfl
@[simp] theorem State.countIssue_freeCtr (g : Gid) (b : Bool) : (s.countIssue g b).freeCtr = s.freeCtr := rfl
@[simp] theorem State.countIssue_nextId (g : Gid) (b : Bool) : (s.countIssue g b).nextId = s.nextId := rfl
@[simp] theorem State.countIssue_vreg (g : Gid) (b : Bool) : (s.countIssue g b).vreg = s.vreg := rfl
@[simp] theorem State.countIssue_preg (g : Gid) (b : Bool) : (s.countIssue g b).preg = s.preg := rfl
@[simp] theorem State.countIssue_fpx (g : Gid) (b : Bool) : (s.countIssue g b).fpx = s.fpx := rfl
@[simp] theorem State.countIssue_greg (g : Gid) (b : Bool) : (s.countIssue g b).greg = s.greg := rfl
@[simp] theorem State.countIssue_groups (g : Gid) (b : Bool) : (s.countIssue g b).groups = s.groups := rfl
@[simp] theorem State.countIssue_crews (g : Gid) (b : Bool) : (s.countIssue g b).crews = s.crews := rfl
@[simp] theorem State.countIssue_scratch (g : Gid) (b : Bool) : (s.countIssue g b).scratch = s.scratch := rfl
@[simp] theorem State.countIssue_silo (g : Gid) (b : Bool) : (s.countIssue g b).silo = s.silo := rfl
@[simp] theorem State.countIssue_poison (g : Gid) (b : Bool) : (s.countIssue g b).poison = s.poison := rfl
@[simp] theorem State.countIssue_mem (g : Gid) (b : Bool) : (s.countIssue g b).mem = s.mem := rfl
@[simp] theorem State.countIssue_hostMem (g : Gid) (b : Bool) : (s.countIssue g b).hostMem = s.hostMem := rfl
@[simp] theorem State.countIssue_ctl (g : Gid) (b : Bool) : (s.countIssue g b).ctl = s.ctl := rfl
@[simp] theorem State.countIssue_heat (g : Gid) (b : Bool) : (s.countIssue g b).heat = s.heat := rfl
@[simp] theorem State.countIssue_images (g : Gid) (b : Bool) : (s.countIssue g b).images = s.images := rfl
@[simp] theorem State.countIssue_copies (g : Gid) (b : Bool) : (s.countIssue g b).copies = s.copies := rfl
@[simp] theorem State.countIssue_ops (g : Gid) (b : Bool) : (s.countIssue g b).ops = s.ops := rfl
@[simp] theorem State.countIssue_engines (g : Gid) (b : Bool) : (s.countIssue g b).engines = s.engines := rfl
@[simp] theorem State.countIssue_dies (g : Gid) (b : Bool) : (s.countIssue g b).dies = s.dies := rfl
@[simp] theorem State.countIssue_regions (g : Gid) (b : Bool) : (s.countIssue g b).regions = s.regions := rfl
@[simp] theorem State.countIssue_goneRanges (g : Gid) (b : Bool) : (s.countIssue g b).goneRanges = s.goneRanges := rfl
@[simp] theorem State.countIssue_launches (g : Gid) (b : Bool) : (s.countIssue g b).launches = s.launches := rfl
@[simp] theorem State.countIssue_saved (g : Gid) (b : Bool) : (s.countIssue g b).saved = s.saved := rfl
@[simp] theorem State.countIssue_links (g : Gid) (b : Bool) : (s.countIssue g b).links = s.links := rfl
@[simp] theorem State.countIssue_lanes (g : Gid) (b : Bool) : (s.countIssue g b).lanes = s.lanes := rfl
@[simp] theorem State.countIssue_records (g : Gid) (b : Bool) : (s.countIssue g b).records = s.records := rfl
@[simp] theorem State.countIssue_pushes (g : Gid) (b : Bool) : (s.countIssue g b).pushes = s.pushes := rfl
@[simp] theorem State.countIssue_softErr (g : Gid) (b : Bool) : (s.countIssue g b).softErr = s.softErr := rfl
@[simp] theorem State.countIssue_dev (g : Gid) (b : Bool) : (s.countIssue g b).dev = s.dev := rfl

/-! ### setG -/

@[simp] theorem State.setG_agenda (r : Group) (n : Nat) (x : W64) : (s.setG r n x).agenda = s.agenda := rfl
@[simp] theorem State.setG_actor (r : Group) (n : Nat) (x : W64) : (s.setG r n x).actor = s.actor := rfl
@[simp] theorem State.setG_refetch (r : Group) (n : Nat) (x : W64) : (s.setG r n x).refetch = s.refetch := rfl
@[simp] theorem State.setG_freeCtr (r : Group) (n : Nat) (x : W64) : (s.setG r n x).freeCtr = s.freeCtr := rfl
@[simp] theorem State.setG_nextId (r : Group) (n : Nat) (x : W64) : (s.setG r n x).nextId = s.nextId := rfl
@[simp] theorem State.setG_vreg (r : Group) (n : Nat) (x : W64) : (s.setG r n x).vreg = s.vreg := rfl
@[simp] theorem State.setG_preg (r : Group) (n : Nat) (x : W64) : (s.setG r n x).preg = s.preg := rfl
@[simp] theorem State.setG_fpx (r : Group) (n : Nat) (x : W64) : (s.setG r n x).fpx = s.fpx := rfl
@[simp] theorem State.setG_greg (r : Group) (n : Nat) (x : W64) : (s.setG r n x).greg = tset 0 s.greg (gkey r.uid n) x := rfl
@[simp] theorem State.setG_groups (r : Group) (n : Nat) (x : W64) : (s.setG r n x).groups = s.groups := rfl
@[simp] theorem State.setG_crews (r : Group) (n : Nat) (x : W64) : (s.setG r n x).crews = s.crews := rfl
@[simp] theorem State.setG_cores (r : Group) (n : Nat) (x : W64) : (s.setG r n x).cores = s.cores := rfl
@[simp] theorem State.setG_scratch (r : Group) (n : Nat) (x : W64) : (s.setG r n x).scratch = s.scratch := rfl
@[simp] theorem State.setG_silo (r : Group) (n : Nat) (x : W64) : (s.setG r n x).silo = s.silo := rfl
@[simp] theorem State.setG_poison (r : Group) (n : Nat) (x : W64) : (s.setG r n x).poison = s.poison := rfl
@[simp] theorem State.setG_mem (r : Group) (n : Nat) (x : W64) : (s.setG r n x).mem = s.mem := rfl
@[simp] theorem State.setG_hostMem (r : Group) (n : Nat) (x : W64) : (s.setG r n x).hostMem = s.hostMem := rfl
@[simp] theorem State.setG_ctl (r : Group) (n : Nat) (x : W64) : (s.setG r n x).ctl = s.ctl := rfl
@[simp] theorem State.setG_heat (r : Group) (n : Nat) (x : W64) : (s.setG r n x).heat = s.heat := rfl
@[simp] theorem State.setG_images (r : Group) (n : Nat) (x : W64) : (s.setG r n x).images = s.images := rfl
@[simp] theorem State.setG_copies (r : Group) (n : Nat) (x : W64) : (s.setG r n x).copies = s.copies := rfl
@[simp] theorem State.setG_ops (r : Group) (n : Nat) (x : W64) : (s.setG r n x).ops = s.ops := rfl
@[simp] theorem State.setG_engines (r : Group) (n : Nat) (x : W64) : (s.setG r n x).engines = s.engines := rfl
@[simp] theorem State.setG_dies (r : Group) (n : Nat) (x : W64) : (s.setG r n x).dies = s.dies := rfl
@[simp] theorem State.setG_regions (r : Group) (n : Nat) (x : W64) : (s.setG r n x).regions = s.regions := rfl
@[simp] theorem State.setG_goneRanges (r : Group) (n : Nat) (x : W64) : (s.setG r n x).goneRanges = s.goneRanges := rfl
@[simp] theorem State.setG_launches (r : Group) (n : Nat) (x : W64) : (s.setG r n x).launches = s.launches := rfl
@[simp] theorem State.setG_saved (r : Group) (n : Nat) (x : W64) : (s.setG r n x).saved = s.saved := rfl
@[simp] theorem State.setG_links (r : Group) (n : Nat) (x : W64) : (s.setG r n x).links = s.links := rfl
@[simp] theorem State.setG_lanes (r : Group) (n : Nat) (x : W64) : (s.setG r n x).lanes = s.lanes := rfl
@[simp] theorem State.setG_records (r : Group) (n : Nat) (x : W64) : (s.setG r n x).records = s.records := rfl
@[simp] theorem State.setG_pushes (r : Group) (n : Nat) (x : W64) : (s.setG r n x).pushes = s.pushes := rfl
@[simp] theorem State.setG_softErr (r : Group) (n : Nat) (x : W64) : (s.setG r n x).softErr = s.softErr := rfl
@[simp] theorem State.setG_dev (r : Group) (n : Nat) (x : W64) : (s.setG r n x).dev = s.dev := rfl

/-! ### setCtl -/

@[simp] theorem State.setCtl_agenda (o : Nat) (w : W64) : (s.setCtl o w).agenda = s.agenda := rfl
@[simp] theorem State.setCtl_actor (o : Nat) (w : W64) : (s.setCtl o w).actor = s.actor := rfl
@[simp] theorem State.setCtl_refetch (o : Nat) (w : W64) : (s.setCtl o w).refetch = s.refetch := rfl
@[simp] theorem State.setCtl_freeCtr (o : Nat) (w : W64) : (s.setCtl o w).freeCtr = s.freeCtr := rfl
@[simp] theorem State.setCtl_nextId (o : Nat) (w : W64) : (s.setCtl o w).nextId = s.nextId := rfl
@[simp] theorem State.setCtl_vreg (o : Nat) (w : W64) : (s.setCtl o w).vreg = s.vreg := rfl
@[simp] theorem State.setCtl_preg (o : Nat) (w : W64) : (s.setCtl o w).preg = s.preg := rfl
@[simp] theorem State.setCtl_fpx (o : Nat) (w : W64) : (s.setCtl o w).fpx = s.fpx := rfl
@[simp] theorem State.setCtl_greg (o : Nat) (w : W64) : (s.setCtl o w).greg = s.greg := rfl
@[simp] theorem State.setCtl_groups (o : Nat) (w : W64) : (s.setCtl o w).groups = s.groups := rfl
@[simp] theorem State.setCtl_crews (o : Nat) (w : W64) : (s.setCtl o w).crews = s.crews := rfl
@[simp] theorem State.setCtl_cores (o : Nat) (w : W64) : (s.setCtl o w).cores = s.cores := rfl
@[simp] theorem State.setCtl_scratch (o : Nat) (w : W64) : (s.setCtl o w).scratch = s.scratch := rfl
@[simp] theorem State.setCtl_silo (o : Nat) (w : W64) : (s.setCtl o w).silo = s.silo := rfl
@[simp] theorem State.setCtl_poison (o : Nat) (w : W64) : (s.setCtl o w).poison = s.poison := rfl
@[simp] theorem State.setCtl_mem (o : Nat) (w : W64) : (s.setCtl o w).mem = s.mem := rfl
@[simp] theorem State.setCtl_hostMem (o : Nat) (w : W64) : (s.setCtl o w).hostMem = s.hostMem := rfl
@[simp] theorem State.setCtl_ctl (o : Nat) (w : W64) : (s.setCtl o w).ctl = tput s.ctl o w := rfl
@[simp] theorem State.setCtl_heat (o : Nat) (w : W64) : (s.setCtl o w).heat = s.heat := rfl
@[simp] theorem State.setCtl_images (o : Nat) (w : W64) : (s.setCtl o w).images = s.images := rfl
@[simp] theorem State.setCtl_copies (o : Nat) (w : W64) : (s.setCtl o w).copies = s.copies := rfl
@[simp] theorem State.setCtl_ops (o : Nat) (w : W64) : (s.setCtl o w).ops = s.ops := rfl
@[simp] theorem State.setCtl_engines (o : Nat) (w : W64) : (s.setCtl o w).engines = s.engines := rfl
@[simp] theorem State.setCtl_dies (o : Nat) (w : W64) : (s.setCtl o w).dies = s.dies := rfl
@[simp] theorem State.setCtl_regions (o : Nat) (w : W64) : (s.setCtl o w).regions = s.regions := rfl
@[simp] theorem State.setCtl_goneRanges (o : Nat) (w : W64) : (s.setCtl o w).goneRanges = s.goneRanges := rfl
@[simp] theorem State.setCtl_launches (o : Nat) (w : W64) : (s.setCtl o w).launches = s.launches := rfl
@[simp] theorem State.setCtl_saved (o : Nat) (w : W64) : (s.setCtl o w).saved = s.saved := rfl
@[simp] theorem State.setCtl_links (o : Nat) (w : W64) : (s.setCtl o w).links = s.links := rfl
@[simp] theorem State.setCtl_lanes (o : Nat) (w : W64) : (s.setCtl o w).lanes = s.lanes := rfl
@[simp] theorem State.setCtl_records (o : Nat) (w : W64) : (s.setCtl o w).records = s.records := rfl
@[simp] theorem State.setCtl_pushes (o : Nat) (w : W64) : (s.setCtl o w).pushes = s.pushes := rfl
@[simp] theorem State.setCtl_softErr (o : Nat) (w : W64) : (s.setCtl o w).softErr = s.softErr := rfl
@[simp] theorem State.setCtl_dev (o : Nat) (w : W64) : (s.setCtl o w).dev = s.dev := rfl

/-! ### putEngine -/

@[simp] theorem State.putEngine_agenda (n : Nat) (e : Engine) : (s.putEngine n e).agenda = s.agenda := rfl
@[simp] theorem State.putEngine_actor (n : Nat) (e : Engine) : (s.putEngine n e).actor = s.actor := rfl
@[simp] theorem State.putEngine_refetch (n : Nat) (e : Engine) : (s.putEngine n e).refetch = s.refetch := rfl
@[simp] theorem State.putEngine_freeCtr (n : Nat) (e : Engine) : (s.putEngine n e).freeCtr = s.freeCtr := rfl
@[simp] theorem State.putEngine_nextId (n : Nat) (e : Engine) : (s.putEngine n e).nextId = s.nextId := rfl
@[simp] theorem State.putEngine_vreg (n : Nat) (e : Engine) : (s.putEngine n e).vreg = s.vreg := rfl
@[simp] theorem State.putEngine_preg (n : Nat) (e : Engine) : (s.putEngine n e).preg = s.preg := rfl
@[simp] theorem State.putEngine_fpx (n : Nat) (e : Engine) : (s.putEngine n e).fpx = s.fpx := rfl
@[simp] theorem State.putEngine_greg (n : Nat) (e : Engine) : (s.putEngine n e).greg = s.greg := rfl
@[simp] theorem State.putEngine_groups (n : Nat) (e : Engine) : (s.putEngine n e).groups = s.groups := rfl
@[simp] theorem State.putEngine_crews (n : Nat) (e : Engine) : (s.putEngine n e).crews = s.crews := rfl
@[simp] theorem State.putEngine_cores (n : Nat) (e : Engine) : (s.putEngine n e).cores = s.cores := rfl
@[simp] theorem State.putEngine_scratch (n : Nat) (e : Engine) : (s.putEngine n e).scratch = s.scratch := rfl
@[simp] theorem State.putEngine_silo (n : Nat) (e : Engine) : (s.putEngine n e).silo = s.silo := rfl
@[simp] theorem State.putEngine_poison (n : Nat) (e : Engine) : (s.putEngine n e).poison = s.poison := rfl
@[simp] theorem State.putEngine_mem (n : Nat) (e : Engine) : (s.putEngine n e).mem = s.mem := rfl
@[simp] theorem State.putEngine_hostMem (n : Nat) (e : Engine) : (s.putEngine n e).hostMem = s.hostMem := rfl
@[simp] theorem State.putEngine_ctl (n : Nat) (e : Engine) : (s.putEngine n e).ctl = s.ctl := rfl
@[simp] theorem State.putEngine_heat (n : Nat) (e : Engine) : (s.putEngine n e).heat = s.heat := rfl
@[simp] theorem State.putEngine_images (n : Nat) (e : Engine) : (s.putEngine n e).images = s.images := rfl
@[simp] theorem State.putEngine_copies (n : Nat) (e : Engine) : (s.putEngine n e).copies = s.copies := rfl
@[simp] theorem State.putEngine_ops (n : Nat) (e : Engine) : (s.putEngine n e).ops = s.ops := rfl
@[simp] theorem State.putEngine_engines (n : Nat) (e : Engine) : (s.putEngine n e).engines = tput s.engines n e := rfl
@[simp] theorem State.putEngine_dies (n : Nat) (e : Engine) : (s.putEngine n e).dies = s.dies := rfl
@[simp] theorem State.putEngine_regions (n : Nat) (e : Engine) : (s.putEngine n e).regions = s.regions := rfl
@[simp] theorem State.putEngine_goneRanges (n : Nat) (e : Engine) : (s.putEngine n e).goneRanges = s.goneRanges := rfl
@[simp] theorem State.putEngine_launches (n : Nat) (e : Engine) : (s.putEngine n e).launches = s.launches := rfl
@[simp] theorem State.putEngine_saved (n : Nat) (e : Engine) : (s.putEngine n e).saved = s.saved := rfl
@[simp] theorem State.putEngine_links (n : Nat) (e : Engine) : (s.putEngine n e).links = s.links := rfl
@[simp] theorem State.putEngine_lanes (n : Nat) (e : Engine) : (s.putEngine n e).lanes = s.lanes := rfl
@[simp] theorem State.putEngine_records (n : Nat) (e : Engine) : (s.putEngine n e).records = s.records := rfl
@[simp] theorem State.putEngine_pushes (n : Nat) (e : Engine) : (s.putEngine n e).pushes = s.pushes := rfl
@[simp] theorem State.putEngine_softErr (n : Nat) (e : Engine) : (s.putEngine n e).softErr = s.softErr := rfl
@[simp] theorem State.putEngine_dev (n : Nat) (e : Engine) : (s.putEngine n e).dev = s.dev := rfl

/-! ### fresh -/

@[simp] theorem State.fresh_agenda  : (s.fresh.2).agenda = s.agenda := rfl
@[simp] theorem State.fresh_actor  : (s.fresh.2).actor = s.actor := rfl
@[simp] theorem State.fresh_refetch  : (s.fresh.2).refetch = s.refetch := rfl
@[simp] theorem State.fresh_freeCtr  : (s.fresh.2).freeCtr = s.freeCtr := rfl
@[simp] theorem State.fresh_nextId  : (s.fresh.2).nextId = s.nextId + 1 := rfl
@[simp] theorem State.fresh_vreg  : (s.fresh.2).vreg = s.vreg := rfl
@[simp] theorem State.fresh_preg  : (s.fresh.2).preg = s.preg := rfl
@[simp] theorem State.fresh_fpx  : (s.fresh.2).fpx = s.fpx := rfl
@[simp] theorem State.fresh_greg  : (s.fresh.2).greg = s.greg := rfl
@[simp] theorem State.fresh_groups  : (s.fresh.2).groups = s.groups := rfl
@[simp] theorem State.fresh_crews  : (s.fresh.2).crews = s.crews := rfl
@[simp] theorem State.fresh_cores  : (s.fresh.2).cores = s.cores := rfl
@[simp] theorem State.fresh_scratch  : (s.fresh.2).scratch = s.scratch := rfl
@[simp] theorem State.fresh_silo  : (s.fresh.2).silo = s.silo := rfl
@[simp] theorem State.fresh_poison  : (s.fresh.2).poison = s.poison := rfl
@[simp] theorem State.fresh_mem  : (s.fresh.2).mem = s.mem := rfl
@[simp] theorem State.fresh_hostMem  : (s.fresh.2).hostMem = s.hostMem := rfl
@[simp] theorem State.fresh_ctl  : (s.fresh.2).ctl = s.ctl := rfl
@[simp] theorem State.fresh_heat  : (s.fresh.2).heat = s.heat := rfl
@[simp] theorem State.fresh_images  : (s.fresh.2).images = s.images := rfl
@[simp] theorem State.fresh_copies  : (s.fresh.2).copies = s.copies := rfl
@[simp] theorem State.fresh_ops  : (s.fresh.2).ops = s.ops := rfl
@[simp] theorem State.fresh_engines  : (s.fresh.2).engines = s.engines := rfl
@[simp] theorem State.fresh_dies  : (s.fresh.2).dies = s.dies := rfl
@[simp] theorem State.fresh_regions  : (s.fresh.2).regions = s.regions := rfl
@[simp] theorem State.fresh_goneRanges  : (s.fresh.2).goneRanges = s.goneRanges := rfl
@[simp] theorem State.fresh_launches  : (s.fresh.2).launches = s.launches := rfl
@[simp] theorem State.fresh_saved  : (s.fresh.2).saved = s.saved := rfl
@[simp] theorem State.fresh_links  : (s.fresh.2).links = s.links := rfl
@[simp] theorem State.fresh_lanes  : (s.fresh.2).lanes = s.lanes := rfl
@[simp] theorem State.fresh_records  : (s.fresh.2).records = s.records := rfl
@[simp] theorem State.fresh_pushes  : (s.fresh.2).pushes = s.pushes := rfl
@[simp] theorem State.fresh_softErr  : (s.fresh.2).softErr = s.softErr := rfl
@[simp] theorem State.fresh_dev  : (s.fresh.2).dev = s.dev := rfl

/-! ### free -/

@[simp] theorem State.free_agenda  : (s.free.2).agenda = s.agenda := rfl
@[simp] theorem State.free_actor  : (s.free.2).actor = s.actor := rfl
@[simp] theorem State.free_refetch  : (s.free.2).refetch = s.refetch := rfl
@[simp] theorem State.free_freeCtr  : (s.free.2).freeCtr = s.freeCtr + 1 := rfl
@[simp] theorem State.free_nextId  : (s.free.2).nextId = s.nextId := rfl
@[simp] theorem State.free_vreg  : (s.free.2).vreg = s.vreg := rfl
@[simp] theorem State.free_preg  : (s.free.2).preg = s.preg := rfl
@[simp] theorem State.free_fpx  : (s.free.2).fpx = s.fpx := rfl
@[simp] theorem State.free_greg  : (s.free.2).greg = s.greg := rfl
@[simp] theorem State.free_groups  : (s.free.2).groups = s.groups := rfl
@[simp] theorem State.free_crews  : (s.free.2).crews = s.crews := rfl
@[simp] theorem State.free_cores  : (s.free.2).cores = s.cores := rfl
@[simp] theorem State.free_scratch  : (s.free.2).scratch = s.scratch := rfl
@[simp] theorem State.free_silo  : (s.free.2).silo = s.silo := rfl
@[simp] theorem State.free_poison  : (s.free.2).poison = s.poison := rfl
@[simp] theorem State.free_mem  : (s.free.2).mem = s.mem := rfl
@[simp] theorem State.free_hostMem  : (s.free.2).hostMem = s.hostMem := rfl
@[simp] theorem State.free_ctl  : (s.free.2).ctl = s.ctl := rfl
@[simp] theorem State.free_heat  : (s.free.2).heat = s.heat := rfl
@[simp] theorem State.free_images  : (s.free.2).images = s.images := rfl
@[simp] theorem State.free_copies  : (s.free.2).copies = s.copies := rfl
@[simp] theorem State.free_ops  : (s.free.2).ops = s.ops := rfl
@[simp] theorem State.free_engines  : (s.free.2).engines = s.engines := rfl
@[simp] theorem State.free_dies  : (s.free.2).dies = s.dies := rfl
@[simp] theorem State.free_regions  : (s.free.2).regions = s.regions := rfl
@[simp] theorem State.free_goneRanges  : (s.free.2).goneRanges = s.goneRanges := rfl
@[simp] theorem State.free_launches  : (s.free.2).launches = s.launches := rfl
@[simp] theorem State.free_saved  : (s.free.2).saved = s.saved := rfl
@[simp] theorem State.free_links  : (s.free.2).links = s.links := rfl
@[simp] theorem State.free_lanes  : (s.free.2).lanes = s.lanes := rfl
@[simp] theorem State.free_records  : (s.free.2).records = s.records := rfl
@[simp] theorem State.free_pushes  : (s.free.2).pushes = s.pushes := rfl
@[simp] theorem State.free_softErr  : (s.free.2).softErr = s.softErr := rfl
@[simp] theorem State.free_dev  : (s.free.2).dev = s.dev := rfl

/-! ### setV -/

@[simp] theorem State.setV_agenda (r : Group) (n l : Nat) (x : W32) : (s.setV r n l x).agenda = s.agenda := by unfold State.setV; split <;> rfl
@[simp] theorem State.setV_actor (r : Group) (n l : Nat) (x : W32) : (s.setV r n l x).actor = s.actor := by unfold State.setV; split <;> rfl
@[simp] theorem State.setV_refetch (r : Group) (n l : Nat) (x : W32) : (s.setV r n l x).refetch = s.refetch := by unfold State.setV; split <;> rfl
@[simp] theorem State.setV_freeCtr (r : Group) (n l : Nat) (x : W32) : (s.setV r n l x).freeCtr = s.freeCtr := by unfold State.setV; split <;> rfl
@[simp] theorem State.setV_nextId (r : Group) (n l : Nat) (x : W32) : (s.setV r n l x).nextId = s.nextId := by unfold State.setV; split <;> rfl
@[simp] theorem State.setV_preg (r : Group) (n l : Nat) (x : W32) : (s.setV r n l x).preg = s.preg := by unfold State.setV; split <;> rfl
@[simp] theorem State.setV_fpx (r : Group) (n l : Nat) (x : W32) : (s.setV r n l x).fpx = s.fpx := by unfold State.setV; split <;> rfl
@[simp] theorem State.setV_greg (r : Group) (n l : Nat) (x : W32) : (s.setV r n l x).greg = s.greg := by unfold State.setV; split <;> rfl
@[simp] theorem State.setV_groups (r : Group) (n l : Nat) (x : W32) : (s.setV r n l x).groups = s.groups := by unfold State.setV; split <;> rfl
@[simp] theorem State.setV_crews (r : Group) (n l : Nat) (x : W32) : (s.setV r n l x).crews = s.crews := by unfold State.setV; split <;> rfl
@[simp] theorem State.setV_cores (r : Group) (n l : Nat) (x : W32) : (s.setV r n l x).cores = s.cores := by unfold State.setV; split <;> rfl
@[simp] theorem State.setV_scratch (r : Group) (n l : Nat) (x : W32) : (s.setV r n l x).scratch = s.scratch := by unfold State.setV; split <;> rfl
@[simp] theorem State.setV_silo (r : Group) (n l : Nat) (x : W32) : (s.setV r n l x).silo = s.silo := by unfold State.setV; split <;> rfl
@[simp] theorem State.setV_poison (r : Group) (n l : Nat) (x : W32) : (s.setV r n l x).poison = s.poison := by unfold State.setV; split <;> rfl
@[simp] theorem State.setV_mem (r : Group) (n l : Nat) (x : W32) : (s.setV r n l x).mem = s.mem := by unfold State.setV; split <;> rfl
@[simp] theorem State.setV_hostMem (r : Group) (n l : Nat) (x : W32) : (s.setV r n l x).hostMem = s.hostMem := by unfold State.setV; split <;> rfl
@[simp] theorem State.setV_ctl (r : Group) (n l : Nat) (x : W32) : (s.setV r n l x).ctl = s.ctl := by unfold State.setV; split <;> rfl
@[simp] theorem State.setV_heat (r : Group) (n l : Nat) (x : W32) : (s.setV r n l x).heat = s.heat := by unfold State.setV; split <;> rfl
@[simp] theorem State.setV_images (r : Group) (n l : Nat) (x : W32) : (s.setV r n l x).images = s.images := by unfold State.setV; split <;> rfl
@[simp] theorem State.setV_copies (r : Group) (n l : Nat) (x : W32) : (s.setV r n l x).copies = s.copies := by unfold State.setV; split <;> rfl
@[simp] theorem State.setV_ops (r : Group) (n l : Nat) (x : W32) : (s.setV r n l x).ops = s.ops := by unfold State.setV; split <;> rfl
@[simp] theorem State.setV_engines (r : Group) (n l : Nat) (x : W32) : (s.setV r n l x).engines = s.engines := by unfold State.setV; split <;> rfl
@[simp] theorem State.setV_dies (r : Group) (n l : Nat) (x : W32) : (s.setV r n l x).dies = s.dies := by unfold State.setV; split <;> rfl
@[simp] theorem State.setV_regions (r : Group) (n l : Nat) (x : W32) : (s.setV r n l x).regions = s.regions := by unfold State.setV; split <;> rfl
@[simp] theorem State.setV_goneRanges (r : Group) (n l : Nat) (x : W32) : (s.setV r n l x).goneRanges = s.goneRanges := by unfold State.setV; split <;> rfl
@[simp] theorem State.setV_launches (r : Group) (n l : Nat) (x : W32) : (s.setV r n l x).launches = s.launches := by unfold State.setV; split <;> rfl
@[simp] theorem State.setV_saved (r : Group) (n l : Nat) (x : W32) : (s.setV r n l x).saved = s.saved := by unfold State.setV; split <;> rfl
@[simp] theorem State.setV_links (r : Group) (n l : Nat) (x : W32) : (s.setV r n l x).links = s.links := by unfold State.setV; split <;> rfl
@[simp] theorem State.setV_lanes (r : Group) (n l : Nat) (x : W32) : (s.setV r n l x).lanes = s.lanes := by unfold State.setV; split <;> rfl
@[simp] theorem State.setV_records (r : Group) (n l : Nat) (x : W32) : (s.setV r n l x).records = s.records := by unfold State.setV; split <;> rfl
@[simp] theorem State.setV_pushes (r : Group) (n l : Nat) (x : W32) : (s.setV r n l x).pushes = s.pushes := by unfold State.setV; split <;> rfl
@[simp] theorem State.setV_softErr (r : Group) (n l : Nat) (x : W32) : (s.setV r n l x).softErr = s.softErr := by unfold State.setV; split <;> rfl
@[simp] theorem State.setV_dev (r : Group) (n l : Nat) (x : W32) : (s.setV r n l x).dev = s.dev := by unfold State.setV; split <;> rfl

/-! ### setP -/

@[simp] theorem State.setP_agenda (r : Group) (n l : Nat) (x : Bool) : (s.setP r n l x).agenda = s.agenda := by unfold State.setP; split <;> rfl
@[simp] theorem State.setP_actor (r : Group) (n l : Nat) (x : Bool) : (s.setP r n l x).actor = s.actor := by unfold State.setP; split <;> rfl
@[simp] theorem State.setP_refetch (r : Group) (n l : Nat) (x : Bool) : (s.setP r n l x).refetch = s.refetch := by unfold State.setP; split <;> rfl
@[simp] theorem State.setP_freeCtr (r : Group) (n l : Nat) (x : Bool) : (s.setP r n l x).freeCtr = s.freeCtr := by unfold State.setP; split <;> rfl
@[simp] theorem State.setP_nextId (r : Group) (n l : Nat) (x : Bool) : (s.setP r n l x).nextId = s.nextId := by unfold State.setP; split <;> rfl
@[simp] theorem State.setP_vreg (r : Group) (n l : Nat) (x : Bool) : (s.setP r n l x).vreg = s.vreg := by unfold State.setP; split <;> rfl
@[simp] theorem State.setP_fpx (r : Group) (n l : Nat) (x : Bool) : (s.setP r n l x).fpx = s.fpx := by unfold State.setP; split <;> rfl
@[simp] theorem State.setP_greg (r : Group) (n l : Nat) (x : Bool) : (s.setP r n l x).greg = s.greg := by unfold State.setP; split <;> rfl
@[simp] theorem State.setP_groups (r : Group) (n l : Nat) (x : Bool) : (s.setP r n l x).groups = s.groups := by unfold State.setP; split <;> rfl
@[simp] theorem State.setP_crews (r : Group) (n l : Nat) (x : Bool) : (s.setP r n l x).crews = s.crews := by unfold State.setP; split <;> rfl
@[simp] theorem State.setP_cores (r : Group) (n l : Nat) (x : Bool) : (s.setP r n l x).cores = s.cores := by unfold State.setP; split <;> rfl
@[simp] theorem State.setP_scratch (r : Group) (n l : Nat) (x : Bool) : (s.setP r n l x).scratch = s.scratch := by unfold State.setP; split <;> rfl
@[simp] theorem State.setP_silo (r : Group) (n l : Nat) (x : Bool) : (s.setP r n l x).silo = s.silo := by unfold State.setP; split <;> rfl
@[simp] theorem State.setP_poison (r : Group) (n l : Nat) (x : Bool) : (s.setP r n l x).poison = s.poison := by unfold State.setP; split <;> rfl
@[simp] theorem State.setP_mem (r : Group) (n l : Nat) (x : Bool) : (s.setP r n l x).mem = s.mem := by unfold State.setP; split <;> rfl
@[simp] theorem State.setP_hostMem (r : Group) (n l : Nat) (x : Bool) : (s.setP r n l x).hostMem = s.hostMem := by unfold State.setP; split <;> rfl
@[simp] theorem State.setP_ctl (r : Group) (n l : Nat) (x : Bool) : (s.setP r n l x).ctl = s.ctl := by unfold State.setP; split <;> rfl
@[simp] theorem State.setP_heat (r : Group) (n l : Nat) (x : Bool) : (s.setP r n l x).heat = s.heat := by unfold State.setP; split <;> rfl
@[simp] theorem State.setP_images (r : Group) (n l : Nat) (x : Bool) : (s.setP r n l x).images = s.images := by unfold State.setP; split <;> rfl
@[simp] theorem State.setP_copies (r : Group) (n l : Nat) (x : Bool) : (s.setP r n l x).copies = s.copies := by unfold State.setP; split <;> rfl
@[simp] theorem State.setP_ops (r : Group) (n l : Nat) (x : Bool) : (s.setP r n l x).ops = s.ops := by unfold State.setP; split <;> rfl
@[simp] theorem State.setP_engines (r : Group) (n l : Nat) (x : Bool) : (s.setP r n l x).engines = s.engines := by unfold State.setP; split <;> rfl
@[simp] theorem State.setP_dies (r : Group) (n l : Nat) (x : Bool) : (s.setP r n l x).dies = s.dies := by unfold State.setP; split <;> rfl
@[simp] theorem State.setP_regions (r : Group) (n l : Nat) (x : Bool) : (s.setP r n l x).regions = s.regions := by unfold State.setP; split <;> rfl
@[simp] theorem State.setP_goneRanges (r : Group) (n l : Nat) (x : Bool) : (s.setP r n l x).goneRanges = s.goneRanges := by unfold State.setP; split <;> rfl
@[simp] theorem State.setP_launches (r : Group) (n l : Nat) (x : Bool) : (s.setP r n l x).launches = s.launches := by unfold State.setP; split <;> rfl
@[simp] theorem State.setP_saved (r : Group) (n l : Nat) (x : Bool) : (s.setP r n l x).saved = s.saved := by unfold State.setP; split <;> rfl
@[simp] theorem State.setP_links (r : Group) (n l : Nat) (x : Bool) : (s.setP r n l x).links = s.links := by unfold State.setP; split <;> rfl
@[simp] theorem State.setP_lanes (r : Group) (n l : Nat) (x : Bool) : (s.setP r n l x).lanes = s.lanes := by unfold State.setP; split <;> rfl
@[simp] theorem State.setP_records (r : Group) (n l : Nat) (x : Bool) : (s.setP r n l x).records = s.records := by unfold State.setP; split <;> rfl
@[simp] theorem State.setP_pushes (r : Group) (n l : Nat) (x : Bool) : (s.setP r n l x).pushes = s.pushes := by unfold State.setP; split <;> rfl
@[simp] theorem State.setP_softErr (r : Group) (n l : Nat) (x : Bool) : (s.setP r n l x).softErr = s.softErr := by unfold State.setP; split <;> rfl
@[simp] theorem State.setP_dev (r : Group) (n l : Nat) (x : Bool) : (s.setP r n l x).dev = s.dev := by unfold State.setP; split <;> rfl

/-! ### setFpx -/

@[simp] theorem State.setFpx_agenda (r : Group) (l : Nat) (x : W32) : (s.setFpx r l x).agenda = s.agenda := by unfold State.setFpx; split <;> rfl
@[simp] theorem State.setFpx_actor (r : Group) (l : Nat) (x : W32) : (s.setFpx r l x).actor = s.actor := by unfold State.setFpx; split <;> rfl
@[simp] theorem State.setFpx_refetch (r : Group) (l : Nat) (x : W32) : (s.setFpx r l x).refetch = s.refetch := by unfold State.setFpx; split <;> rfl
@[simp] theorem State.setFpx_freeCtr (r : Group) (l : Nat) (x : W32) : (s.setFpx r l x).freeCtr = s.freeCtr := by unfold State.setFpx; split <;> rfl
@[simp] theorem State.setFpx_nextId (r : Group) (l : Nat) (x : W32) : (s.setFpx r l x).nextId = s.nextId := by unfold State.setFpx; split <;> rfl
@[simp] theorem State.setFpx_vreg (r : Group) (l : Nat) (x : W32) : (s.setFpx r l x).vreg = s.vreg := by unfold State.setFpx; split <;> rfl
@[simp] theorem State.setFpx_preg (r : Group) (l : Nat) (x : W32) : (s.setFpx r l x).preg = s.preg := by unfold State.setFpx; split <;> rfl
@[simp] theorem State.setFpx_greg (r : Group) (l : Nat) (x : W32) : (s.setFpx r l x).greg = s.greg := by unfold State.setFpx; split <;> rfl
@[simp] theorem State.setFpx_groups (r : Group) (l : Nat) (x : W32) : (s.setFpx r l x).groups = s.groups := by unfold State.setFpx; split <;> rfl
@[simp] theorem State.setFpx_crews (r : Group) (l : Nat) (x : W32) : (s.setFpx r l x).crews = s.crews := by unfold State.setFpx; split <;> rfl
@[simp] theorem State.setFpx_cores (r : Group) (l : Nat) (x : W32) : (s.setFpx r l x).cores = s.cores := by unfold State.setFpx; split <;> rfl
@[simp] theorem State.setFpx_scratch (r : Group) (l : Nat) (x : W32) : (s.setFpx r l x).scratch = s.scratch := by unfold State.setFpx; split <;> rfl
@[simp] theorem State.setFpx_silo (r : Group) (l : Nat) (x : W32) : (s.setFpx r l x).silo = s.silo := by unfold State.setFpx; split <;> rfl
@[simp] theorem State.setFpx_poison (r : Group) (l : Nat) (x : W32) : (s.setFpx r l x).poison = s.poison := by unfold State.setFpx; split <;> rfl
@[simp] theorem State.setFpx_mem (r : Group) (l : Nat) (x : W32) : (s.setFpx r l x).mem = s.mem := by unfold State.setFpx; split <;> rfl
@[simp] theorem State.setFpx_hostMem (r : Group) (l : Nat) (x : W32) : (s.setFpx r l x).hostMem = s.hostMem := by unfold State.setFpx; split <;> rfl
@[simp] theorem State.setFpx_ctl (r : Group) (l : Nat) (x : W32) : (s.setFpx r l x).ctl = s.ctl := by unfold State.setFpx; split <;> rfl
@[simp] theorem State.setFpx_heat (r : Group) (l : Nat) (x : W32) : (s.setFpx r l x).heat = s.heat := by unfold State.setFpx; split <;> rfl
@[simp] theorem State.setFpx_images (r : Group) (l : Nat) (x : W32) : (s.setFpx r l x).images = s.images := by unfold State.setFpx; split <;> rfl
@[simp] theorem State.setFpx_copies (r : Group) (l : Nat) (x : W32) : (s.setFpx r l x).copies = s.copies := by unfold State.setFpx; split <;> rfl
@[simp] theorem State.setFpx_ops (r : Group) (l : Nat) (x : W32) : (s.setFpx r l x).ops = s.ops := by unfold State.setFpx; split <;> rfl
@[simp] theorem State.setFpx_engines (r : Group) (l : Nat) (x : W32) : (s.setFpx r l x).engines = s.engines := by unfold State.setFpx; split <;> rfl
@[simp] theorem State.setFpx_dies (r : Group) (l : Nat) (x : W32) : (s.setFpx r l x).dies = s.dies := by unfold State.setFpx; split <;> rfl
@[simp] theorem State.setFpx_regions (r : Group) (l : Nat) (x : W32) : (s.setFpx r l x).regions = s.regions := by unfold State.setFpx; split <;> rfl
@[simp] theorem State.setFpx_goneRanges (r : Group) (l : Nat) (x : W32) : (s.setFpx r l x).goneRanges = s.goneRanges := by unfold State.setFpx; split <;> rfl
@[simp] theorem State.setFpx_launches (r : Group) (l : Nat) (x : W32) : (s.setFpx r l x).launches = s.launches := by unfold State.setFpx; split <;> rfl
@[simp] theorem State.setFpx_saved (r : Group) (l : Nat) (x : W32) : (s.setFpx r l x).saved = s.saved := by unfold State.setFpx; split <;> rfl
@[simp] theorem State.setFpx_links (r : Group) (l : Nat) (x : W32) : (s.setFpx r l x).links = s.links := by unfold State.setFpx; split <;> rfl
@[simp] theorem State.setFpx_lanes (r : Group) (l : Nat) (x : W32) : (s.setFpx r l x).lanes = s.lanes := by unfold State.setFpx; split <;> rfl
@[simp] theorem State.setFpx_records (r : Group) (l : Nat) (x : W32) : (s.setFpx r l x).records = s.records := by unfold State.setFpx; split <;> rfl
@[simp] theorem State.setFpx_pushes (r : Group) (l : Nat) (x : W32) : (s.setFpx r l x).pushes = s.pushes := by unfold State.setFpx; split <;> rfl
@[simp] theorem State.setFpx_softErr (r : Group) (l : Nat) (x : W32) : (s.setFpx r l x).softErr = s.softErr := by unfold State.setFpx; split <;> rfl
@[simp] theorem State.setFpx_dev (r : Group) (l : Nat) (x : W32) : (s.setFpx r l x).dev = s.dev := by unfold State.setFpx; split <;> rfl

end Sys2Proof.Machine
end

