-- ==== Sys2Proof/Laws/Issue.lean ====
section
/-! SUPPORT. What issuing a group instruction comes to when nothing watches: the checks pass and the
effect's own result stands. One law for each way an effect can end. -/

namespace Sys2Proof.Machine

theorem State.watchMatches_go_false (own : Nat → List Nat × (Nat → W64)) (ws : List WPred)
    (h : ∀ n, (own n).1 = []) (k : Nat) (acc : List Bool) (ha : ∀ b ∈ acc, b = false) :
    ∀ b ∈ State.watchMatches.go ws own k acc, b = false := by
  induction k generalizing acc with
  | zero => simpa [State.watchMatches.go] using ha
  | succ k ih =>
    simp only [State.watchMatches.go, h, List.isEmpty_nil, Bool.not_true, Bool.false_and]
    refine ih _ fun b hb => ?_
    rcases List.mem_append.mp hb with hb | hb
    · exact ha b hb
    · simpa using hb

theorem getD_false_of_all {l : List Bool} (h : ∀ b ∈ l, b = false) (n : Nat) : l.getD n false = false := by
  rw [List.getD_eq_getElem?_getD]
  cases hg : l[n]? with
  | none => rfl
  | some b => exact h b (List.mem_of_getElem? hg)

/-- Nothing matches on a core whose predicates are all disabled. -/
theorem State.watchMatches_unwatched (s : State) (g : Gid) (r : Group) (srcs : List WSrc)
    (h : s.unwatched g.core) : s.watchMatches g r srcs = [] := by
  have off : ∀ n, bitOf ((s.core g.core).watch.getD n {}).ctl 63 = false := by
    intro n
    rw [List.getD_eq_getElem?_getD]
    cases hg : (s.core g.core).watch[n]? with
    | none => rfl
    | some w => exact h w (List.mem_of_getElem? hg)
  unfold State.watchMatches
  simp only [off, Bool.false_and, Bool.false_eq_true, if_false]
  rw [List.filterMap_eq_nil_iff]
  intro n _
  rw [if_neg]
  rw [getD_false_of_all (State.watchMatches_go_false _ _ (fun _ => rfl) _ _ (by simp))]
  simp

theorem State.core_countIssue (s : State) (g : Gid) (b : Bool) (n : Nat) :
    (s.countIssue g b).core n =
      if n = g.core then { s.core n with leaf := (s.core n).leaf.modify (if b then 0 else 1) (· + 1) } else s.core n := by
  unfold State.countIssue State.modCore State.putCore
  by_cases h : n = g.core
  · subst h; simp [State.core]
  · simp [State.core, tfind_tput, h]

theorem State.unwatched_countIssue {s : State} {g : Gid} {b : Bool} {n : Nat} (h : s.unwatched n) :
    (s.countIssue g b).unwatched n := by
  unfold State.unwatched at h ⊢
  rw [State.core_countIssue]
  split <;> exact h

@[simp] theorem State.group?_countIssue (s : State) (g : Gid) (b : Bool) : (s.countIssue g b).group? = s.group? := rfl
@[simp] theorem State.crewOf_countIssue (s : State) (g : Gid) (b : Bool) : (s.countIssue g b).crewOf = s.crewOf := rfl

/-! ### What settling comes to when nothing watches -/

@[simp] theorem State.matched_nil (s : State) (g : Gid) (r : Group) : s.matched g r [] = s := by
  simp [State.matched, State.countMatches]

@[simp] theorem haltMatch_nil : haltMatch [] = none := rfl
@[simp] theorem trapMatch_nil : trapMatch [] = [] := by simp [trapMatch]
@[simp] theorem State.watchTraps_nil (s : State) (r : Group) (f : Fields) (sh : Shape) : s.watchTraps r f sh [] = [] := by
  simp [State.watchTraps]
@[simp] theorem joinTraps_nil (ts : List TrapLane) : joinTraps [] ts = ts := by simp [joinTraps]

theorem State.keepHalt_same {s : State} {g : Gid} {r r' : Group} (h : s.group? g = some r) :
    s.keepHalt g r r' = r' := by simp [State.keepHalt, h]

theorem State.complete_unwatched {s : State} {g : Gid} (h : s.unwatched g.core) (r : Group) (f : Fields) (sh : Shape)
    (nm : Bool) (s' : State) (r' : Group) (post : List WSrc) (ts : List TrapLane) (hh : ts = [] ∨ r.inHandler = false) :
    s.complete g r f sh nm s' r' [] post ts =
      s'.putGroup g { s'.keepHalt g r r' with wskip := false, traps := (s'.keepHalt g r r').traps ++ ts } := by
  have : (if nm then [] else s.watchMatches g r (s.flagSrcs r f sh post)) = [] := by
    split
    · rfl
    · exact s.watchMatches_unwatched _ _ _ h
  unfold State.complete
  simp only [this, List.append_nil, haltMatch_nil, ite_self, State.watchTraps_nil, joinTraps_nil, State.matched_nil]
  rcases hh with rfl | hh <;> simp_all

/-- What `settle` evaluates before an access, when nothing watches: no match. -/
theorem State.settle_ok {s : State} {g : Gid} (h : s.unwatched g.core) (r : Group) (f : Fields) (sh : Shape)
    (nm : Bool) (s' : State) (r' : Group) (pre : Option (List WMatch)) (post : List WSrc) (ts : List TrapLane)
    (hp : pre = none ∨ pre = some []) (hh : ts = [] ∨ r.inHandler = false) :
    s.settle g r f sh nm (.ok s' r' pre post ts) =
      s'.putGroup g { s'.keepHalt g r r' with wskip := false, traps := (s'.keepHalt g r r').traps ++ ts } := by
  have w := s.watchMatches_unwatched g r [pcSrc r] h
  have c := State.complete_unwatched h r f sh nm s' r' post ts hh
  rcases hp with rfl | rfl <;> simp [State.settle, *]

theorem State.settle_wait {s : State} {g : Gid} (h : s.unwatched g.core) (r : Group) (f : Fields) (sh : Shape)
    (nm : Bool) (s' : State) (r' : Group) (pre : Option (List WMatch)) (ts : List TrapLane)
    (hp : pre = none ∨ pre = some []) (hh : ts = [] ∨ r.inHandler = false) :
    s.settle g r f sh nm (.wait s' r' pre ts) =
      s'.putGroup g { s'.keepHalt g r r' with traps := r'.traps ++ ts, ins := f, insSh := sh, wskip := false } := by
  have w := s.watchMatches_unwatched g r [pcSrc r] h
  rcases hp with rfl | rfl <;> rcases hh with rfl | hh <;> simp [State.settle, *]

theorem State.completeEnded_unwatched {s : State} {g : Gid} (h : s.unwatched g.core) (r : Group) (f : Fields) (nm : Bool)
    (s' : State) : s.completeEnded g r f nm s' [] = s' := by
  have : (if nm then [] else s.watchMatches g r (s.flagSrcs r f {} [])) = [] := by
    split
    · rfl
    · exact s.watchMatches_unwatched _ _ _ h
  unfold State.completeEnded
  simp [this]

theorem State.settle_ended {s : State} {g : Gid} (h : s.unwatched g.core) (r : Group) (f : Fields) (sh : Shape)
    (nm : Bool) (s' : State) : s.settle g r f sh nm (.ended s') = s' := by
  have w := s.watchMatches_unwatched g r [pcSrc r] h
  have c := State.completeEnded_unwatched h r f nm s'
  simp [State.settle, *]

/-- WPSET and WPCLR: the predicate stands as written, once the instruction has completed. -/
theorem State.settle_predicate {s : State} {g : Gid} (h : s.unwatched g.core) {r : Group} (f : Fields) (sh : Shape)
    (nm : Bool) {s' : State} {r' : Group} (n : Nat) (w : WPred) (hs : s'.group? g = some r) (hp : r'.pc ≠ r.pc) :
    s.settle g r f sh nm (.predicate s' r' n w) =
      (s'.putGroup g { r' with wskip := false }).modCore g.core fun c => { c with watch := c.watch.set n w } := by
  have m := s.watchMatches_unwatched g r [pcSrc r] h
  have c := State.complete_unwatched h r f sh nm s' r' [] [] (.inl rfl)
  rw [State.keepHalt_same hs] at c
  simp [State.settle, *, State.group?, State.putGroup]

/-! ### Issuing -/

/-- The checks pass: what is left is the effect and how it settles. -/
theorem issue_settle {i : Instr} {x : Form} {s : State} {g : Gid} {r : Group} (h : Issues i x s g r) {lvl : Nat}
    (hl : lvl ≤ s.levelOf g r) (k : State → Gid → Group → Res)
    (hk : k (s.countIssue g (s.useful r x.f)) g r ≠ .retry) :
    issue lvl x.f x.shape s k = .next ((s.countIssue g (s.useful r x.f)).settle g r x.f x.shape
      (!x.f.u && (s.activeLanes r x.f).isEmpty) (k (s.countIssue g (s.useful r x.f)) g r)) := by
  have hp : s.permits g r lvl = true := by simpa [State.permits] using hl
  have hx : ¬ 32 * r.gran < x.shape.extent x.f := by have := h.extent; omega
  have hg : (x.f.u && !s.guard r x.f 0) = false := by
    cases hu : x.f.u
    · rfl
    · simp [h.guard hu]
  unfold issue
  simp only [h.actor, h.group, hp, hx, hg, h.free, h.owed, h.first, Bool.not_true, Bool.or_self, Bool.false_eq_true,
    if_false, if_true]
  change (match k (s.countIssue g (s.useful r x.f)) g r with | .retry => _ | x => _) = _
  split
  · contradiction
  · rfl

/-- What may not go on yet changes nothing. -/
theorem issue_retry {i : Instr} {x : Form} {s : State} {g : Gid} {r : Group} (h : Issues i x s g r) {lvl : Nat}
    (hl : lvl ≤ s.levelOf g r) (k : State → Gid → Group → Res)
    (hk : k (s.countIssue g (s.useful r x.f)) g r = .retry) : issue lvl x.f x.shape s k = .next s := by
  have hp : s.permits g r lvl = true := by simpa [State.permits] using hl
  have hx : ¬ 32 * r.gran < x.shape.extent x.f := by have := h.extent; omega
  have hg : (x.f.u && !s.guard r x.f 0) = false := by
    cases hu : x.f.u
    · rfl
    · simp [h.guard hu]
  unfold issue
  simp only [h.actor, h.group, hp, hx, hg, h.free, h.owed, h.first, Bool.not_true, Bool.or_self, Bool.false_eq_true,
    if_false, if_true]
  change (match k (s.countIssue g (s.useful r x.f)) g r with | .retry => _ | x => _) = _
  rw [hk]

/-- The effect completes: its registers' state, with the group's record put back. -/
theorem issue_ok {i : Instr} {x : Form} {s : State} {g : Gid} {r : Group} (h : Issues i x s g r) {lvl : Nat}
    (hl : lvl ≤ s.levelOf g r) {k : State → Gid → Group → Res} {s' : State} {r' : Group}
    {pre : Option (List WMatch)} {post : List WSrc} (hk : k (s.countIssue g (s.useful r x.f)) g r = .ok s' r' pre post [])
    (hp : pre = none ∨ pre = some []) (hs : s'.groups = s.groups) :
    issue lvl x.f x.shape s k = .next (s'.putGroup g { r' with wskip := false }) := by
  rw [issue_settle h hl k (by rw [hk]; exact Res.noConfusion), hk,
    State.settle_ok (State.unwatched_countIssue h.unwatched) _ _ _ _ _ _ _ _ _ hp (.inl rfl),
    State.keepHalt_same (by simpa [State.group?, hs] using h.group)]
  simp

theorem issue_wait {i : Instr} {x : Form} {s : State} {g : Gid} {r : Group} (h : Issues i x s g r) {lvl : Nat}
    (hl : lvl ≤ s.levelOf g r) {k : State → Gid → Group → Res} {s' : State} {r' : Group}
    {pre : Option (List WMatch)} (hk : k (s.countIssue g (s.useful r x.f)) g r = .wait s' r' pre [])
    (hp : pre = none ∨ pre = some []) (hs : s'.groups = s.groups) :
    issue lvl x.f x.shape s k = .next (s'.putGroup g { r' with ins := x.f, insSh := x.shape, wskip := false }) := by
  rw [issue_settle h hl k (by rw [hk]; exact Res.noConfusion), hk,
    State.settle_wait (State.unwatched_countIssue h.unwatched) _ _ _ _ _ _ _ _ hp (.inl rfl),
    State.keepHalt_same (by simpa [State.group?, hs] using h.group)]
  simp

theorem issue_ended {i : Instr} {x : Form} {s : State} {g : Gid} {r : Group} (h : Issues i x s g r) {lvl : Nat}
    (hl : lvl ≤ s.levelOf g r) {k : State → Gid → Group → Res} {s' : State}
    (hk : k (s.countIssue g (s.useful r x.f)) g r = .ended s') :
    issue lvl x.f x.shape s k = .next s' := by
  rw [issue_settle h hl k (by rw [hk]; exact Res.noConfusion), hk,
    State.settle_ended (State.unwatched_countIssue h.unwatched)]

end Sys2Proof.Machine
end

