-- ==== Sys2Proof/Laws/PerInstr.lean ====
section
/-! SUPPORT. One lemma for each instruction: of a legal form, the decoder's table chooses that instruction
from the form's OP and fields. A device event has no form. -/

namespace Sys2Proof.Laws.Chosen

open Sys2Proof

/-- The decoder's choice (R46, R48) for a legal instruction is the instruction. -/
def Statement (i : Instr) : Prop :=
  ∀ x, i.form = some x → x.legal = true → (if x.matrix then matrixInstr x.op x.f else groupInstr x.op x.f) = some i

theorem powerOnReset (imageOk : Bool) (failed : List (Nat × Nat)) (domId : Nat) : Statement (.powerOnReset imageOk failed domId) := fun _ h => nomatch h
theorem linkRetryFailure (link : Nat) (who : LinkUser) : Statement (.linkRetryFailure link who) := fun _ h => nomatch h
theorem drain (g : Gid) (k : Nat) : Statement (.drain g k) := fun _ h => nomatch h
theorem evict (core line : Nat) : Statement (.evict core line) := fun _ h => nomatch h
theorem remoteReply (g : Gid) : Statement (.remoteReply g) := fun _ h => nomatch h
theorem taskRecordValidation (die : Nat) : Statement (.taskRecordValidation die) := fun _ h => nomatch h
theorem dispatchDecision (die : Nat) : Statement (.dispatchDecision die) := fun _ h => nomatch h
theorem admissionCommit (die : Nat) : Statement (.admissionCommit die) := fun _ h => nomatch h
theorem admissionRelease (die : Nat) : Statement (.admissionRelease die) := fun _ h => nomatch h
theorem coreReservation (die : Nat) : Statement (.coreReservation die) := fun _ h => nomatch h
theorem preemptionRequest (core slot : Nat) : Statement (.preemptionRequest core slot) := fun _ h => nomatch h
theorem crewEviction (core slot : Nat) : Statement (.crewEviction core slot) := fun _ h => nomatch h
theorem crewRestore (id core : Nat) : Statement (.crewRestore id core) := fun _ h => nomatch h
theorem fullTestEnd (core : Nat) : Statement (.fullTestEnd core) := fun _ h => nomatch h
theorem spawnRecordStart (core k : Nat) : Statement (.spawnRecordStart core k) := fun _ h => nomatch h
theorem overflowRingMove (core : Nat) : Statement (.overflowRingMove core) := fun _ h => nomatch h
theorem crewRetire (core slot : Nat) : Statement (.crewRetire core slot) := fun _ h => nomatch h
theorem queueEntryReceipt (link : Nat) (full : Bool) : Statement (.queueEntryReceipt link full) := fun _ h => nomatch h
theorem acknowledgement (link : Nat) : Statement (.acknowledgement link) := fun _ h => nomatch h
theorem negativeAcknowledgement (link : Nat) : Statement (.negativeAcknowledgement link) := fun _ h => nomatch h
theorem backoffExpiry (link : Nat) : Statement (.backoffExpiry link) := fun _ h => nomatch h
theorem sleepExpiry (g : Gid) : Statement (.sleepExpiry g) := fun _ h => nomatch h
theorem yieldEnd (g : Gid) : Statement (.yieldEnd g) := fun _ h => nomatch h
theorem copyIssue (g : Gid) : Statement (.copyIssue g) := fun _ h => nomatch h
theorem beat (id k : Nat) : Statement (.beat id k) := fun _ h => nomatch h
theorem copyCompletion (id : Nat) : Statement (.copyCompletion id) := fun _ h => nomatch h
theorem arbiterGrant (engine : Nat) : Statement (.arbiterGrant engine) := fun _ h => nomatch h
theorem passSegment (id : Nat) : Statement (.passSegment id) := fun _ h => nomatch h
theorem passCompletion (id : Nat) : Statement (.passCompletion id) := fun _ h => nomatch h
theorem siloOperationCompletion (id : Nat) : Statement (.siloOperationCompletion id) := fun _ h => nomatch h
theorem engineResume (engine : Nat) (failed : List Nat) : Statement (.engineResume engine failed) := fun _ h => nomatch h
theorem push (k : Nat) : Statement (.push k) := fun _ h => nomatch h
theorem exchange (desc src line : Nat) : Statement (.exchange desc src line) := fun _ h => nomatch h
theorem phaseEnd (desc : Nat) (stretched : Bool) : Statement (.phaseEnd desc stretched) := fun _ h => nomatch h
theorem thresholdLoad (g : Gid) : Statement (.thresholdLoad g) := fun _ h => nomatch h
theorem tldtTimeout (g : Gid) : Statement (.tldtTimeout g) := fun _ h => nomatch h
theorem lsyncDone (g : Gid) : Statement (.lsyncDone g) := fun _ h => nomatch h
theorem futureWaitReturn (g : Gid) : Statement (.futureWaitReturn g) := fun _ h => nomatch h
theorem fwaitExpiry (g : Gid) : Statement (.fwaitExpiry g) := fun _ h => nomatch h
theorem faultRecordWrite (part : Nat) : Statement (.faultRecordWrite part) := fun _ h => nomatch h
theorem heatSample (core frame : Nat) : Statement (.heatSample core frame) := fun _ h => nomatch h
theorem trapCompaction (core slot : Nat) : Statement (.trapCompaction core slot) := fun _ h => nomatch h
theorem sheafHaltArrival (core slot : Nat) : Statement (.sheafHaltArrival core slot) := fun _ h => nomatch h
theorem fatalHandlerStart (core slot : Nat) : Statement (.fatalHandlerStart core slot) := fun _ h => nomatch h
theorem queuePoll (lane : Nat) : Statement (.queuePoll lane) := fun _ h => nomatch h
theorem deviceLaunchQueueTake (lane : Nat) : Statement (.deviceLaunchQueueTake lane) := fun _ h => nomatch h
theorem queueRestart (lane : Nat) : Statement (.queueRestart lane) := fun _ h => nomatch h
theorem regionRegistration (desc : Nat) (w : W64) : Statement (.regionRegistration desc w) := fun _ h => nomatch h
theorem regionDeregistration (desc : Nat) (w : W64) : Statement (.regionDeregistration desc w) := fun _ h => nomatch h
theorem partitionEnable (part : Nat) (w : W64) : Statement (.partitionEnable part w) := fun _ h => nomatch h
theorem asidDisable (asid : Nat) (w : W64) : Statement (.asidDisable asid w) := fun _ h => nomatch h
theorem poolWindowEnable (port win : Nat) (w : W64) (trained : Bool) : Statement (.poolWindowEnable port win w trained) := fun _ h => nomatch h
theorem poolWindowDisable (port win : Nat) (w : W64) : Statement (.poolWindowDisable port win w) := fun _ h => nomatch h
theorem freplay (part : Nat) (w : W64) : Statement (.freplay part w) := fun _ h => nomatch h
theorem pteUpdate (die : Nat) : Statement (.pteUpdate die) := fun _ h => nomatch h
theorem pteInvalidate (die : Nat) : Statement (.pteInvalidate die) := fun _ h => nomatch h
theorem shootdownComplete (die : Nat) : Statement (.shootdownComplete die) := fun _ h => nomatch h
theorem bar2Read (off size : Nat) : Statement (.bar2Read off size) := fun _ h => nomatch h
theorem bar2Write (off size : Nat) (val : W64) : Statement (.bar2Write off size val) := fun _ h => nomatch h
theorem registerWrite (who : Agent) (off : Nat) (w : W64) : Statement (.registerWrite who off w) := fun _ h => nomatch h
theorem cctlCompletion (g : Gid) : Statement (.cctlCompletion g) := fun _ h => nomatch h
theorem msixUnmask (vec : Nat) : Statement (.msixUnmask vec) := fun _ h => nomatch h
theorem peerLinkChange : Statement (.peerLinkChange) := fun _ h => nomatch h
theorem backInvalidate : Statement (.backInvalidate) := fun _ h => nomatch h
theorem tick : Statement (.tick) := fun _ h => nomatch h
theorem sensorSample : Statement (.sensorSample) := fun _ h => nomatch h
theorem coolPeriodExpiry : Statement (.coolPeriodExpiry) := fun _ h => nomatch h
theorem engineWatchdogExpiry : Statement (.engineWatchdogExpiry) := fun _ h => nomatch h
theorem snapshotTrigger : Statement (.snapshotTrigger) := fun _ h => nomatch h
theorem snapshotLatch : Statement (.snapshotLatch) := fun _ h => nomatch h
theorem thresherRound : Statement (.thresherRound) := fun _ h => nomatch h
theorem nopPacket : Statement (.nopPacket) := fun _ h => nomatch h
theorem launch : Statement (.launch) := fun _ h => nomatch h
theorem ibCall : Statement (.ibCall) := fun _ h => nomatch h
theorem waitValue : Statement (.waitValue) := fun _ h => nomatch h
theorem writeValue : Statement (.writeValue) := fun _ h => nomatch h
theorem fencePacket : Statement (.fencePacket) := fun _ h => nomatch h
theorem timestamp : Statement (.timestamp) := fun _ h => nomatch h
theorem snapshotRelease : Statement (.snapshotRelease) := fun _ h => nomatch h
theorem hostTrigger : Statement (.hostTrigger) := fun _ h => nomatch h
theorem readEventLog : Statement (.readEventLog) := fun _ h => nomatch h
theorem updateBegin : Statement (.updateBegin) := fun _ h => nomatch h
theorem updateData : Statement (.updateData) := fun _ h => nomatch h
theorem updateCommit : Statement (.updateCommit) := fun _ h => nomatch h
theorem granaryHalt : Statement (.granaryHalt) := fun _ h => nomatch h
theorem granaryHrd : Statement (.granaryHrd) := fun _ h => nomatch h
theorem granaryHwr : Statement (.granaryHwr) := fun _ h => nomatch h
theorem granaryHstep : Statement (.granaryHstep) := fun _ h => nomatch h
theorem granaryHres : Statement (.granaryHres) := fun _ h => nomatch h
theorem killAsid : Statement (.killAsid) := fun _ h => nomatch h
theorem preemptAsid : Statement (.preemptAsid) := fun _ h => nomatch h
theorem snapshotCommand : Statement (.snapshotCommand) := fun _ h => nomatch h
theorem mailboxCommandCompletion : Statement (.mailboxCommandCompletion) := fun _ h => nomatch h
theorem powerLoss : Statement (.powerLoss) := fun _ h => nomatch h
theorem nop (f : Fields) : Statement (.nop f) := by rintro x ⟨⟩ _; rfl
theorem exit (f : Fields) : Statement (.exit f) := by rintro x ⟨⟩ _; rfl
theorem bra (f : Fields) : Statement (.bra f) := by rintro x ⟨⟩ _; rfl
theorem brx (f : Fields) : Statement (.brx f) := by rintro x ⟨⟩ _; rfl
theorem call (f : Fields) : Statement (.call f) := by
  rintro x ⟨⟩ hl
  change (if f.fnIs 0 then some (.call f) else some (.callI f) : Option Instr) = _
  simp_all [Form.legal, Shape.legal, shapeCall, Fields.fnIs]
theorem callI (f : Fields) : Statement (.callI f) := by
  rintro x ⟨⟩ hl
  change (if f.fnIs 0 then some (.call f) else some (.callI f) : Option Instr) = _
  simp_all [Form.legal, Shape.legal, shapeCallI, Fields.fnIs]
theorem ret (f : Fields) : Statement (.ret f) := by rintro x ⟨⟩ _; rfl
theorem loop (f : Fields) : Statement (.loop f) := by rintro x ⟨⟩ _; rfl
theorem dpush (f : Fields) : Statement (.dpush f) := by
  rintro x ⟨⟩ hl
  change (if f.fnMax 1 then some (.dpush f) else if f.fnIs 2 then some (.delse f) else some (.dpop f) : Option Instr) = _
  simp_all [Form.legal, Shape.legal, shapeDpush, Fields.fnMax]
theorem delse (f : Fields) : Statement (.delse f) := by
  rintro x ⟨⟩ hl
  change (if f.fnMax 1 then some (.dpush f) else if f.fnIs 2 then some (.delse f) else some (.dpop f) : Option Instr) = _
  simp_all [Form.legal, Shape.legal, shapeDelse, Fields.fnIs, Fields.fnMax]
theorem dpop (f : Fields) : Statement (.dpop f) := by
  rintro x ⟨⟩ hl
  change (if f.fnMax 1 then some (.dpush f) else if f.fnIs 2 then some (.delse f) else some (.dpop f) : Option Instr) = _
  simp_all [Form.legal, Shape.legal, shapeDpop, Fields.fnIs, Fields.fnMax]
theorem repack (f : Fields) : Statement (.repack f) := by rintro x ⟨⟩ _; rfl
theorem unpack (f : Fields) : Statement (.unpack f) := by rintro x ⟨⟩ _; rfl
theorem setfmt (f : Fields) : Statement (.setfmt f) := by rintro x ⟨⟩ _; rfl
theorem yield (f : Fields) : Statement (.yield f) := by rintro x ⟨⟩ _; rfl
theorem sleep (f : Fields) : Statement (.sleep f) := by rintro x ⟨⟩ _; rfl
theorem movs (f : Fields) : Statement (.movs f) := by
  rintro x ⟨⟩ hl
  change (if f.fnIs 0 then some (.movs f) else some (.movsw f) : Option Instr) = _
  simp_all [Form.legal, Shape.legal, shapeMovs, Fields.fnIs]
theorem movsw (f : Fields) : Statement (.movsw f) := by
  rintro x ⟨⟩ hl
  change (if f.fnIs 0 then some (.movs f) else some (.movsw f) : Option Instr) = _
  simp_all [Form.legal, Shape.legal, shapeMovsw, Fields.fnIs]
theorem leader (f : Fields) : Statement (.leader f) := by rintro x ⟨⟩ _; rfl
theorem mov (f : Fields) : Statement (.mov f) := by
  rintro x ⟨⟩ hl
  change (if f.w64 then some (.mov f) else some (.movi f) : Option Instr) = _
  simp_all [Form.legal, Shape.legal, shapeMov, shapeInt2]
theorem movi (f : Fields) : Statement (.movi f) := by
  rintro x ⟨⟩ hl
  change (if f.w64 then some (.mov f) else some (.movi f) : Option Instr) = _
  simp_all [Form.legal, Shape.legal, shapeMovi]
theorem sel (f : Fields) : Statement (.sel f) := by rintro x ⟨⟩ _; rfl
theorem iadd (f : Fields) : Statement (.iadd f) := by rintro x ⟨⟩ _; rfl
theorem iaddc (f : Fields) : Statement (.iaddc f) := by rintro x ⟨⟩ _; rfl
theorem isub (f : Fields) : Statement (.isub f) := by rintro x ⟨⟩ _; rfl
theorem isubb (f : Fields) : Statement (.isubb f) := by rintro x ⟨⟩ _; rfl
theorem imul (f : Fields) : Statement (.imul f) := by rintro x ⟨⟩ _; rfl
theorem imulh (f : Fields) : Statement (.imulh f) := by rintro x ⟨⟩ _; rfl
theorem imad (f : Fields) : Statement (.imad f) := by rintro x ⟨⟩ _; rfl
theorem imadw (f : Fields) : Statement (.imadw f) := by rintro x ⟨⟩ _; rfl
theorem iabs (f : Fields) : Statement (.iabs f) := by rintro x ⟨⟩ _; rfl
theorem ineg (f : Fields) : Statement (.ineg f) := by rintro x ⟨⟩ _; rfl
theorem imin (f : Fields) : Statement (.imin f) := by rintro x ⟨⟩ _; rfl
theorem imax (f : Fields) : Statement (.imax f) := by rintro x ⟨⟩ _; rfl
theorem icmp (f : Fields) : Statement (.icmp f) := by rintro x ⟨⟩ _; rfl
theorem lea (f : Fields) : Statement (.lea f) := by rintro x ⟨⟩ _; rfl
theorem and (f : Fields) : Statement (.and f) := by rintro x ⟨⟩ _; rfl
theorem or (f : Fields) : Statement (.or f) := by rintro x ⟨⟩ _; rfl
theorem xor (f : Fields) : Statement (.xor f) := by rintro x ⟨⟩ _; rfl
theorem not (f : Fields) : Statement (.not f) := by rintro x ⟨⟩ _; rfl
theorem btab (f : Fields) : Statement (.btab f) := by rintro x ⟨⟩ _; rfl
theorem shl (f : Fields) : Statement (.shl f) := by rintro x ⟨⟩ _; rfl
theorem shr (f : Fields) : Statement (.shr f) := by rintro x ⟨⟩ _; rfl
theorem sha (f : Fields) : Statement (.sha f) := by rintro x ⟨⟩ _; rfl
theorem rot (f : Fields) : Statement (.rot f) := by rintro x ⟨⟩ _; rfl
theorem bfx (f : Fields) : Statement (.bfx f) := by rintro x ⟨⟩ _; rfl
theorem bfi (f : Fields) : Statement (.bfi f) := by rintro x ⟨⟩ _; rfl
theorem popc (f : Fields) : Statement (.popc f) := by rintro x ⟨⟩ _; rfl
theorem clz (f : Fields) : Statement (.clz f) := by rintro x ⟨⟩ _; rfl
theorem brev (f : Fields) : Statement (.brev f) := by rintro x ⟨⟩ _; rfl
theorem bysel (f : Fields) : Statement (.bysel f) := by rintro x ⟨⟩ _; rfl
theorem dot4 (f : Fields) : Statement (.dot4 f) := by rintro x ⟨⟩ _; rfl
theorem fadd (f : Fields) : Statement (.fadd f) := by rintro x ⟨⟩ _; rfl
theorem fsub (f : Fields) : Statement (.fsub f) := by rintro x ⟨⟩ _; rfl
theorem fmul (f : Fields) : Statement (.fmul f) := by rintro x ⟨⟩ _; rfl
theorem ffma (f : Fields) : Statement (.ffma f) := by rintro x ⟨⟩ _; rfl
theorem fmin (f : Fields) : Statement (.fmin f) := by rintro x ⟨⟩ _; rfl
theorem fmax (f : Fields) : Statement (.fmax f) := by rintro x ⟨⟩ _; rfl
theorem fcmp (f : Fields) : Statement (.fcmp f) := by rintro x ⟨⟩ _; rfl
theorem fdiv (f : Fields) : Statement (.fdiv f) := by rintro x ⟨⟩ _; rfl
theorem fsqrt (f : Fields) : Statement (.fsqrt f) := by rintro x ⟨⟩ _; rfl
theorem frcp (f : Fields) : Statement (.frcp f) := by rintro x ⟨⟩ _; rfl
theorem frsq (f : Fields) : Statement (.frsq f) := by rintro x ⟨⟩ _; rfl
theorem fexp2 (f : Fields) : Statement (.fexp2 f) := by rintro x ⟨⟩ _; rfl
theorem flog2 (f : Fields) : Statement (.flog2 f) := by rintro x ⟨⟩ _; rfl
theorem frnd (f : Fields) : Statement (.frnd f) := by rintro x ⟨⟩ _; rfl
theorem fclass (f : Fields) : Statement (.fclass f) := by rintro x ⟨⟩ _; rfl
theorem pfma (f : Fields) : Statement (.pfma f) := by rintro x ⟨⟩ _; rfl
theorem f2f (f : Fields) : Statement (.f2f f) := by rintro x ⟨⟩ _; rfl
theorem f2i (f : Fields) : Statement (.f2i f) := by rintro x ⟨⟩ _; rfl
theorem i2f (f : Fields) : Statement (.i2f f) := by rintro x ⟨⟩ _; rfl
theorem qblk (f : Fields) : Statement (.qblk f) := by rintro x ⟨⟩ _; rfl
theorem dqblk (f : Fields) : Statement (.dqblk f) := by rintro x ⟨⟩ _; rfl
theorem lxch (f : Fields) : Statement (.lxch f) := by rintro x ⟨⟩ _; rfl
theorem qswz (f : Fields) : Statement (.qswz f) := by rintro x ⟨⟩ _; rfl
theorem qbcast (f : Fields) : Statement (.qbcast f) := by rintro x ⟨⟩ _; rfl
theorem qdiff (f : Fields) : Statement (.qdiff f) := by rintro x ⟨⟩ _; rfl
theorem pcoll (f : Fields) : Statement (.pcoll f) := by rintro x ⟨⟩ _; rfl
theorem redg (f : Fields) : Statement (.redg f) := by rintro x ⟨⟩ _; rfl
theorem scang (f : Fields) : Statement (.scang f) := by rintro x ⟨⟩ _; rfl
theorem bcastg (f : Fields) : Statement (.bcastg f) := by rintro x ⟨⟩ _; rfl
theorem matchg (f : Fields) : Statement (.matchg f) := by rintro x ⟨⟩ _; rfl
theorem plop (f : Fields) : Statement (.plop f) := by rintro x ⟨⟩ _; rfl
theorem pmov (f : Fields) : Statement (.pmov f) := by rintro x ⟨⟩ _; rfl
theorem qlop (f : Fields) : Statement (.qlop f) := by rintro x ⟨⟩ _; rfl
theorem ld (f : Fields) : Statement (.ld f) := by rintro x ⟨⟩ _; rfl
theorem st (f : Fields) : Statement (.st f) := by rintro x ⟨⟩ _; rfl
theorem lds (f : Fields) : Statement (.lds f) := by rintro x ⟨⟩ _; rfl
theorem sts (f : Fields) : Statement (.sts f) := by rintro x ⟨⟩ _; rfl
theorem ldc (f : Fields) : Statement (.ldc f) := by rintro x ⟨⟩ _; rfl
theorem ldb (f : Fields) : Statement (.ldb f) := by rintro x ⟨⟩ _; rfl
theorem stb (f : Fields) : Statement (.stb f) := by rintro x ⟨⟩ _; rfl
theorem spill (f : Fields) : Statement (.spill f) := by rintro x ⟨⟩ _; rfl
theorem fill (f : Fields) : Statement (.fill f) := by rintro x ⟨⟩ _; rfl
theorem pref (f : Fields) : Statement (.pref f) := by rintro x ⟨⟩ _; rfl
theorem cctlIc (f : Fields) : Statement (.cctlIc f) := by
  rintro x ⟨⟩ hl
  change (if f.fnIs 0 then some (.cctlIc f) else if f.fnIs 1 then some (.cctlView f) else some (.cctlWb f) : Option Instr) = _
  simp_all [Form.legal, Shape.legal, shapeCctlIc, Fields.fnIs]
theorem cctlView (f : Fields) : Statement (.cctlView f) := by
  rintro x ⟨⟩ hl
  change (if f.fnIs 0 then some (.cctlIc f) else if f.fnIs 1 then some (.cctlView f) else some (.cctlWb f) : Option Instr) = _
  simp_all [Form.legal, Shape.legal, shapeCctlView, Fields.fnIs]
theorem cctlWb (f : Fields) : Statement (.cctlWb f) := by
  rintro x ⟨⟩ hl
  change (if f.fnIs 0 then some (.cctlIc f) else if f.fnIs 1 then some (.cctlView f) else some (.cctlWb f) : Option Instr) = _
  simp_all [Form.legal, Shape.legal, shapeCctlWb, Fields.fnIs]
theorem atom (f : Fields) : Statement (.atom f) := by rintro x ⟨⟩ _; rfl
theorem atoms (f : Fields) : Statement (.atoms f) := by rintro x ⟨⟩ _; rfl
theorem fence (f : Fields) : Statement (.fence f) := by rintro x ⟨⟩ _; rfl
theorem fsc (f : Fields) : Statement (.fsc f) := by rintro x ⟨⟩ _; rfl
theorem cpyt (f : Fields) : Statement (.cpyt f) := by rintro x ⟨⟩ _; rfl
theorem cpyo (f : Fields) : Statement (.cpyo f) := by rintro x ⟨⟩ _; rfl
theorem cpyb (f : Fields) : Statement (.cpyb f) := by rintro x ⟨⟩ _; rfl
theorem binit (f : Fields) : Statement (.binit f) := by rintro x ⟨⟩ _; rfl
theorem barv (f : Fields) : Statement (.barv f) := by rintro x ⟨⟩ _; rfl
theorem bwait (f : Fields) : Statement (.bwait f) := by rintro x ⟨⟩ _; rfl
theorem barw (f : Fields) : Statement (.barw f) := by rintro x ⟨⟩ _; rfl
theorem bexp (f : Fields) : Statement (.bexp f) := by rintro x ⟨⟩ _; rfl
theorem btest (f : Fields) : Statement (.btest f) := by rintro x ⟨⟩ _; rfl
theorem sqcfg (f : Fields) : Statement (.sqcfg f) := by rintro x ⟨⟩ _; rfl
theorem sqwait (f : Fields) : Statement (.sqwait f) := by rintro x ⟨⟩ _; rfl
theorem sqrel (f : Fields) : Statement (.sqrel f) := by rintro x ⟨⟩ _; rfl
theorem jst (f : Fields) : Statement (.jst f) := by rintro x ⟨⟩ _; rfl
theorem mst (f : Fields) : Statement (.mst f) := by rintro x ⟨⟩ _; rfl
theorem tld (f : Fields) : Statement (.tld f) := by rintro x ⟨⟩ _; rfl
theorem tldt (f : Fields) : Statement (.tldt f) := by rintro x ⟨⟩ _; rfl
theorem lpeek (f : Fields) : Statement (.lpeek f) := by rintro x ⟨⟩ _; rfl
theorem ljoin (f : Fields) : Statement (.ljoin f) := by rintro x ⟨⟩ _; rfl
theorem lcmp (f : Fields) : Statement (.lcmp f) := by rintro x ⟨⟩ _; rfl
theorem lsync (f : Fields) : Statement (.lsync f) := by rintro x ⟨⟩ _; rfl
theorem freg (f : Fields) : Statement (.freg f) := by
  rintro x ⟨⟩ hl
  change (if f.fnIs 0 then some (.freg f) else some (.fregWait f) : Option Instr) = _
  simp_all [Form.legal, Shape.legal, shapeFreg, Fields.fnIs]
theorem fregWait (f : Fields) : Statement (.fregWait f) := by
  rintro x ⟨⟩ hl
  change (if f.fnIs 0 then some (.freg f) else some (.fregWait f) : Option Instr) = _
  simp_all [Form.legal, Shape.legal, shapeFregWait, Fields.fnIs]
theorem fres (f : Fields) : Statement (.fres f) := by rintro x ⟨⟩ _; rfl
theorem fpois (f : Fields) : Statement (.fpois f) := by rintro x ⟨⟩ _; rfl
theorem spawn (f : Fields) : Statement (.spawn f) := by rintro x ⟨⟩ _; rfl
theorem tsub (f : Fields) : Statement (.tsub f) := by rintro x ⟨⟩ _; rfl
theorem qpop (f : Fields) : Statement (.qpop f) := by rintro x ⟨⟩ _; rfl
theorem qpush (f : Fields) : Statement (.qpush f) := by rintro x ⟨⟩ _; rfl
theorem claim (f : Fields) : Statement (.claim f) := by rintro x ⟨⟩ _; rfl
theorem release (f : Fields) : Statement (.release f) := by rintro x ⟨⟩ _; rfl
theorem rgsur (f : Fields) : Statement (.rgsur f) := by rintro x ⟨⟩ _; rfl
theorem rgclm (f : Fields) : Statement (.rgclm f) := by rintro x ⟨⟩ _; rfl
theorem clqry (f : Fields) : Statement (.clqry f) := by rintro x ⟨⟩ _; rfl
theorem helperOn (f : Fields) : Statement (.helperOn f) := by
  rintro x ⟨⟩ hl
  change (if f.fnIs 0 then some (.helperOn f) else if f.fnIs 1 then some (.helperOff f) else some (.helperRd f) : Option Instr) = _
  simp_all [Form.legal, Shape.legal, shapeHelperOn, Fields.fnIs]
theorem helperOff (f : Fields) : Statement (.helperOff f) := by
  rintro x ⟨⟩ hl
  change (if f.fnIs 0 then some (.helperOn f) else if f.fnIs 1 then some (.helperOff f) else some (.helperRd f) : Option Instr) = _
  simp_all [Form.legal, Shape.legal, shapeHelperOff, Fields.fnIs]
theorem helperRd (f : Fields) : Statement (.helperRd f) := by
  rintro x ⟨⟩ hl
  change (if f.fnIs 0 then some (.helperOn f) else if f.fnIs 1 then some (.helperOff f) else some (.helperRd f) : Option Instr) = _
  simp_all [Form.legal, Shape.legal, shapeHelperRd, Fields.fnIs]
theorem mma (f : Fields) : Statement (.mma f) := by rintro x ⟨⟩ _; rfl
theorem mmas (f : Fields) : Statement (.mmas f) := by rintro x ⟨⟩ _; rfl
theorem mzero (f : Fields) : Statement (.mzero f) := by rintro x ⟨⟩ _; rfl
theorem mfill (f : Fields) : Statement (.mfill f) := by rintro x ⟨⟩ _; rfl
theorem mdrain (f : Fields) : Statement (.mdrain f) := by rintro x ⟨⟩ _; rfl
theorem mcpyOut (f : Fields) : Statement (.mcpyOut f) := by
  rintro x ⟨⟩ hl
  change (if f.fnIs 0 then some (.mcpyOut f) else some (.mcpyIn f) : Option Instr) = _
  simp_all [Form.legal, Shape.legal, shapeMcpy, Fields.fnIs]
theorem mcpyIn (f : Fields) : Statement (.mcpyIn f) := by
  rintro x ⟨⟩ hl
  change (if f.fnIs 0 then some (.mcpyOut f) else some (.mcpyIn f) : Option Instr) = _
  simp_all [Form.legal, Shape.legal, shapeMcpy, Fields.fnIs]
theorem mtld (f : Fields) : Statement (.mtld f) := by rintro x ⟨⟩ _; rfl
theorem mcfgFmt (f : Fields) : Statement (.mcfgFmt f) := by
  rintro x ⟨⟩ hl
  change (if f.fnIs 0 then some (.mcfgFmt f) else if f.fnIs 1 then some (.mcfgFmtm f) else some (.mcfgGrp f) : Option Instr) = _
  simp_all [Form.legal, Shape.legal, shapeMcfgFmt, Fields.fnIs]
theorem mcfgFmtm (f : Fields) : Statement (.mcfgFmtm f) := by
  rintro x ⟨⟩ hl
  change (if f.fnIs 0 then some (.mcfgFmt f) else if f.fnIs 1 then some (.mcfgFmtm f) else some (.mcfgGrp f) : Option Instr) = _
  simp_all [Form.legal, Shape.legal, shapeMcfgFmtm, Fields.fnIs]
theorem mcfgGrp (f : Fields) : Statement (.mcfgGrp f) := by
  rintro x ⟨⟩ hl
  change (if f.fnIs 0 then some (.mcfgFmt f) else if f.fnIs 1 then some (.mcfgFmtm f) else some (.mcfgGrp f) : Option Instr) = _
  simp_all [Form.legal, Shape.legal, shapeMcfgGrp, Fields.fnIs]
theorem msync (f : Fields) : Statement (.msync f) := by rintro x ⟨⟩ _; rfl
theorem mbarArv (f : Fields) : Statement (.mbarArv f) := by
  rintro x ⟨⟩ hl
  change (if f.fnIs 0 then some (.mbarArv f) else some (.mbarWait f) : Option Instr) = _
  simp_all [Form.legal, Shape.legal, shapeMbar, Fields.fnIs]
theorem mbarWait (f : Fields) : Statement (.mbarWait f) := by
  rintro x ⟨⟩ hl
  change (if f.fnIs 0 then some (.mbarArv f) else some (.mbarWait f) : Option Instr) = _
  simp_all [Form.legal, Shape.legal, shapeMbar, Fields.fnIs]
theorem mstat (f : Fields) : Statement (.mstat f) := by rintro x ⟨⟩ _; rfl
theorem seqMovi (f : Fields) : Statement (.seqMovi f) := by rintro x ⟨⟩ _; rfl
theorem seqIadd (f : Fields) : Statement (.seqIadd f) := by rintro x ⟨⟩ _; rfl
theorem seqIsub (f : Fields) : Statement (.seqIsub f) := by rintro x ⟨⟩ _; rfl
theorem seqIcmp (f : Fields) : Statement (.seqIcmp f) := by rintro x ⟨⟩ _; rfl
theorem seqBra (f : Fields) : Statement (.seqBra f) := by rintro x ⟨⟩ _; rfl
theorem seqLoop (f : Fields) : Statement (.seqLoop f) := by rintro x ⟨⟩ _; rfl
theorem seqExit (f : Fields) : Statement (.seqExit f) := by rintro x ⟨⟩ _; rfl
theorem trap (f : Fields) : Statement (.trap f) := by
  rintro x ⟨⟩ hl
  change (if f.fnIs 0 then some (.trap f) else if f.fnIs 1 then some (.trapHset f) else some (.trapFset f) : Option Instr) = _
  simp_all [Form.legal, Shape.legal, shapeTrap, Fields.fnIs]
theorem trapHset (f : Fields) : Statement (.trapHset f) := by
  rintro x ⟨⟩ hl
  change (if f.fnIs 0 then some (.trap f) else if f.fnIs 1 then some (.trapHset f) else some (.trapFset f) : Option Instr) = _
  simp_all [Form.legal, Shape.legal, shapeTrapSet, Fields.fnIs]
theorem trapFset (f : Fields) : Statement (.trapFset f) := by
  rintro x ⟨⟩ hl
  change (if f.fnIs 0 then some (.trap f) else if f.fnIs 1 then some (.trapHset f) else some (.trapFset f) : Option Instr) = _
  simp_all [Form.legal, Shape.legal, shapeTrapSet, Fields.fnIs]
theorem tret (f : Fields) : Statement (.tret f) := by
  rintro x ⟨⟩ hl
  change (if f.fnIs 0 then some (.tret f) else some (.tretWr f) : Option Instr) = _
  simp_all [Form.legal, Shape.legal, shapeTret, Fields.fnIs]
theorem tretWr (f : Fields) : Statement (.tretWr f) := by
  rintro x ⟨⟩ hl
  change (if f.fnIs 0 then some (.tret f) else some (.tretWr f) : Option Instr) = _
  simp_all [Form.legal, Shape.legal, shapeTretWr, Fields.fnIs]
theorem bkpt (f : Fields) : Statement (.bkpt f) := by
  rintro x ⟨⟩ hl
  change (if f.fnIs 0 then some (.bkpt f) else some (.bkptCrew f) : Option Instr) = _
  simp_all [Form.legal, Shape.legal, shapeBkpt, Fields.fnIs]
theorem bkptCrew (f : Fields) : Statement (.bkptCrew f) := by
  rintro x ⟨⟩ hl
  change (if f.fnIs 0 then some (.bkpt f) else some (.bkptCrew f) : Option Instr) = _
  simp_all [Form.legal, Shape.legal, shapeBkpt, Fields.fnIs]
theorem dump (f : Fields) : Statement (.dump f) := by rintro x ⟨⟩ _; rfl
theorem errinj (f : Fields) : Statement (.errinj f) := by rintro x ⟨⟩ _; rfl
theorem wpset (f : Fields) : Statement (.wpset f) := by rintro x ⟨⟩ _; rfl
theorem wpclr (f : Fields) : Statement (.wpclr f) := by rintro x ⟨⟩ _; rfl
theorem wprd (f : Fields) : Statement (.wprd f) := by rintro x ⟨⟩ _; rfl
theorem hrd (f : Fields) : Statement (.hrd f) := by rintro x ⟨⟩ _; rfl
theorem hwr (f : Fields) : Statement (.hwr f) := by rintro x ⟨⟩ _; rfl
theorem hstep (f : Fields) : Statement (.hstep f) := by
  rintro x ⟨⟩ hl
  change (if f.fnIs 0 then some (.hstep f) else some (.hstepLane f) : Option Instr) = _
  simp_all [Form.legal, Shape.legal, shapeHstep, Fields.fnIs]
theorem hstepLane (f : Fields) : Statement (.hstepLane f) := by
  rintro x ⟨⟩ hl
  change (if f.fnIs 0 then some (.hstep f) else some (.hstepLane f) : Option Instr) = _
  simp_all [Form.legal, Shape.legal, shapeHstepLane, Fields.fnIs]
theorem hres (f : Fields) : Statement (.hres f) := by
  rintro x ⟨⟩ hl
  change (if f.fnIs 0 then some (.hres f) else if f.fnIs 1 then some (.hresCrew f) else some (.hresSheaf f) : Option Instr) = _
  simp_all [Form.legal, Shape.legal, shapeHres, Fields.fnIs]
theorem hresCrew (f : Fields) : Statement (.hresCrew f) := by
  rintro x ⟨⟩ hl
  change (if f.fnIs 0 then some (.hres f) else if f.fnIs 1 then some (.hresCrew f) else some (.hresSheaf f) : Option Instr) = _
  simp_all [Form.legal, Shape.legal, shapeHres, Fields.fnIs]
theorem hresSheaf (f : Fields) : Statement (.hresSheaf f) := by
  rintro x ⟨⟩ hl
  change (if f.fnIs 0 then some (.hres f) else if f.fnIs 1 then some (.hresCrew f) else some (.hresSheaf f) : Option Instr) = _
  simp_all [Form.legal, Shape.legal, shapeHres, Fields.fnIs]
theorem snap (f : Fields) : Statement (.snap f) := by rintro x ⟨⟩ _; rfl
theorem probe (f : Fields) : Statement (.probe f) := by rintro x ⟨⟩ _; rfl
theorem trace (f : Fields) : Statement (.trace f) := by rintro x ⟨⟩ _; rfl
theorem heatrd (f : Fields) : Statement (.heatrd f) := by rintro x ⟨⟩ _; rfl

end Sys2Proof.Laws.Chosen
end

