-- ==== Sys2Proof/Laws/Regs.lean ====
section
/-! SUPPORT. What writes of registers do: the value written is read back, and every other register of
every thread is as before. -/

namespace Sys2Proof.Machine

/-! ### Many writes of one table -/

variable {α : Type} [DecidableEq α] {d : α}

@[simp] theorem tsetMany_nil (t : Tab α) : tsetMany d t [] = t := rfl
@[simp] theorem tsetMany_cons (t : Tab α) (e : Nat × α) (l : List (Nat × α)) :
    tsetMany d t (e :: l) = tsetMany d (tset d t e.1 e.2) l := rfl
theorem tsetMany_append (t : Tab α) (l m : List (Nat × α)) :
    tsetMany d t (l ++ m) = tsetMany d (tsetMany d t l) m := by simp [tsetMany]

theorem tget_tsetMany_ne (t : Tab α) {l : List (Nat × α)} {k : Nat} (h : ∀ e ∈ l, k ≠ e.1) :
    tget d (tsetMany d t l) k = tget d t k := by
  induction l generalizing t with
  | nil => rfl
  | cons e l ih => rw [tsetMany_cons, ih _ fun a ha => h a (by simp [ha]), tget_tset_ne _ _ _ (h e (by simp))]

theorem tget_tsetMany_mem (t : Tab α) {l : List (Nat × α)} (hn : (l.map Prod.fst).Nodup) {e : Nat × α} (he : e ∈ l) :
    tget d (tsetMany d t l) e.1 = e.2 := by
  induction l generalizing t with
  | nil => simp at he
  | cons c l ih =>
    simp only [List.map_cons, List.nodup_cons, List.mem_map, not_exists, not_and] at hn
    rw [tsetMany_cons]
    rcases List.mem_cons.mp he with rfl | he
    · rw [tget_tsetMany_ne _ fun a ha hk => hn.1 a ha hk.symm, tget_tset_self]
    · exact ih _ hn.2 he

/-! ### V registers -/

/-- The keys and values of the rows a write of V registers goes to. -/
def vwrites (r : Group) (ls : List Nat) (ws : Nat → List (Nat × W32)) : List (Nat × W32) :=
  ls.flatMap fun l => if r.home l = 0 then [] else (ws l).map fun w => (vkey (r.home l) w.1 l, w.2)

theorem State.writeV_eq (s : State) (r : Group) (ls : List Nat) (ws : Nat → List (Nat × W32)) :
    s.writeV r ls ws = { s with vreg := tsetMany 0 s.vreg (vwrites r ls ws) } := by
  have lane : ∀ (l : Nat) (w : List (Nat × W32)) (t : State), w.foldl (fun t w => t.setV r w.1 l w.2) t =
      { t with vreg := tsetMany 0 t.vreg (if r.home l = 0 then [] else w.map fun w => (vkey (r.home l) w.1 l, w.2)) } := by
    intro l w
    induction w with
    | nil => intro t; split <;> rfl
    | cons c w ih =>
      intro t
      rw [List.foldl_cons, ih]
      by_cases h : r.home l = 0 <;> simp [State.setV, h]
  unfold State.writeV vwrites
  induction ls generalizing s with
  | nil => rfl
  | cons l ls ih =>
    rw [List.foldl_cons, lane, ih]
    simp only [List.flatMap_cons, tsetMany_append]

theorem vkey_lane {u n l u' n' l' : Nat} (hl : l < 32) (hl' : l' < 32) (h : vkey u n l = vkey u' n' l') : l = l' := by
  simp only [vkey] at h; omega

/-- A write of V registers, as `VWritten` says it. -/
theorem State.writeV_written (s : State) (r : Group) {ls : List Nat} {ws : Nat → List (Nat × W32)} (hd : ls.Nodup)
    (hl : ∀ l ∈ ls, l < 32) (hw : ∀ l ∈ ls, ((ws l).map Prod.fst).Nodup) {t : State}
    (ht : t.vreg = (s.writeV r ls ws).vreg) : VWritten s t r ls ws := by
  rw [State.writeV_eq] at ht
  have nd : ((vwrites r ls ws).map Prod.fst).Nodup := by
    clear ht
    unfold vwrites
    induction ls with
    | nil => simp
    | cons l ls ih =>
      obtain ⟨h1, h2⟩ := List.nodup_cons.mp hd
      simp only [List.flatMap_cons, List.map_append]
      refine List.nodup_append.mpr ⟨?_, ih h2 (fun a ha => hl a (by simp [ha])) (fun a ha => hw a (by simp [ha])), ?_⟩
      · split
        · simp
        · have := hw l (by simp)
          rw [List.map_map]
          have e : (Prod.fst ∘ fun w : Nat × W32 => (vkey (r.home l) w.1 l, w.2)) =
              (fun n => vkey (r.home l) n l) ∘ Prod.fst := rfl
          rw [e, ← List.map_map]
          refine this.map_on ?_ |> fun h => h
          intro a _ b _ hab
          simp only [vkey] at hab; omega
      · rintro a ha b hb rfl
        simp only [List.mem_map, List.mem_flatMap] at ha hb
        obtain ⟨w, hw1, rfl⟩ := ha
        obtain ⟨w', ⟨l', hl', hw'⟩, he⟩ := hb
        split at hw1
        · simp at hw1
        · split at hw'
          · simp at hw'
          · obtain ⟨c, hc, rfl⟩ := List.mem_map.mp hw1
            obtain ⟨c', hc', rfl⟩ := List.mem_map.mp hw'
            exact h1 (vkey_lane (hl l' (by simp [hl'])) (hl l (by simp)) he ▸ hl')
  refine ⟨fun l hl hh w hw => ?_, fun k hk => ?_⟩
  · rw [ht]
    refine tget_tsetMany_mem _ nd (e := (vkey (r.home l) w.1 l, w.2)) ?_
    simp only [vwrites, List.mem_flatMap]
    exact ⟨l, hl, by rw [if_neg hh]; exact List.mem_map.mpr ⟨w, hw, rfl⟩⟩
  · rw [ht]
    refine tget_tsetMany_ne _ fun e he => ?_
    simp only [vwrites, List.mem_flatMap] at he
    obtain ⟨l, hl, he⟩ := he
    split at he
    · simp at he
    · obtain ⟨w, hw, rfl⟩ := List.mem_map.mp he
      exact hk l hl ‹_› w hw

/-- Writes of no V register. -/
theorem VWritten.none {s t : State} {r : Group} {ls : List Nat} (h : t.vreg = s.vreg) :
    VWritten s t r ls fun _ => [] := ⟨by simp, fun k _ => by rw [h]⟩

/-! ### P registers -/

theorem getLsbD_setBit {w : Nat} (m : BitVec w) (l k : Nat) (b : Bool) (hl : l < w) :
    (setBit m l b).getLsbD k = if k = l then b else m.getLsbD k := by
  have t : ∀ k, (BitVec.ofNat w (2 ^ l)).getLsbD k = decide (k = l) := by
    intro k
    simp only [BitVec.getLsbD_ofNat, Nat.testBit_two_pow]
    by_cases h : k = l
    · subst h; simp [hl]
    · have : ¬ l = k := fun e => h e.symm
      simp [h, this]
  unfold setBit
  generalize BitVec.ofNat w (2 ^ l) = q at t
  by_cases h : k = l
  · subst h; cases b <;> simp_all
  · cases b
    · by_cases hk : k < w
      · have := t k; simp_all
      · simp [BitVec.getLsbD_of_ge _ _ (Nat.le_of_not_lt hk), h]
    · simp [t, h]

theorem State.writeP_eq (s : State) (r : Group) (ls : List Nat) (n : Nat) (b : Nat → Bool) :
    s.writeP r ls n b = { s with preg := (s.writeP r ls n b).preg } := by
  unfold State.writeP
  induction ls generalizing s with
  | nil => rfl
  | cons l ls ih =>
    rw [List.foldl_cons, ih]
    unfold State.setP
    split <;> rfl

theorem pkey_inj {u n u' n' : Nat} (hn : n < 128) (hn' : n' < 128) (h : pkey u n = pkey u' n') : u = u' ∧ n = n' := by
  simp only [pkey] at h; omega

/-- P registers after a write depend on P registers alone. -/
theorem State.writeP_preg {s t : State} (h : s.preg = t.preg) (r : Group) (ls : List Nat) (n : Nat) (b : Nat → Bool) :
    (s.writeP r ls n b).preg = (t.writeP r ls n b).preg := by
  induction ls generalizing s t with
  | nil => exact h
  | cons l ls ih =>
    refine ih (s := s.setP r n l (b l)) (t := t.setP r n l (b l)) ?_
    unfold State.setP
    split
    · exact h
    · simp [h]

/-- A write of one P register, bit by bit. -/
theorem State.writeP_written (s : State) (r : Group) {ls : List Nat} {n : Nat} {b : Nat → Bool} (hd : ls.Nodup)
    (hl : ∀ l ∈ ls, l < 32) {t : State} (ht : t.preg = (s.writeP r ls n b).preg) :
    PWritten s t r ls fun l => [(n, b l)] := by
  have step : ∀ (u : State) (l k c : Nat), l < 32 → (tget 0 (u.setP r n l (b l)).preg k).getLsbD c =
      if r.home l ≠ 0 ∧ k = pkey (r.home l) n ∧ c = l then b l else (tget 0 u.preg k).getLsbD c := by
    intro u l k c h32
    unfold State.setP
    by_cases hh : r.home l = 0
    · simp [hh]
    · simp only [hh, if_false, tget_tset]
      by_cases hk : k = pkey (r.home l) n
      · subst hk; simp [getLsbD_setBit _ _ _ _ h32, hh]
      · simp [hk]
  have fr : ∀ (ls : List Nat) (u : State) (k c : Nat), (∀ l ∈ ls, l < 32) →
      (∀ l ∈ ls, r.home l ≠ 0 → ¬ (k = pkey (r.home l) n ∧ c = l)) →
      (tget 0 (u.writeP r ls n b).preg k).getLsbD c = (tget 0 u.preg k).getLsbD c := by
    intro ls
    induction ls with
    | nil => intros; rfl
    | cons l ls ih =>
      intro u k c h32 h
      have e : u.writeP r (l :: ls) n b = (u.setP r n l (b l)).writeP r ls n b := rfl
      rw [e, ih _ _ _ (fun a ha => h32 a (by simp [ha])) fun a ha => h a (by simp [ha]), step _ _ _ _ (h32 l (by simp))]
      rw [if_neg]
      rintro ⟨h1, h2⟩
      exact h l (by simp) h1 h2
  refine ⟨fun l hl' hh w hw => ?_, fun k c h => ?_⟩
  · simp only [List.mem_singleton] at hw
    subst hw
    rw [ht]
    clear ht
    induction ls generalizing s with
    | nil => simp at hl'
    | cons a ls ih =>
      obtain ⟨h1, h2⟩ := List.nodup_cons.mp hd
      have e : s.writeP r (a :: ls) n b = (s.setP r n a (b a)).writeP r ls n b := rfl
      rcases List.mem_cons.mp hl' with rfl | hm
      · rw [e, fr _ _ _ _ (fun a ha => hl a (by simp [ha])), step _ _ _ _ (hl l (by simp))]
        · simp [hh]
        · rintro c hc _ ⟨_, rfl⟩; exact h1 hc
      · rw [e]
        exact ih (s.setP r n a (b a)) h2 (fun a ha => hl a (by simp [ha])) hm
  · rw [ht]
    exact fr ls s k c hl fun l hl hh => h l hl hh (n, b l) (by simp)

theorem PWritten.none {s t : State} {r : Group} {ls : List Nat} (h : t.preg = s.preg) :
    PWritten s t r ls fun _ => [] := ⟨by simp, fun k _ _ => by rw [h]⟩

/-! ### G registers -/

theorem GWritten.one {s t : State} {r : Group} {n : Nat} {x : W64} (h : t.greg = (s.setG r n x).greg) :
    GWritten s t r [(n, x)] := by
  refine ⟨?_, fun k hk => ?_⟩
  · simp [h]
  · rw [h, State.setG_greg, tget_tset_ne _ _ _ (hk (n, x) (by simp))]

theorem GWritten.none {s t : State} {r : Group} (h : t.greg = s.greg) : GWritten s t r [] :=
  ⟨by simp, fun k _ => by rw [h]⟩

/-! ### Active lanes -/

theorem allLanes_nodup : allLanes.Nodup := List.nodup_range
theorem mem_allLanes {l : Nat} : l ∈ allLanes ↔ l < 32 := by simp [allLanes]
theorem State.activeLanes_nodup (s : State) (r : Group) (f : Fields) : (s.activeLanes r f).Nodup := allLanes_nodup.filter _
theorem State.activeLanes_lt {s : State} {r : Group} {f : Fields} {l : Nat} (h : l ∈ s.activeLanes r f) : l < 32 :=
  mem_allLanes.mp (List.mem_filter.mp h).1
@[simp] theorem State.activeLanes_countIssue (s : State) (g : Gid) (b : Bool) (r : Group) (f : Fields) :
    (s.countIssue g b).activeLanes r f = s.activeLanes r f := rfl

/-! ### Operands are read alike once the issue slot is counted -/

@[simp] theorem State.v_countIssue (s : State) (g : Gid) (b : Bool) (r : Group) (n l : Nat) :
    (s.countIssue g b).v r n l = s.v r n l := rfl
@[simp] theorem State.p_countIssue (s : State) (g : Gid) (b : Bool) (r : Group) (n l : Nat) :
    (s.countIssue g b).p r n l = s.p r n l := rfl
@[simp] theorem State.gr_countIssue (s : State) (g : Gid) (b : Bool) (r : Group) (n : Nat) :
    (s.countIssue g b).gr r n = s.gr r n := rfl
@[simp] theorem State.fpxOf_countIssue (s : State) (g : Gid) (b : Bool) (r : Group) (l : Nat) :
    (s.countIssue g b).fpxOf r l = s.fpxOf r l := rfl
@[simp] theorem State.guard_countIssue (s : State) (g : Gid) (b : Bool) (r : Group) (f : Fields) (l : Nat) :
    (s.countIssue g b).guard r f l = s.guard r f l := rfl
@[simp] theorem State.active_countIssue (s : State) (g : Gid) (b : Bool) (r : Group) (f : Fields) (l : Nat) :
    (s.countIssue g b).active r f l = s.active r f l := rfl
@[simp] theorem State.contrib_countIssue (s : State) (g : Gid) (b : Bool) (r : Group) (f : Fields) :
    (s.countIssue g b).contrib r f = s.contrib r f := rfl
@[simp] theorem State.src32_countIssue (s : State) (g : Gid) (b : Bool) (r : Group) (u k : Bool) (x : BitVec 8) (l : Nat) :
    (s.countIssue g b).src32 r u k x l = s.src32 r u k x l := rfl
@[simp] theorem State.src64_countIssue (s : State) (g : Gid) (b : Bool) (r : Group) (u k : Bool) (x : BitVec 8) (l : Nat) :
    (s.countIssue g b).src64 r u k x l = s.src64 r u k x l := rfl
@[simp] theorem State.srcW_countIssue (s : State) (g : Gid) (b : Bool) (r : Group) (w : Nat) (u k : Bool) (x : BitVec 8) (l : Nat) :
    (s.countIssue g b).srcW r w u k x l = s.srcW r w u k x l := rfl
@[simp] theorem State.opA_countIssue (s : State) (g : Gid) (b : Bool) (r : Group) (f : Fields) (l : Nat) :
    (s.countIssue g b).opA r f l = s.opA r f l := rfl
@[simp] theorem State.opB_countIssue (s : State) (g : Gid) (b : Bool) (r : Group) (f : Fields) (l : Nat) :
    (s.countIssue g b).opB r f l = s.opB r f l := rfl
@[simp] theorem State.opC_countIssue (s : State) (g : Gid) (b : Bool) (r : Group) (f : Fields) (l : Nat) :
    (s.countIssue g b).opC r f l = s.opC r f l := rfl
@[simp] theorem State.a32_countIssue (s : State) (g : Gid) (b : Bool) (r : Group) (f : Fields) (l : Nat) :
    (s.countIssue g b).a32 r f l = s.a32 r f l := rfl
@[simp] theorem State.b32_countIssue (s : State) (g : Gid) (b : Bool) (r : Group) (f : Fields) (l : Nat) :
    (s.countIssue g b).b32 r f l = s.b32 r f l := rfl
@[simp] theorem State.c32_countIssue (s : State) (g : Gid) (b : Bool) (r : Group) (f : Fields) (l : Nat) :
    (s.countIssue g b).c32 r f l = s.c32 r f l := rfl
@[simp] theorem State.c32Imm_countIssue (s : State) (g : Gid) (b : Bool) (r : Group) (f : Fields) (l : Nat) :
    (s.countIssue g b).c32Imm r f l = s.c32Imm r f l := rfl

/-! ### Completion with registers written -/

/-- An effect that completes with registers alone: the rest follows from what its registers hold. -/
theorem Completes.of_ok {i : Instr} {x : Form} {s : State} {g : Gid} {r : Group} (h : Issues i x s g r) {lvl : Nat}
    (hl : lvl ≤ s.levelOf g r) {k : State → Gid → Group → Res} (he : exec i s = issue lvl x.f x.shape s k)
    {s' : State} {e : Effect} {pre : Option (List WMatch)} {post : List WSrc}
    (hk : k (s.countIssue g (s.useful r x.f)) g r = .ok s' e.after pre post []) (hp : pre = none ∨ pre = some [])
    (rest : s' = { s.countIssue g (s.useful r x.f) with vreg := s'.vreg, preg := s'.preg, greg := s'.greg })
    (hv : VWritten s s' r e.ls e.v) (hpw : PWritten s s' r e.ls e.p) (hg : GWritten s s' r e.g) :
    Completes i x s g r e := by
  refine ⟨s'.putGroup g { e.after with wskip := false }, ?_, ?_, hv, hpw, hg⟩
  · rw [he]; exact issue_ok h hl hk hp (by rw [rest]; rfl)
  · conv => lhs; rw [rest]
    rfl

theorem Issues.form_eq {i : Instr} {x x' : Form} {s : State} {g : Gid} {r : Group} (h : Issues i x s g r)
    (e : i.form = some x') : x = x' := Option.some.inj (h.form.symm.trans e)

/-- An instruction that leaves every register as it is. -/
theorem Does.plain {i : Instr} {x : Form} {s : State} {r r' : Group} {lvl : Nat} {k : State → Gid → Group → Res}
    (hf : i.form = some x) (he : exec i s = issue lvl x.f x.shape s k) (hl : lvl ≤ needsLevel i)
    (hk : ∀ g b, k (s.countIssue g b) g r = .done (s.countIssue g b) r') : Does i s r { after := r' } := by
  intro x' g h
  obtain rfl := h.form_eq hf
  exact Completes.of_ok h (hl.trans h.level) he (hk g _) (.inl rfl) rfl (.none rfl) (.none rfl) (.none rfl)

/-- An instruction that writes V registers of the Active lanes. -/
theorem Does.writesV {i : Instr} {x : Form} {s : State} {r r' : Group} {lvl : Nat} {k : State → Gid → Group → Res}
    {ls : List Nat} {ws : Nat → List (Nat × W32)} (hf : i.form = some x)
    (he : exec i s = issue lvl x.f x.shape s k) (hl : lvl ≤ needsLevel i)
    (hk : ∀ g b, k (s.countIssue g b) g r = .done ((s.countIssue g b).writeV r ls ws) r') (hd : ls.Nodup)
    (hn : ∀ l ∈ ls, l < 32) (hw : x.legal = true → ∀ l ∈ ls, ((ws l).map Prod.fst).Nodup) :
    Does i s r { after := r', ls := ls, v := ws } := by
  intro x' g h
  obtain rfl := h.form_eq hf
  refine Completes.of_ok h (hl.trans h.level) he (hk g _) (.inl rfl) ?_
    (State.writeV_written s r hd hn (hw h.legal) (by rw [State.writeV_eq, State.writeV_eq]; rfl)) (.none ?_) (.none ?_)
  all_goals rw [State.writeV_eq] <;> rfl

/-- An instruction that writes one P register of the lanes listed. -/
theorem Does.writesP {i : Instr} {x : Form} {s : State} {r r' : Group} {lvl : Nat} {k : State → Gid → Group → Res}
    {ls : List Nat} {n : Nat} {bs : Nat → Bool} (hf : i.form = some x)
    (he : exec i s = issue lvl x.f x.shape s k) (hl : lvl ≤ needsLevel i)
    (hk : ∀ g b, k (s.countIssue g b) g r = .done ((s.countIssue g b).writeP r ls n bs) r') (hd : ls.Nodup)
    (hn : ∀ l ∈ ls, l < 32) : Does i s r { after := r', ls := ls, p := fun l => [(n, bs l)] } := by
  intro x' g h
  obtain rfl := h.form_eq hf
  refine Completes.of_ok h (hl.trans h.level) he (hk g _) (.inl rfl) ?_ (.none ?_)
    (State.writeP_written s r hd hn ?_) (.none ?_)
  · rw [State.writeP_eq]
  · rw [State.writeP_eq]; rfl
  · exact State.writeP_preg (s := s.countIssue g _) (t := s) rfl ..
  · rw [State.writeP_eq]; rfl

/-- An instruction that writes one G register. -/
theorem Does.writesG {i : Instr} {x : Form} {s : State} {r r' : Group} {lvl : Nat} {k : State → Gid → Group → Res}
    {n : Nat} {y : W64} (hf : i.form = some x)
    (he : exec i s = issue lvl x.f x.shape s k) (hl : lvl ≤ needsLevel i)
    (hk : ∀ g b, k (s.countIssue g b) g r = .done ((s.countIssue g b).setG r n y) r') :
    Does i s r { after := r', g := [(n, y)] } := by
  intro x' g h
  obtain rfl := h.form_eq hf
  exact Completes.of_ok h (hl.trans h.level) he (hk g _) (.inl rfl) rfl (.none rfl) (.none rfl) (.one rfl)

/-- A crew-fatal fault of an instruction's own. -/
theorem Faults.of {i : Instr} {x : Form} {s : State} {r : Group} {lvl code : Nat} {k : State → Gid → Group → Res}
    (hf : i.form = some x) (he : exec i s = issue lvl x.f x.shape s k) (hl : lvl ≤ needsLevel i)
    (hk : ∀ g b, k (s.countIssue g b) g r = .fatal { code := code }) : Faults i s r code := by
  intro x' g h
  obtain rfl := h.form_eq hf
  rw [he, issue_settle h (hl.trans h.level) k (by rw [hk]; exact Res.noConfusion), hk]
  rfl

/-- An instruction in which the group waits. -/
theorem WaitsIn.of {i : Instr} {x : Form} {s : State} {r r' : Group} {lvl : Nat} {k : State → Gid → Group → Res}
    (hf : i.form = some x) (he : exec i s = issue lvl x.f x.shape s k) (hl : lvl ≤ needsLevel i)
    (hk : ∀ g b, k (s.countIssue g b) g r = .hold (s.countIssue g b) r') : WaitsIn i s r r' := by
  intro x' g h
  obtain rfl := h.form_eq hf
  rw [he, issue_wait h (hl.trans h.level) (hk g _) (.inl rfl) rfl]
  rfl

/-- D written by `writeD`: what V and G registers hold, and the rest. -/
theorem State.writeD_group (s : State) (r : Group) {f : Fields} (hu : f.u = true) (w : Nat) (sg : Bool) (res : Nat → W64) :
    s.writeD r f w sg res = s.setG r f.d.toNat (fillG w sg (res 0)) := by simp [State.writeD, hu]
theorem State.writeD_lanes (s : State) (r : Group) {f : Fields} (hu : f.u = false) (w : Nat) (sg : Bool) (res : Nat → W64) :
    s.writeD r f w sg res = s.writeV r (s.activeLanes r f) fun l =>
      (f.d.toNat, (res l).setWidth 32) :: (if w = 32 then [] else [(f.d.toNat + 1, (res l).extractLsb' 32 32)]) := by
  have e : ∀ x : W64, (x >>> 32).setWidth 32 = x.extractLsb' 32 32 := by
    intro x; apply BitVec.eq_of_getLsbD_eq; intro i hi; simp [hi]
  simp only [State.writeD, hu, Bool.false_eq_true, if_false]
  congr 1
  funext l
  split <;> simp [pieces, halves, e, List.range_succ]

end Sys2Proof.Machine
end

