-- ==== Sys2Proof/Tests/Slice0.lean ====
section
/-! SUPPORT. Tests: words written out from the encoding (R39, R46, R48) decode to their instructions,
ill-formed terms are refused, single steps give the manual's results, and for each statement a state that
meets its hypotheses. -/

namespace Sys2Proof.Tests

open Sys2Proof Sys2Proof.Machine

-- One theorem after another: in parallel the kernel's evaluations need a stack each.
set_option Elab.async false

/-! ### Decoding

Each word is its base word with the immediate or extended word above it: LEN, U, OP, guard, D, A, B, C,
F.fn and the kind bits at the places R39 gives them, with the OP of the grid of R46. -/

def controlWords : List (Nat × Instr) := [
  (0x6808, .nop { guard := .on false 3 }),
  (0x13810, .exit { guard := .on true 9 }),
  (0x40002000000000781D, .bra { len := .w96, u := true, guard := .on true 3, fn := 0x2, imm := 0x40 }),
  (0x10000020007824, .brx { u := true, guard := .on true 3, a := 2, fn := 0x1 }),
  (0x10000000000000010782D, .call { len := .w96, u := true, guard := .on true 3, d := 1, imm := 0x10000 }),
  (0x10000002020782C, .callI { u := true, guard := .on true 3, d := 2, a := 2, fn := 0x10 }),
  (0x80007834, .ret { u := true, guard := .on true 3, a := 8 }),
  (0x60000000000000000000783D, .loop { len := .w96, u := true, guard := .on true 3, imm := 0x60000000 }),
  (0x180010000010000041, .dpush { len := .w96, a := 1, fn := 0x1, imm := 0x18 }),
  (0x20000000000044, .delse { u := true, fn := 0x2 }),
  (0x30000000000044, .dpop { u := true, fn := 0x3 }),
  (0x2000004020000048, .repack { a := 2, b := 4, ka := true }),
  (0x50000054, .unpack { u := true, a := 5 }),
  (0x1043000000000000005D, .setfmt { len := .w96, u := true, imm := 0x1043 }),
  (0x64, .yield { u := true }),
  (0x280000000000000006D, .sleep { len := .w96, u := true, imm := 0x280 }),
  (0x80107874, .movs { u := true, guard := .on true 3, d := 1, a := 8 }),
  (0x10000040A06870, .movsw { guard := .on false 3, d := 10, a := 4, fn := 0x1 }),
  (0x10000000007878, .leader { guard := .on true 3, fn := 0x1 })]

def integerWords : List (Nat × Instr) := [
  (0x2020000080806880, .mov { guard := .on false 3, d := 8, a := 8, ka := true, fn := 0x2 }),
  (0x12000000200030000000407886, .movi { len := .w128, u := true, guard := .on true 3, d := 4, fn := 0x3, imm := 0x1200000020 }),
  (0x601080C080206888, .sel { guard := .on false 3, d := 2, a := 8, b := 12, c := 8, ka := true, kb := true, fn := 0x1 }),
  (0x603000C0C0C07890, .iadd { guard := .on true 3, d := 12, a := 12, b := 12, ka := true, kb := true, fn := 0x3 }),
  (0x6020A040A0206898, .iaddc { guard := .on false 3, d := 2, a := 10, b := 4, c := 10, ka := true, kb := true, fn := 0x2 }),
  (0x60100040C0C078A0, .isub { guard := .on true 3, d := 12, a := 12, b := 4, ka := true, kb := true, fn := 0x1 }),
  (0x6020C020802068A8, .isubb { guard := .on false 3, d := 2, a := 8, b := 2, c := 12, ka := true, kb := true, fn := 0x2 }),
  (0x60200020402078B0, .imul { guard := .on true 3, d := 2, a := 4, b := 2, ka := true, kb := true, fn := 0x2 }),
  (0x602000C0402078B8, .imulh { guard := .on true 3, d := 2, a := 4, b := 12, ka := true, kb := true, fn := 0x2 }),
  (0xE020C0A020C068C0, .imad { guard := .on false 3, d := 12, a := 2, b := 10, c := 12, ka := true, kb := true, kc := true, fn := 0x2 }),
  (0x601080A0C08068C8, .imadw { guard := .on false 3, d := 8, a := 12, b := 10, c := 8, ka := true, kb := true, fn := 0x1 }),
  (0x20200000202078D0, .iabs { guard := .on true 3, d := 2, a := 2, ka := true, fn := 0x2 }),
  (0x2020000080C078D8, .ineg { guard := .on true 3, d := 12, a := 8, ka := true, fn := 0x2 }),
  (0x60200010C04068E0, .imin { guard := .on false 3, d := 4, a := 12, b := 1, ka := true, kb := true, fn := 0x2 }),
  (0x601000A0C0A078E8, .imax { guard := .on true 3, d := 10, a := 12, b := 10, ka := true, kb := true, fn := 0x1 }),
  (0x62000040808068F0, .icmp { guard := .on false 3, d := 8, a := 8, b := 4, ka := true, kb := true, fn := 0x20 }),
  (0x680000A080C068F8, .lea { guard := .on false 3, d := 12, a := 8, b := 10, ka := true, kb := true, fn := 0x80 }),
  (0x602000A0C0C07900, .and { guard := .on true 3, d := 12, a := 12, b := 10, ka := true, kb := true, fn := 0x2 }),
  (0x602000C0C0806908, .or { guard := .on false 3, d := 8, a := 12, b := 12, ka := true, kb := true, fn := 0x2 }),
  (0x603000C080207910, .xor { guard := .on true 3, d := 2, a := 8, b := 12, ka := true, kb := true, fn := 0x3 }),
  (0x2020000040C07918, .not { guard := .on true 3, d := 12, a := 4, ka := true, fn := 0x2 }),
  (0x6200C04040207920, .btab { guard := .on true 3, d := 2, a := 4, b := 4, c := 12, ka := true, kb := true, fn := 0x20 }),
  (0x60200040A0206928, .shl { guard := .on false 3, d := 2, a := 10, b := 4, ka := true, kb := true, fn := 0x2 }),
  (0x6010008040C07930, .shr { guard := .on true 3, d := 12, a := 4, b := 8, ka := true, kb := true, fn := 0x1 }),
  (0x601000C010106938, .sha { guard := .on false 3, d := 1, a := 1, b := 12, ka := true, kb := true, fn := 0x1 }),
  (0x601000A080107940, .rot { guard := .on true 3, d := 1, a := 8, b := 10, ka := true, kb := true, fn := 0x1 }),
  (0x601000A0C0807948, .bfx { guard := .on true 3, d := 8, a := 12, b := 10, ka := true, kb := true, fn := 0x1 }),
  (0x1603000C010A06951, .bfi { len := .w96, guard := .on false 3, d := 10, a := 1, b := 12, ka := true, kb := true, fn := 0x3, imm := 0x1 }),
  (0x2030000080C07958, .popc { guard := .on true 3, d := 12, a := 8, ka := true, fn := 0x3 }),
  (0x2020000040207960, .clz { guard := .on true 3, d := 2, a := 4, ka := true, fn := 0x2 }),
  (0x2030000010806968, .brev { guard := .on false 3, d := 8, a := 1, ka := true, fn := 0x3 }),
  (0xE0008020C0A07970, .bysel { guard := .on true 3, d := 10, a := 12, b := 2, c := 8, ka := true, kb := true, kc := true }),
  (0xE40080C040206978, .dot4 { guard := .on false 3, d := 2, a := 4, b := 12, c := 8, ka := true, kb := true, kc := true, fn := 0x40 })]

def floatWords : List (Nat × Instr) := [
  (0x60300010C0406980, .fadd { guard := .on false 3, d := 4, a := 12, b := 1, ka := true, kb := true, fn := 0x3 }),
  (0x60300040C0807988, .fsub { guard := .on true 3, d := 8, a := 12, b := 4, ka := true, kb := true, fn := 0x3 }),
  (0x603000C0A0206990, .fmul { guard := .on false 3, d := 2, a := 10, b := 12, ka := true, kb := true, fn := 0x3 }),
  (0xE010C01020807998, .ffma { guard := .on true 3, d := 8, a := 2, b := 1, c := 12, ka := true, kb := true, kc := true, fn := 0x1 }),
  (0x60000010801079A0, .fmin { guard := .on true 3, d := 1, a := 8, b := 1, ka := true, kb := true }),
  (0x600000A0804069A8, .fmax { guard := .on false 3, d := 4, a := 8, b := 10, ka := true, kb := true }),
  (0x6030001020A069B0, .fcmp { guard := .on false 3, d := 10, a := 2, b := 1, ka := true, kb := true, fn := 0x3 }),
  (0x60300020401069B8, .fdiv { guard := .on false 3, d := 1, a := 4, b := 2, ka := true, kb := true, fn := 0x3 }),
  (0x20300000802079C0, .fsqrt { guard := .on true 3, d := 2, a := 8, ka := true, fn := 0x3 }),
  (0x20200000102079C8, .frcp { guard := .on true 3, d := 2, a := 1, ka := true, fn := 0x2 }),
  (0x20300000C04079D0, .frsq { guard := .on true 3, d := 4, a := 12, ka := true, fn := 0x3 }),
  (0x2030000010C079D8, .fexp2 { guard := .on true 3, d := 12, a := 1, ka := true, fn := 0x3 }),
  (0x20200000C01079E0, .flog2 { guard := .on true 3, d := 1, a := 12, ka := true, fn := 0x2 }),
  (0x20200000202079E8, .frnd { guard := .on true 3, d := 2, a := 2, ka := true, fn := 0x2 }),
  (0x20000000401069F0, .fclass { guard := .on false 3, d := 1, a := 4, ka := true }),
  (0x60102010C01079F8, .pfma { guard := .on true 3, d := 1, a := 12, b := 1, c := 2, ka := true, kb := true, fn := 0x1 }),
  (0x20300000C0806A00, .f2f { guard := .on false 3, d := 8, a := 12, ka := true, fn := 0x3 }),
  (0x22000000C0407A08, .f2i { guard := .on true 3, d := 4, a := 12, ka := true, fn := 0x20 }),
  (0x2010000020A06A10, .i2f { guard := .on false 3, d := 10, a := 2, ka := true, fn := 0x1 }),
  (0x0000C00080106A18, .qblk { guard := .on false 3, d := 1, a := 8, c := 12 }),
  (0x0000400080407A20, .dqblk { guard := .on true 3, d := 4, a := 8, c := 4 })]

def crossLaneWords : List (Nat × Instr) := [
  (0x6020002080C07A80, .lxch { guard := .on true 3, d := 12, a := 8, b := 2, ka := true, kb := true, fn := 0x2 }),
  (0x202000000080207A89, .qswz { len := .w96, guard := .on true 3, d := 2, a := 8, ka := true, imm := 0x20 }),
  (0x12000000010006A91, .qbcast { len := .w96, guard := .on false 3, a := 1, ka := true, imm := 0x1 }),
  (0x2030000080107A98, .qdiff { guard := .on true 3, d := 1, a := 8, ka := true, fn := 0x3 }),
  (0x40000010206AA0, .pcoll { guard := .on false 3, d := 2, a := 1, fn := 0x4 }),
  (0x2010000040207AA8, .redg { guard := .on true 3, d := 2, a := 4, ka := true, fn := 0x1 }),
  (0x2140000040807AB0, .scang { guard := .on true 3, d := 8, a := 4, ka := true, fn := 0x14 }),
  (0x2010000080807AB8, .bcastg { guard := .on true 3, d := 8, a := 8, ka := true, fn := 0x1 }),
  (0x2020000020207AC0, .matchg { guard := .on true 3, d := 2, a := 2, ka := true, fn := 0x2 }),
  (0x14020C010207B00, .plop { guard := .on true 3, d := 2, a := 1, b := 12, c := 2, fn := 0x14 }),
  (0x2040000020A07B08, .pmov { guard := .on true 3, d := 10, a := 2, ka := true, fn := 0x4 }),
  (0x20C04020407B14, .qlop { u := true, guard := .on true 3, d := 4, a := 2, b := 4, c := 12, fn := 0x2 })]

def memoryWords : List (Nat × Instr) := [
  (0x4065400020C0206B81, .ld { len := .w96, guard := .on false 3, d := 2, a := 12, b := 2, ka := true, kb := true, fn := 0x54, imm := 0x40 }),
  (0x32106430101080007B89, .st { len := .w96, guard := .on true 3, a := 8, b := 1, c := 1, ka := true, kb := true, fn := 0x43, imm := 0x3210 }),
  (0x46540002040406B91, .lds { len := .w96, guard := .on false 3, d := 4, a := 4, b := 2, ka := true, kb := true, fn := 0x54, imm := 0x4 }),
  (0x60000000640010C0A0007B99, .sts { len := .w96, guard := .on true 3, a := 10, b := 12, c := 1, ka := true, kb := true, fn := 0x40, imm := 0x60000000 }),
  (0x206400008040407BA1, .ldc { len := .w96, guard := .on true 3, d := 4, a := 4, b := 8, ka := true, kb := true, fn := 0x40, imm := 0x20 }),
  (0x62000080A0106BA8, .ldb { guard := .on false 3, d := 1, a := 10, b := 8, ka := true, kb := true, fn := 0x20 }),
  (0x60401080C0007BB0, .stb { guard := .on true 3, a := 12, b := 8, c := 1, ka := true, kb := true, fn := 0x4 }),
  (0x80010100040007BBD, .spill { len := .w96, u := true, guard := .on true 3, a := 4, c := 1, fn := 0x1, imm := 0x8 }),
  (0x40010000080407BC5, .fill { len := .w96, u := true, guard := .on true 3, d := 4, a := 8, fn := 0x1, imm := 0x4 }),
  (0x1000064000010A0006BC9, .pref { len := .w96, guard := .on false 3, a := 10, b := 1, ka := true, kb := true, fn := 0x40, imm := 0x10000 }),
  (0x4010007BD4, .cctlIc { u := true, guard := .on true 3, a := 1, b := 4 }),
  (0x100000000003D4, .cctlView { u := true, fn := 0x1 }),
  (0x20008080007BD4, .cctlWb { u := true, guard := .on true 3, a := 8, b := 8, fn := 0x2 }),
  (0x100006800004020C07C01, .atom { len := .w96, guard := .on true 3, d := 12, a := 2, b := 4, ka := true, kb := true, fn := 0x80, imm := 0x10000 }),
  (0x1602000C020807C09, .atoms { len := .w96, guard := .on true 3, d := 8, a := 2, b := 12, ka := true, kb := true, fn := 0x2, imm := 0x1 }),
  (0xE0000000000414, .fence { u := true, fn := 0xE }),
  (0x41C, .fsc { u := true })]

def asyncWords : List (Nat × Instr) := [
  (0xE010C000A0006C8A, .cpyt { len := .w128, guard := .on false 3, a := 10, c := 12, ka := true, kb := true, kc := true, fn := 0x1 }),
  (0x46010008010007C82, .cpyo { len := .w128, guard := .on true 3, a := 1, b := 8, ka := true, kb := true, fn := 0x1, imm := 0x4 }),
  (0x46430804010A06C92, .cpyb { len := .w128, guard := .on false 3, d := 10, a := 1, b := 4, c := 8, ka := true, kb := true, fn := 0x43, imm := 0x4 }),
  (0x20001000003000049D, .binit { len := .w96, u := true, a := 3, fn := 0x1, imm := 0x20 }),
  (0x30002010407CA4, .barv { u := true, guard := .on true 3, d := 4, a := 1, b := 2, fn := 0x3 }),
  (0xA080007CAC, .bwait { u := true, guard := .on true 3, a := 8, b := 10 }),
  (0x10008040007CB4, .barw { u := true, guard := .on true 3, a := 4, b := 8, fn := 0x1 }),
  (0x100020A0007CBC, .bexp { u := true, guard := .on true 3, a := 10, b := 2, fn := 0x1 }),
  (0x10000010A07CC4, .btest { u := true, guard := .on true 3, d := 10, a := 1, fn := 0x1 }),
  (0x2003400000000200004CD, .sqcfg { len := .w96, u := true, a := 2, imm := 0x20034 }),
  (0x10000080007CD4, .sqwait { u := true, guard := .on true 3, a := 8, fn := 0x1 }),
  (0x10000020007CDC, .sqrel { u := true, guard := .on true 3, a := 2, fn := 0x1 })]

def latticeWords : List (Nat × Instr) := [
  (0x10000601000C020006D01, .jst { len := .w96, guard := .on false 3, a := 2, b := 12, ka := true, kb := true, fn := 0x1, imm := 0x10000 }),
  (0x32106050002080007D09, .mst { len := .w96, guard := .on true 3, a := 8, b := 2, ka := true, kb := true, fn := 0x5, imm := 0x3210 }),
  (0x4601000C080806D11, .tld { len := .w96, guard := .on false 3, d := 8, a := 8, b := 12, ka := true, kb := true, fn := 0x1, imm := 0x4 }),
  (0x100006040801010807D19, .tldt { len := .w96, guard := .on true 3, d := 8, a := 1, b := 1, c := 8, ka := true, kb := true, fn := 0x4, imm := 0x10000 }),
  (0x6000000020100000A0407D21, .lpeek { len := .w96, guard := .on true 3, d := 4, a := 10, ka := true, fn := 0x1, imm := 0x60000000 }),
  (0x60200010A0806D28, .ljoin { guard := .on false 3, d := 8, a := 10, b := 1, ka := true, kb := true, fn := 0x2 }),
  (0x61400010C0107D30, .lcmp { guard := .on true 3, d := 1, a := 12, b := 1, ka := true, kb := true, fn := 0x14 }),
  (0x53C, .lsync { u := true }),
  (0x60000040C0007D40, .freg { guard := .on true 3, a := 12, b := 4, ka := true, kb := true }),
  (0x2010C000C0806D40, .fregWait { guard := .on false 3, d := 8, a := 12, c := 12, ka := true, fn := 0x1 }),
  (0x6000002080007D48, .fres { guard := .on true 3, a := 8, b := 2, ka := true, kb := true }),
  (0x600000A040007D50, .fpois { guard := .on true 3, a := 4, b := 10, ka := true, kb := true })]

def taskWords : List (Nat × Instr) := [
  (0x1000000500000A0007D85, .spawn { len := .w96, u := true, guard := .on true 3, a := 10, fn := 0x5, imm := 0x10000 }),
  (0x10A07D8C, .tsub { u := true, guard := .on true 3, d := 10, a := 1 }),
  (0x10200000807D94, .qpop { u := true, guard := .on true 3, d := 8, c := 2, fn := 0x1 }),
  (0x8040807D9C, .qpush { u := true, guard := .on true 3, d := 8, a := 4, b := 8 }),
  (0x100000100005A4, .claim { u := true, a := 1, fn := 0x1 }),
  (0x100000200005AC, .release { u := true, a := 2, fn := 0x1 }),
  (0x100000000000005B5, .rgsur { len := .w96, u := true, imm := 0x1 }),
  (0x200000000000005BD, .rgclm { len := .w96, u := true, imm := 0x2 }),
  (0x30000000A07DC4, .clqry { u := true, guard := .on true 3, d := 10, fn := 0x3 }),
  (0x5CC, .helperOn { u := true }),
  (0x10000000007DCC, .helperOff { u := true, guard := .on true 3, fn := 0x1 }),
  (0x20000000807DC8, .helperRd { guard := .on true 3, d := 8, fn := 0x2 })]

def systemWords : List (Nat × Instr) := [
  (0x12340000000000000681, .trap { len := .w96, imm := 0x1234 }),
  (0x100080A0007E84, .trapHset { u := true, guard := .on true 3, a := 10, b := 8, fn := 0x1 }),
  (0x20004010007E84, .trapFset { u := true, guard := .on true 3, a := 1, b := 4, fn := 0x2 }),
  (0x688, .tret {}),
  (0x2010000040C07E88, .tretWr { guard := .on true 3, d := 12, a := 4, ka := true, fn := 0x1 }),
  (0x630000000000000695, .bkpt { len := .w96, u := true, imm := 0x63 }),
  (0x10010000000007E95, .bkptCrew { len := .w96, u := true, guard := .on true 3, fn := 0x1, imm := 0x1 }),
  (0x1010C07E9C, .dump { u := true, guard := .on true 3, d := 12, a := 1, b := 1 }),
  (0x8080A07EA4, .errinj { u := true, guard := .on true 3, d := 10, a := 8, b := 8 }),
  (0x8000040C0C0807EAE, .wpset { len := .w128, u := true, guard := .on true 3, d := 8, a := 12, b := 12, c := 4, imm := 0x8 }),
  (0x40000000000007EB6, .wpclr { len := .w128, u := true, guard := .on true 3, imm := 0x4 }),
  (0x40000000000A07EBE, .wprd { len := .w128, u := true, guard := .on true 3, d := 10, imm := 0x4 }),
  (0x40000A000A0807EC5, .hrd { len := .w96, u := true, guard := .on true 3, d := 8, a := 10, c := 10, imm := 0x4 }),
  (0x600000000000001010A07ECD, .hwr { len := .w96, u := true, guard := .on true 3, d := 10, a := 1, b := 1, imm := 0x60000000 }),
  (0x40C07ED5, .hstep { len := .w96, u := true, guard := .on true 3, d := 12, a := 4 }),
  (0x80500100000403006D5, .hstepLane { len := .w96, u := true, d := 3, a := 4, fn := 0x1, imm := 0x805 }),
  (0xC0407EDC, .hres { u := true, guard := .on true 3, d := 4, a := 12 }),
  (0x10000010207EDC, .hresCrew { u := true, guard := .on true 3, d := 2, a := 1, fn := 0x1 }),
  (0x20000010107EDC, .hresSheaf { u := true, guard := .on true 3, d := 1, a := 1, fn := 0x2 }),
  (0x6E4, .snap { u := true }),
  (0x1200200000009006ED, .probe { len := .w96, u := true, d := 9, fn := 0x2, imm := 0x12 }),
  (0x4000000000A0007EF5, .trace { len := .w96, u := true, guard := .on true 3, a := 10, imm := 0x40 }),
  (0x10000080207EFC, .heatrd { u := true, guard := .on true 3, d := 2, a := 8, fn := 0x1 })]

def matrixWords : List (Nat × Instr) := [
  (0x1001000C040800606, .mma { len := .w128, u := true, d := 8, a := 4, b := 12, fn := 0x1, imm := 0x1 }),
  (0x2000108080C010060E, .mmas { len := .w128, u := true, d := 1, a := 12, b := 8, c := 8, fn := 0x1, imm := 0x20 }),
  (0xF00100000000000000616, .mzero { len := .w128, u := true, imm := 0xF0010 }),
  (0x2000000000C000061E, .mfill { len := .w128, u := true, a := 12, imm := 0x20 }),
  (0x8001000A040000626, .mdrain { len := .w128, u := true, a := 4, b := 10, fn := 0x1, imm := 0x8 }),
  (0x1000000C0C000062E, .mcpyOut { len := .w128, u := true, a := 12, b := 12, imm := 0x1 }),
  (0xF0010001000403000062E, .mcpyIn { len := .w128, u := true, a := 3, b := 4, fn := 0x1, imm := 0xF0010 }),
  (0xC0C00636, .mtld { len := .w128, u := true, d := 12, a := 12 }),
  (0x801000000000000063E, .mcfgFmt { len := .w128, u := true, imm := 0x801 }),
  (0x1000004000063E, .mcfgFmtm { len := .w128, u := true, a := 4, fn := 0x1 }),
  (0x3120002000000000063E, .mcfgGrp { len := .w128, u := true, fn := 0x2, imm := 0x3120 }),
  (0x646, .msync { len := .w128, u := true }),
  (0x1000064E, .mbarArv { len := .w128, u := true, a := 1 }),
  (0x1001000007000064E, .mbarWait { len := .w128, u := true, a := 7, fn := 0x1, imm := 0x1 }),
  (0x10000000600656, .mstat { len := .w128, u := true, d := 6, fn := 0x1 }),
  (0x4D0030000000500085, .seqMovi { len := .w96, u := true, d := 5, fn := 0x3, imm := 0x4D }),
  (0x3000C040800094, .seqIadd { u := true, d := 8, a := 4, b := 12, fn := 0x3 }),
  (0x2000A0C08000A4, .seqIsub { u := true, d := 8, a := 12, b := 10, fn := 0x2 }),
  (0x10000A0200000F4, .seqIcmp { u := true, a := 2, b := 10, fn := 0x10 }),
  (0x40003000000000001D, .seqBra { len := .w96, u := true, fn := 0x3, imm := 0x40 }),
  (0xFFFFFFF0000000000020003D, .seqLoop { len := .w96, u := true, d := 2, imm := 0xFFFFFFF0 }),
  (0x14, .seqExit { u := true })]


/-- Every word of a list decodes to its instruction, and the instruction encodes to the word's bytes. -/
def wordsDecode (matrix : Bool) (l : List (Nat × Instr)) : Bool :=
  l.all fun x => (match decodeWord matrix x.1 with | .ok i => decide (i = x.2) | .error _ => false) &&
    (match x.2.form with | some y => y.word == x.1 && y.matrix == matrix | none => false)

theorem test_decode_control : wordsDecode false controlWords = true := by decide +kernel
theorem test_decode_integer : wordsDecode false integerWords = true := by decide +kernel
theorem test_decode_float : wordsDecode false floatWords = true := by decide +kernel
theorem test_decode_crossLane : wordsDecode false crossLaneWords = true := by decide +kernel
theorem test_decode_memory : wordsDecode false memoryWords = true := by decide +kernel
theorem test_decode_async : wordsDecode false asyncWords = true := by decide +kernel
theorem test_decode_lattice : wordsDecode false latticeWords = true := by decide +kernel
theorem test_decode_task : wordsDecode false taskWords = true := by decide +kernel
theorem test_decode_system : wordsDecode false systemWords = true := by decide +kernel
theorem test_decode_matrix : wordsDecode true matrixWords = true := by decide +kernel

/-- The worked words of sections 4, 6, 8 and 9, as numbers. -/
def workedWords : List (Nat × Instr) := [
  (0x0010302010A00198, .ffma { d := 10, a := 1, b := 2, c := 3, fn := 1 }),
  (0x2430002050000500, .jst { a := 5, b := 2, ka := true, fn := 0x43 }),
  (0x400000203070B890, .iadd { guard := .on true 5, d := 7, a := 3, b := 2, kb := true }),
  (0x2040000030500380, .ld { d := 5, a := 3, ka := true, fn := 4 }),
  (0x00000010 * 2 ^ 64 + 0x2540003020500381, .ld { len := .w96, d := 5, a := 2, b := 3, ka := true, fn := 0x54, imm := 0x10 }),
  (0x0000001200000020 * 2 ^ 64 + 0x6000004060000482, .cpyo { len := .w128, a := 6, b := 4, ka := true, kb := true, imm := 0x1200000020 })]
theorem test_decode_worked : wordsDecode false workedWords = true := by decide +kernel

/-! ### Ill-formed terms: one for each check of R40 to R45 -/

/-- A V register where D is a pair that would pass the file's end. -/
theorem test_illformed_pair : (Instr.iadd { d := 255, a := 1, b := 2, fn := 0x100 }).wf = false := by decide +kernel
theorem test_illformed_kind : (Instr.repack { a := 1, b := 3, kb := true }).wf = false := by decide +kernel
theorem test_illformed_unused : (Instr.popc { d := 1, a := 2, c := 5 }).wf = false := by decide +kernel
theorem test_illformed_fn : (Instr.nop { fn := 1 }).wf = false := by decide +kernel
theorem test_illformed_length : (Instr.exit { len := .w96 }).wf = false := by decide +kernel
theorem test_illformed_form : (Instr.exit { u := true, guard := .on false 16 }).wf = false := by decide +kernel
theorem test_illformed_imm : (Instr.iadd { d := 1, a := 2, b := 3, imm := 1 }).wf = false := by decide +kernel
theorem test_illformed_imm96 : (Instr.iadd { len := .w96, d := 1, a := 2, imm := 0x100000000 }).wf = false := by decide +kernel
theorem test_illformed_stream : (Instr.mzero { len := .w128 }).wf = false := by decide +kernel
theorem test_illformed_g : (Instr.brx { u := true, a := 64 }).wf = false := by decide +kernel
theorem test_illformed_q : (Instr.tsub { u := true, d := 16, a := 2 }).wf = false := by decide +kernel
theorem test_illformed_barrier : (Instr.bwait { u := true, a := 16 }).wf = false := by decide +kernel
theorem test_illformed_p : (Instr.plop { d := 128, a := 1, b := 2, c := 3, fn := 1 }).wf = false := by decide +kernel
theorem test_illformed_m : (Instr.seqMovi { len := .w96, u := true, d := 16 }).wf = false := by decide +kernel
theorem test_illformed_selector : (Instr.movs { d := 1, a := 11 }).wf = false := by decide +kernel
theorem test_illformed_target : (Instr.bra { len := .w96, u := true, imm := 2 }).wf = false := by decide +kernel


/-! ### States that meet the hypotheses of the statements

`ts` has one crew on core 0 with one group of 8 granules, about to issue; its virtual pages 0 (code), 1 and 2
(data) are mapped, and scratch, channels and a stream are held. Each theorem `witness_<statement>` shows a state
and operands that meet the hypotheses of a clause together. -/

def tg : Gid := { core := 0, slot := 0 }
def tr : Group := { crew := 0, uid := 2, gran := 8 }
def tc : Crew := { uid := 1, asid := 1, priv := 2, max := { rg := 64, sg := 8, ch := 4, ms := 2 },
                   hold := { sg := 2, ch := 2, ms := 1 }, free := 4, sqsBase := 8, sqsDepth := 2 }

/-- Pages 1 and 2 of address space 1 map, readable and writable, to 0x6000 and 0x7000; partition 0 is the whole. -/
def mapped : State :=
  ((State.reset.placeCode []).storeWord 0x4008 8 0x6007).storeWord 0x4010 8 0x7007

/-- The state with a crew and a group, which acts. -/
def withGroup (c : Crew) (r : Group) : State :=
  ({ mapped with actor := .grp tg, nextId := 10 }.putCrew 0 0 c).putGroup tg r
def ts : State := withGroup tc tr
/-- A group register set. -/
def withG (s : State) (n : Nat) (x : W64) : State := { s with greg := tput s.greg (gkey 2 n) x }

/-- The conditions of `Issues`, computed. -/
def issuesB (i : Instr) (s : State) (g : Gid) (r : Group) : Bool :=
  match i.form with
  | none => false
  | some x => x.legal && decide (s.actor = .grp g) && decide (s.group? g = some r) &&
      decide (needsLevel i ≤ s.levelOf g r) && decide (x.shape.extent x.f ≤ 32 * r.gran) &&
      (!x.f.u || s.guard r x.f 0) && !s.writesHeld r (x.shape.writes x.f) &&
      !r.owes x.f x.shape && decide (r.wait = .none) &&
      (s.core g.core).watch.all fun w => !bitOf w.ctl 63

theorem issues_of_check {i : Instr} {s : State} {g : Gid} {r : Group} (h : issuesB i s g r = true) :
    ∃ x, Issues i x s g r := by
  unfold issuesB at h
  split at h
  · cases h
  · rename_i x hx
    simp only [Bool.and_eq_true, decide_eq_true_eq, List.all_eq_true, Bool.not_eq_true', Bool.or_eq_true] at h
    obtain ⟨⟨⟨⟨⟨⟨⟨⟨⟨h1, h2⟩, h3⟩, h4⟩, h5⟩, h6⟩, h7⟩, h8⟩, h9⟩, h10⟩ := h
    exact ⟨x, hx, h1, h2, h3, h4, h5, fun hu => h6.resolve_left (by simp [hu]), h7, h8, h9, h10⟩

/-- The conditions of `Continues`, computed. -/
def continuesB (i : Instr) (s : State) (g : Gid) (r : Group) : Bool :=
  match i.form with
  | none => false
  | some x => x.legal && decide (s.actor = .grp g) && decide (s.group? g = some r) &&
      decide (needsLevel i ≤ s.levelOf g r) && decide (x.shape.extent x.f ≤ 32 * r.gran) &&
      (!x.f.u || s.guard r x.f 0) && !s.writesHeld r (x.shape.writes x.f) &&
      !r.owes x.f x.shape && decide (r.wait ≠ .none) &&
      (s.core g.core).watch.all fun w => !bitOf w.ctl 63
theorem continues_of_check {i : Instr} {s : State} {g : Gid} {r : Group} (h : continuesB i s g r = true) :
    ∃ x, Continues i x s g r := by
  unfold continuesB at h
  split at h
  · cases h
  · rename_i x hx
    simp only [Bool.and_eq_true, decide_eq_true_eq, List.all_eq_true, Bool.not_eq_true', Bool.or_eq_true] at h
    obtain ⟨⟨⟨⟨⟨⟨⟨⟨⟨h1, h2⟩, h3⟩, h4⟩, h5⟩, h6⟩, h7⟩, h8⟩, h9⟩, h10⟩ := h
    exact ⟨x, hx, h1, h2, h3, h4, h5, fun hu => h6.resolve_left (by simp [hu]), h7, h8, h9, h10⟩

/-- Every instruction of a list issues in a state. -/
def allIssue (l : List (Nat × Instr)) (s : State) (r : Group) : Bool := l.all fun x => issuesB x.2 s tg r

theorem issues_of_all {l : List (Nat × Instr)} {s : State} {r : Group} (h : allIssue l s r = true) :
    ∀ e ∈ l, ∃ x, Issues e.2 x s tg r := fun e he => issues_of_check (List.all_eq_true.mp h e he)

theorem witness_control : ∀ e ∈ controlWords, ∃ x, Issues e.2 x ts tg tr := issues_of_all (by decide +kernel)
theorem witness_IntegerInstructions : ∀ e ∈ integerWords, ∃ x, Issues e.2 x ts tg tr := issues_of_all (by decide +kernel)
theorem witness_float : ∀ e ∈ floatWords, ∃ x, Issues e.2 x ts tg tr := issues_of_all (by decide +kernel)
theorem witness_CrossLaneInstructions : ∀ e ∈ crossLaneWords, ∃ x, Issues e.2 x ts tg tr := issues_of_all (by decide +kernel)
theorem witness_memory : ∀ e ∈ memoryWords, ∃ x, Issues e.2 x ts tg tr := issues_of_all (by decide +kernel)
theorem witness_async : ∀ e ∈ asyncWords, ∃ x, Issues e.2 x ts tg tr := issues_of_all (by decide +kernel)
theorem witness_lattice : ∀ e ∈ latticeWords, ∃ x, Issues e.2 x ts tg tr := issues_of_all (by decide +kernel)
theorem witness_task : ∀ e ∈ taskWords, ∃ x, Issues e.2 x ts tg tr := issues_of_all (by decide +kernel)
theorem witness_system : ∀ e ∈ systemWords, ∃ x, Issues e.2 x ts tg tr := issues_of_all (by decide +kernel)

/-- `i` issues in the group `r` of the crew `c`. -/
def ready (c : Crew) (r : Group) (i : Instr) : Bool := issuesB i (withGroup c r) tg r
/-- The conditions of `WaitsAt`, computed. -/
def waitsB (s : State) (g : Gid) (r : Group) : Bool :=
  decide (s.group? g = some r) && decide (r.halt.cause ≠ 7) && !s.writesHeld r (r.insSh.writes r.ins) &&
    (s.core g.core).watch.all fun w => !bitOf w.ctl 63
theorem waitsAt_of_check {s : State} {g : Gid} {r : Group} (h : waitsB s g r = true) : WaitsAt s g r := by
  simp only [waitsB, Bool.and_eq_true, decide_eq_true_eq, List.all_eq_true, Bool.not_eq_true'] at h
  exact ⟨h.1.1.1, h.1.1.2, h.1.2, h.2⟩
def waits (w : Wait) : Bool := waitsB (withGroup tc { tr with wait := w }) tg { tr with wait := w }

theorem witness_BranchesCallsLoops : ∀ i ∈ [Instr.nop {}, .bra { len := .w96, u := true, imm := 8 }, .brx { u := true, a := 2 },
    .call { len := .w96, u := true, d := 1 }, .callI { u := true, d := 2, a := 2, fn := 0x10 }, .ret { u := true, a := 8 },
    .loop { len := .w96, u := true, d := 3 }], ready tc tr i = true := by decide +kernel

def oneDeep (e : SEntry) : Group := { tr with depth := 1, stack := e :: List.replicate 15 {} }
theorem witness_DivergenceStack :
    ready tc tr (.dpush { len := .w96, a := 1 }) = true ∧ tr.depth ≠ 16 ∧
    ready tc { tr with depth := 16 } (.dpush { len := .w96, a := 1 }) = true ∧
    ready tc (oneDeep {}) (.delse { u := true, fn := 2 }) = true ∧ ready tc (oneDeep {}) (.dpop { u := true, fn := 3 }) = true ∧
    ready tc (oneDeep { isSealed := true }) (.delse { u := true, fn := 2 }) = true ∧
    ready tc (oneDeep { elseDone := true }) (.delse { u := true, fn := 2 }) = true ∧
    ready tc tr (.dpop { u := true, fn := 3 }) = true ∧ ready tc (oneDeep { isSealed := true }) (.dpop { u := true, fn := 3 }) = true := by
  decide +kernel

theorem witness_FormatsPacingSpecials :
    ready tc tr (.setfmt { len := .w96, u := true, imm := 0x0042 }) = true ∧
    (ready tc tr (.setfmt { u := true, a := 2, fn := 1 }) = true ∧ fmtReserved ((ts.gr tr 2).setWidth 16) = false) ∧
    (issuesB (.setfmt { u := true, a := 2, fn := 1 }) (withG ts 2 0xA) tg tr = true ∧
      fmtReserved (((withG ts 2 0xA).gr tr 2).setWidth 16) = true) ∧
    ready tc tr (.movs { u := true, d := 1, a := 8 }) = true ∧ ready tc tr (.movs { d := 2, a := 8 }) = true ∧
    ready tc tr (.movs { d := 2, a := 0 }) = true ∧ ready tc tr (.movsw { d := 10, a := 4, fn := 1 }) = true ∧
    ready tc tr (.yield { u := true }) = true ∧ ready tc tr (.sleep { len := .w96, u := true, imm := 640 }) = true ∧
    waits .yield = true ∧ waits .sleep = true := by decide +kernel

theorem witness_FloatInstructions :
    tr.inHandler = false ∧ ∀ e ∈ floatWords, ∃ x, Issues e.2 x ts tg tr := ⟨rfl, witness_float⟩

theorem witness_ConversionInstructions :
    blkFmtOk 0x0144 = true ∧ ready tc { tr with fmt := 0x0144 } (.qblk { d := 4, a := 2, c := 6 }) = true ∧
    ready tc { tr with fmt := 0x0144 } (.qblk { d := 4, a := 2, c := 4 }) = true ∧
    ready tc { tr with fmt := 0x0144 } (.dqblk { d := 4, a := 2, c := 6 }) = true ∧
    blkFmtOk 0 = false ∧ ready tc tr (.dqblk { d := 4, a := 2, c := 6 }) = true ∧ ready tc tr (.qblk { d := 4, a := 2, c := 6 }) = true := by
  decide +kernel

theorem witness_RoundingKeepsRepresentable : ∀ t ∈ [fmtF32, fmtBF16, fmtH16, fmtE5M2, fmtE4M3, fmtE2M1],
    1 < 2 ^ t.bits ∧ t.isNan 1 = false ∧ t.isInf 1 = false := by decide +kernel

/-- A lane's access of `n` bytes is clear: no fault, no lock, on this device, within one line. -/
def clearB (s : State) (r : Group) (n : Nat) (c : LChk) (a : W64) : Bool :=
  c.fault?.isNone && !s.lockedAt tg r n c a && !s.loadBlocked r n c && !s.storeBlocked n c &&
    match c with | .ok pa => !isPeer pa && decide (pa % 64 + n ≤ 64) | _ => true
def untracedB (s : State) (r : Group) : Bool := !bitOf (s.trctl (s.asidOf tg r)) 63

/-- G2 = 0x1010, in the page that maps to 0x6000. -/
def tm : State := withG ts 2 0x1010
def ldF : Fields := { d := 5, a := 2, ka := true, fn := 4 }
def stF : Fields := { c := 6, a := 2, ka := true, fn := 4 }
def isOk (c : LChk) (p : Nat) : Bool := match c with | .ok pa => pa == p | _ => false
def ldsF : Fields := { d := 5, a := 2, ka := true, fn := 4 }
theorem witness_Loads_clear :
    untracedB tm tr = true ∧ issuesB (.ld ldF) tm tg tr = true ∧ issuesB (.lds ldsF) tm tg tr = true ∧
    issuesB (.ldc ldF) tm tg tr = true ∧ issuesB (.ldc { ldF with u := true, ka := false }) tm tg tr = true ∧
    (allLanes.all fun l => clearB tm tr 4 (tm.chkGlobal 0 1 (tm.addr tr ldF true l) 4 4 Acc.load false) 0x1010 &&
      clearB tm tr 4 (tm.chkScratch tg tr (tm.addr tr ldsF false l) 4 4 Acc.load false) 0x1010) = true ∧
    isOk (tm.chkGlobal 0 1 (tm.addr tr { ldF with u := true, ka := false } true 0) 4 4 Acc.load false) 0x6010 = true := by decide +kernel

def stored : Ent := { cells := [(0x6010, 1), (0x6011, 2), (0x6012, 3), (0x6013, 4)], vas := [0x1010, 0x1011, 0x1012, 0x1013] }
theorem witness_Loads_newest :
    isPeer 0x6010 = false ∧ 0x6010 % 64 + 4 ≤ 64 ∧
    ({ tr with outbox := [stored] } : Group).forward? .global 0x6010 4 = some [1, 2, 3, 4] ∧
    tr.forward? .global 0x6010 4 = none ∧ tfind (tm.core 0).view (0x6010 / 64) = none ∧
    tfind ((tm.modCore 0 fun c => { c with view := [(0x6010 / 64, List.replicate 64 7)] }).core 0).view (0x6010 / 64) =
      some (List.replicate 64 7) := by decide +kernel

theorem witness_Stores :
    untracedB tm tr = true ∧ issuesB (.st stF) tm tg tr = true ∧ issuesB (.sts stF) tm tg tr = true ∧
    ((tm.contrib tr stF).all fun l => clearB tm tr 4 (tm.chkGlobal 0 1 (tm.addr tr stF true l) 4 4 Acc.store true) 0x1010 &&
      clearB tm tr 4 (tm.chkScratch tg tr (tm.addr tr stF false l) 4 4 Acc.store false) 0x1010) = true ∧
    tm.contrib tr stF ≠ [] := by decide +kernel

theorem witness_DrainWritesEntry : ∀ sp ∈ [Space.global, .peer, .scratch 1],
    let e : Ent := { stored with space := sp }
    let r : Group := { tr with outbox := [e] }
    (withGroup tc r).group? tg = some r ∧ r.drainable 0 = true ∧ r.outbox[0]? = some e ∧ e.marker = none ∧ r.kind = .own ∧
      r.live ≠ 0 ∧ (e.cells.map (·.1)).Nodup ∧ e.vas.length = e.cells.length ∧ ∀ c ∈ e.cells, c.1 < 2 ^ 52 := by decide +kernel

/-- An entry that met CAPF, whose bytes translate to 0x6010 and on. -/
theorem witness_DrainTranslatesAnew :
    let e : Ent := { stored with anew := true, cells := stored.cells.map fun c => (c.1 + 0x1000, c.2) }
    let r : Group := { tr with outbox := [e] }
    let s := withGroup tc r
    s.group? tg = some r ∧ r.drainable 0 = true ∧ r.outbox[0]? = some e ∧ e.marker = none ∧ r.kind = .own ∧ r.live ≠ 0 ∧
    e.space = .global ∧ e.vas.length = e.cells.length ∧
    (List.range 4).all (fun i => (match s.chkGlobal 0 1 (BitVec.ofNat 64 (e.vas.getD i 0)) 1 1 Acc.store true with
      | .ok pa => pa == 0x6010 + i | _ => false) && plainKey (0x6010 + i)) = true := by decide +kernel

/-- Words of the control block, with the value stored and the value its register takes from it. -/
def registerStores : List (Nat × Nat × Nat) :=
  [(0x10C0, 0x8100000000000001, 0x8100000000000001), (0x2000, 5, 5), (0x2020, 0xFF, 0xFF), (0x3C10, 0x100F, 0x100F),
   (0x4410, 0x6007, 0x6007), (0x4820, 0x8001000000000000, 0x8001000000000000), (0x4900, 0x0000800000000040, 0x0000800000000040),
   (0x4A08, 0x40, 0x40), (0x5008, 0x1122334455667788, 0x1122334455667788), (0x10038, 0x8000000000001000, 0x8000000000001000),
   (0, 7, 0), (0x4818, 7, 0)]
theorem witness_DrainWritesRegister : ∀ x ∈ registerStores,
    let e : Ent := { stored with
      space := .peer, cells := (List.range 8).map fun i => (blockKey + x.1 + i, (leBytes 8 x.2.1).getD i 0) }
    let r : Group := { tr with outbox := [e] }
    let s := (withGroup tc r).setCtl 0x10D0 4
    s.group? tg = some r ∧ r.drainable 0 = true ∧ r.outbox[0]? = some e ∧ e.marker = none ∧ r.kind = .own ∧
      r.live ≠ 0 ∧ e.anew = false ∧ (match exec (.drain tg 0) s with | .next t => (t.ctlw x.1).toNat == x.2.2 | _ => false) = true := by decide +kernel

theorem witness_SpillRestores : (List.replicate 32 (5 : W32)).length = 32 := by decide +kernel

/-- The block form of 16 bytes and its scale: G2 = 0x1010, G4 = 0x1040. -/
def blkF : Fields := { d := 4, c := 8, a := 2, b := 4, ka := true, kb := true }
def blkIssues (s : State) (i : Instr) : Bool := issuesB i s tg tr
def tb : State := withG tm 4 0x1040
theorem witness_BlockMovesAndSpills :
    untracedB tb tr = true ∧ blkIssues tb (.ldb { d := 4, a := 2, b := 4, ka := true, kb := true }) = true ∧
    blkIssues tb (.stb { c := 8, a := 2, b := 4, ka := true, kb := true }) = true ∧
    (∀ acc ∈ [(Acc.load, false), (Acc.store, true)], ∀ l ∈ allLanes,
      (tb.chkBlk tr 0 1 (tb.src64 tr false true 2 l) (tb.src64 tr false true 4 l) (Fields.gb {}) acc.1 acc.2).2.all (fun u =>
        u.1.fault?.isNone && !tb.locked 0 1 u.2.1 u.2.2 && (match u.1 with | .ok pa => !isPeer pa | _ => true)) = true) := by
  decide +kernel

/-- A frame at 0x1000, slot 0; the slot's format byte at home is 0 (nothing but zeros, no bytes). -/
def tf : State := withG ts 2 0x1000
def spF : Fields := { len := .w96, u := true, a := 2, c := 1 }
def fiF : Fields := { len := .w96, u := true, a := 2, d := 4 }
def fits (s : State) (us : List (LChk × Nat × Nat)) : Bool :=
  us.all fun u => u.1.fault?.isNone && !s.storeBlocked u.2.2 u.1 && !s.loadBlocked tr u.2.2 u.1
theorem witness_SpillAndFill :
    issuesB (.spill spF) tf tg tr = true ∧ issuesB (.fill fiF) tf tg tr = true ∧ (tf.gr tr 2).toNat % 4096 = 0 ∧
    (∀ n ∈ [64, 96, 128], fits tf (tf.frameUnits tg tr spF 0x1080 n Acc.store true) = true ∧
      fits tf (tf.frameUnits tg tr fiF 0x1080 n Acc.load false) = true) ∧
    fits tf (tf.frameUnits tg tr spF 0x1000 1 Acc.store true) = true ∧
    fits tf (tf.frameUnits tg tr fiF 0x1000 1 Acc.load false) = true ∧
    tf.frameLocked tg tr spF 0x1000 = false ∧ tf.frameLocked tg tr fiF 0x1000 = false ∧
    (spillLen (leNat (((tf.countIssue tg true).loadUnits tg tr (tf.frameUnits tg tr fiF 0x1000 1 Acc.load false)).1))).isSome = true := by
  decide +kernel

/-- A crew with barrier 1 set up for two arrivals (BINIT, no bytes pending), stages 8 to 15 too. -/
def tbar (b : Bar) : Crew := { tc with bars := (List.replicate 16 ({ exp := 2, init := true } : Bar)).set 1 b }
def two : Bar := { exp := 2, init := true }

/-- Partition 0 owns every cluster. -/
def parted (s : State) : State := (s.setCtl 0x2000 (~~~ 0)).setCtl 0x2008 0x8000000000000000

/-- A group whose outbox holds a store and a marker behind it. -/
def marked : Group := { tr with outbox := [stored, { marker := some false }] }

theorem witness_FencesAndCacheControl : tr.outbox = [] ∧ marked.outbox ≠ [] ∧
    (tr.outbox.all fun e => e.marker.isNone) = true ∧ (marked.outbox.all fun e => e.marker.isNone) = false ∧
    ready tc marked (.fsc { u := true }) = true ∧ ready tc marked (.cctlIc { u := true, a := 1, b := 4 }) = true ∧
    ready tc tr (.fence { u := true, fn := 0xE }) = true ∧ ready tc tr (.fence { u := true, fn := 2 }) = true ∧
    ready tc { tr with outbox := [stored] } (.fence { u := true, fn := 0x13 }) = true ∧ ready tc tr (.fsc { u := true }) = true ∧
    ready tc tr (.pref { a := 2, ka := true }) = true ∧ ready tc tr (.cctlIc { u := true, a := 1, b := 4 }) = true ∧
    ready tc tr (.cctlView { u := true, fn := 1 }) = true ∧ ready tc tr (.cctlWb { u := true, a := 8, b := 8, fn := 2 }) = true := by
  decide +kernel

theorem witness_CacheEvents : (∀ k, tfind State.reset.groups k = none) ∧ waits .fsc = true ∧ tg.slot < 32 ∧
    (withGroup tc { tr with wait := .fsc }).groups.map (·.1) = [gidKey tg] ∧ waits (.cctl 1 0 0) = true ∧
    waits (.cctl 2 0 64) = true ∧ waits (.cctl 0 0x20 0x20) = true ∧ (parted ts).owns ((parted ts).partOf (ts.asidOf tg tr)) 0 = true ∧
    (2 ^ 48 + 0x20) / 2 ^ 48 = ts.asidOf tg tr := by
  exact ⟨fun k => by rfl, by decide +kernel⟩

/-- Two lanes' loads from the control block, of 8 bytes each. -/
theorem witness_RemoteRegisters :
    let pend : List Pending := [{ lane := 0, dst := [], reg := some 0x2010 }, { lane := 31, dst := [], reg := some 0x4900 }]
    let r : Group := { tr with wait := .remote pend 0 false 64 [], ins := { ldF with fn := 5 } }
    waitsB (withGroup tc r) tg r = true ∧ (pend.map (·.lane)).Nodup ∧ (∀ p ∈ pend, p.reg.isSome = true) ∧ tyBytes r.ins.ty = 8 := by
  decide +kernel

theorem witness_RemoteAccessEnds :
    let pend : List Pending := [{ lane := 0, dst := [(4, 7), (5, 8)] }, { lane := 31, dst := [(4, 9), (5, 1)] }]
    (∀ a, waits (.remote pend 0 a 32 []) = true) ∧ (∀ p ∈ pend, p.lane < 32 ∧ (p.dst.map (·.1)).Nodup) ∧
    (pend.map (·.lane)).Nodup ∧ (withGroup tc { tr with wait := .remote pend 0 false 32 [] }).group? tg =
      some { tr with wait := .remote pend 0 false 32 [] } ∧ tr.kind = .own ∧ ts.dev.granary.linkErrs[6]?.isSome = true := by
  decide +kernel

def atF : Fields := { d := 6, a := 2, b := 4, ka := true, fn := 0 }
/-- A group whose lane 31 alone is Active. -/
def lane31 : Group := { tr with exec := 0x80000000 }
def pl (c : LChk) : Option (Nat × Nat) := match c with | .scr uid off _ _ => some (uid, off) | .ok pa => some (0, pa) | _ => none
theorem witness_AtomicStep : ∀ r ∈ [tr, lane31],
    let s := (withG (withGroup tc r) 2 0x1010)
    s.contrib r atF ≠ [] ∧ untracedB s r = true ∧ r.inHandler = false ∧
    issuesB (.atom atF) s tg r = true ∧ issuesB (.atoms atF) s tg r = true ∧
    (∀ l ∈ s.contrib r atF,
      let cg := s.chkGlobal 0 1 (s.addrPlain r atF true l) 4 4 Acc.atomic true
      let cs := s.chkScratch tg r (s.addrPlain r atF false l) 4 4 Acc.atomic false
      clearB s r 4 cg 0x1010 = true ∧ clearB s r 4 cs 0x1010 = true ∧ pl cg = some (0, 0x6010) ∧ pl cs = some (1, 0x1010) ∧
      r.atomReady (Fields.atomRel atF) 4 (0, 0x6010) = true ∧ r.atomReady (Fields.atomRel atF) 4 (1, 0x1010) = true) := by
  decide +kernel

/-- A later lane's step of ATOM and ATOMS, at the place that the checks found. -/
theorem witness_AtomicLater : ∀ p ∈ [((0 : Nat), 0x6010), (1, 0x1010)], ∀ rest ∈ [[], [5]],
    let r : Group := { tr with wait := .atom ((31, p) :: rest.map fun l => (l, p)) [(0, p.1, p.2, false)] }
    let s := withGroup tc r
    continuesB (.atom atF) s tg r = true ∧ continuesB (.atoms atF) s tg r = true ∧ r.inHandler = false ∧
    r.atomReady (Fields.atomRel atF) 4 p = true ∧ p.2 ≠ atomAnew ∧ isAway p.2 = false ∧
    (List.range 4).all (fun i => plainKey (p.2 + i)) = true := by
  decide +kernel
theorem witness_AtomicRelease :
    let f : Fields := { atF with fn := 0x80 }
    f.fnBits 8 6 ∈ [2, 3, 5, 6] ∧ marked.outbox ≠ [] ∧
    issuesB (.atom f) (withG (withGroup tc marked) 2 0x1010) tg marked = true := by
  decide +kernel

theorem witness_TranslationKeepsOffset : ∀ w : Bool,
    (match ts.translate 0 1 0x1ABC Acc.load w false with | .ok pa e => decide (pa = 0x6ABC) && !bitOf e 7 | _ => false) = true ∧
    (match ts.translate 0 1 0x10 Acc.fetch false true with | .ok pa e => decide (pa = 0x5010) && !bitOf e 7 | _ => false) = true := by
  decide +kernel

theorem witness_BarrierInstructions :
    let c := tbar two
    let full : Crew := tbar { two with arr := 1 }
    (withGroup c tr).crew? 0 0 = some c ∧ tr.outbox = [] ∧ (withGroup c tr).barBusy 0 0 c 1 = false ∧
    ready tc tr (.binit { len := .w96, u := true, a := 3, fn := 1, imm := 0x20 }) = true ∧ (tc.bars.getD 3 {}).init = false ∧
    ready c tr (.binit { len := .w96, u := true, a := 1, imm := 16 }) = true ∧ two.init = true ∧ two.arr ≠ two.exp ∧
    two.arr + 1 ≠ two.exp ∧ two.pend = 0 ∧
    ready c tr (.bexp { u := true, a := 1, b := 2, fn := 1 }) = true ∧ ready c tr (.bexp { len := .w96, u := true, a := 1, imm := 16 }) = true ∧
    ready c tr (.barv { u := true, a := 1 }) = true ∧ ready c tr (.barv { u := true, a := 1, d := 15, fn := 2 }) = true ∧ ready c tr (.barw { u := true, a := 1 }) = true ∧
    (∀ q ∈ [0, 2], ready c { tr with q := BitVec.ofNat 16 q } (.bwait { u := true, a := 1, b := 1 }) = true) ∧
    (∀ n ∈ [0, 1], ready c tr (.btest { u := true, a := 1, d := 4, fn := n }) = true) ∧
    ready tc tr (.bwait { u := true, a := 1, b := 1 }) = true ∧ ready tc tr (.btest { u := true, a := 1, d := 4 }) = true ∧
    -- the phase completes: a second group waits at the barrier
    let s := ({ withGroup full tr with nextId := 10 }.putGroup { core := 0, slot := 31 }
      { tr with uid := 3, grp := 1, wait := .bar 1 1 false false })
    issuesB (.barw { u := true, a := 1 }) s tg tr = true ∧ s.crew? 0 0 = some full ∧ full.bars.length = 16 ∧ full.parts = [] ∧
    s.repackers 0 0 1 = [] ∧ s.packedGroups 0 0 1 = [] ∧ (full.bar 1).arr + 1 = (full.bar 1).exp ∧ (full.bar 1).pend = 0 ∧
    s.cores = [] := by
  decide +kernel

/-- What each BARX needs: no barrier set up, one that is full and owes bytes, one in use. -/
theorem witness_BarrierErrors :
    let owes : Crew := tbar { two with arr := 2, pend := 8 }
    let waiter : Group := { tr with uid := 3, wait := .bar 1 1 false false }
    let busy := (withGroup (tbar two) tr).putGroup { core := 0, slot := 5 } waiter
    (∀ i ∈ [Instr.bwait { u := true, a := 1 }, .btest { u := true, d := 2, a := 1 }, .bexp { len := .w96, u := true, a := 1 }, .barv { u := true, a := 1 },
      .barw { u := true, a := 1 }], issuesB i (withGroup tc tr) tg tr = true) ∧ tc.bar 1 = {} ∧
    (∀ i ∈ [Instr.barv { u := true, a := 1 }, .barw { u := true, a := 1 }], issuesB i (withGroup owes tr) tg tr = true) ∧
    (owes.bar 1).arr = (owes.bar 1).exp ∧ (owes.bar 1).pend ≠ 0 ∧
    issuesB (.binit { len := .w96, u := true, a := 1, imm := 2 }) busy tg tr = true ∧ ((tbar two).bar 1).init = true ∧
    busy.barBusy 0 0 (tbar two) 1 = true := by
  decide +kernel

/-- G1 = n. -/
def withStage (c : Crew) (n : W64) : State := withG (withGroup c tr) 1 n
theorem witness_StageInstructions :
    let c := tbar two
    ready tc tr (.sqcfg { len := .w96, u := true, a := 0, imm := 0x20018 }) = true ∧
    ready c tr (.sqcfg { len := .w96, u := true, a := 12, imm := 0x20012 }) = true ∧ c.bars.length = 16 ∧ c.sqsDepth ≠ 0 ∧
    (List.range 16).all (fun m => !(withGroup c tr).barBusy 0 0 c m) = true ∧
    (∀ n ∈ [0, 1, 2, 3], ∀ e ∈ [0, 1], issuesB (.sqwait { u := true, a := 1, fn := e }) (withStage c (BitVec.ofNat 64 n)) tg tr = true ∧
      issuesB (.sqrel { u := true, a := 1, fn := e }) (withStage c (BitVec.ofNat 64 n)) tg tr = true) ∧
    (∀ n ∈ [8, 9, 10, 11], (c.bar n).init = true ∧ (c.bar n).arr ≠ (c.bar n).exp ∧ (c.bar n).arr + 1 ≠ (c.bar n).exp) := by
  decide +kernel

theorem witness_RepackAndUnpack :
    let c := tbar two
    let full : Crew := tbar { two with arr := 1 }
    let np : Group := { tr with kind := .packed 1 0, homes := List.replicate 32 (2, 0) }
    ready c tr (.repack { a := 2, b := 1, ka := true }) = true ∧ tr.isPacked = false ∧
    ready c np (.unpack { u := true, a := 1 }) = true ∧ np.kind = .packed 1 np.depth ∧
    ready c np (.repack { a := 2, b := 1 }) = true ∧ np.isPacked = true ∧ (c.bar 1).complete = false ∧
    let s := withGroup { full with parts := [(0, tr)] } np
    s.crew? 0 0 = some { full with parts := [(0, tr)] } ∧ issuesB (.unpack { u := true, a := 1 }) s tg np = true ∧
    s.barWaiters full.uid 1 (full.bar 1).phase = [] ∧ s.repackers 0 0 1 = [] ∧ s.packedGroups 0 0 1 = [(tg, np)] ∧
    (allLanes.foldl (fun (q : Group) l =>
        if (np.homes.getD l (0, 0)).1 = tr.home l ∧ tr.home l ≠ 0 ∧ np.live.getLsbD l = false then q.clearLane l else q) tr).live ≠ 0 := by
  decide +kernel

theorem witness_RegroupingKeepsThreads :
    let t : RThread := { target := 0x40, fmt := 0, depth := 1, lane := 31, part := 0 }
    [t, { t with lane := 0 }, { t with part := 1 }].Nodup ∧ ∀ u ∈ [t, { t with lane := 0 }, { t with part := 1 }], u.lane < 32 := by decide +kernel

def cpF : Fields := { len := .w128, a := 6, b := 4, ka := true, kb := true, fn := 1, imm := 0x20 }
def cbF : Fields := { len := .w128, d := 8, a := 6, b := 4, c := 10, ka := true, kb := true, kc := true, fn := 0x80, imm := 4 }
def ctF : Fields := { len := .w128, a := 6, b := 10, c := 12, ka := true, kb := true, kc := true, fn := 1 }
/-- G4 = 0x1010 and G10 = 0x1080, where a layout record of one row of 16 bytes at 0x2000 stands; other G registers are
0. -/
def tcp : State := withG (withG ((((ts.storeWord 0x6080 8 0x2000).storeWord 0x6088 8 0x100000010).storeWord 0x6090 8
  0x100000001).storeWord 0x60B0 8 0xF) 4 0x1010) 10 0x1080
def copyOps (f : Fields) (kind : Nat) (l : Nat) : List W64 :=
  let a := tcp.src64 tr false f.ka f.a l
  match kind with
  | 0 => [a, tcp.src64 tr false f.kb f.b l]
  | 1 => a :: ((List.range 8).map fun i => BitVec.ofNat 64 (tcp.word (0x6080 + 8 * i) 8)) ++ [tcp.gr tr 12, tcp.gr tr 13]
  | _ => [tcp.gr tr 8, a, tcp.src64 tr false f.kb f.b l, tcp.src64 tr false f.kc f.c l]
def noFault (f : Fields) (kind : Nat) : Bool := allLanes.all fun l => (tcp.copyCheck tg tr f kind (copyOps f kind l)).isNone
def copyWait (f : Fields) (kind : Nat) (ls : List Nat) : Group :=
  { tr with ins := f, wait := .copy (ls.map fun l => (l, copyOps f kind l)) }
theorem witness_CopiesIssue :
    (issuesB (.cpyo cpF) tcp tg tr = true ∧ noFault cpF 0 = true) ∧ (issuesB (.cpyb cbF) tcp tg tr = true ∧ noFault cbF 2 = true) ∧
    (issuesB (.cpyt ctF) tcp tg tr = true ∧ noFault ctF 1 = true ∧ tcp.contrib tr ctF ≠ [] ∧ (tcp.copyCheck2 tg tr ctF).isNone = true ∧
      goodAddr (tcp.gr tr 10) 64 = true ∧ (match tcp.homeOf 0 1 0x1080 64 Acc.load false with | .ok pa => pa == 0x6080 && !isPeer pa | _ => false) = true ∧
      (tcp.contrib tr ctF).all (fun l => decide ((tcp.src64 tr false true 6 l).toNat < 32768 ∧ (tcp.src64 tr false true 6 l).toNat % 16 = 0)) = true) ∧
    -- the layout record's later units
    (∀ n ∈ [1, 2, 3], let got : Tab (List Byte) := (List.range n).map fun i => (i, List.replicate 16 0)
      let s := { tcp with groups := (withGroup tc { tr with wait := .units got }).groups }
      continuesB (.cpyt ctF) s tg { tr with wait := .units got } = true ∧ got.length < 4 ∧ s.contrib { tr with wait := .units got } ctF ≠ []) ∧
    (∀ k ∈ [(cpF, 0), (ctF, 1), (cbF, 2)], ∀ ls ∈ [[0], [0, 31]],
      let s := { tcp with groups := (withGroup tc (copyWait k.1 k.2 ls)).groups }
      waitsB s tg (copyWait k.1 k.2 ls) = true ∧ kindOf (copyOps k.1 k.2 0) = k.2 ∧
      (s.copyChannel tg (copyWait k.1 k.2 ls) (copyRanges k.2 k.1 (copyOps k.1 k.2 0))).isSome = true) := by
  decide +kernel

def aCopy : Copy :=
  { core := 0, crew := 0, uid := 1, asid := 1, pc := 0, fields := cpF, kind := 0, ops := [0, 0x1010],
    chan := 0, ranges := [], n := 2, bytes := 32, bar := none, fut := none }
def withCopy (c : Copy) : State := { withGroup (tbar two) tr with copies := [(7, c)] }
theorem witness_CopyBeatMovesBytes :
    let s := withCopy aCopy
    let out : Copy := { aCopy with fields := { cpF with fn := 0 }, ops := [0x1010, 0] }
    tfind s.copies 7 = some aCopy ∧ aCopy.arrived = false ∧ aCopy.stall = none ∧ 1 < aCopy.n ∧ 1 ∉ aCopy.did ∧
    s.crewByUid 0 0 1 = some (tbar two) ∧ 16 + 15 < (tbar two).hold.sg * 16384 ∧
    ((List.range 16).all fun j => match s.copyRead 0 1 32768 1 false (0x1020 + j) Acc.cpyRead with
      | .ok b => b == s.byte (0x6020 + j) | _ => false) = true ∧
    (out.fields.fnBits 1 0 = 0 ∧ (match (withCopy out).copyPlaces 0 1 32768 1 false Acc.cpyWrite
      ((List.range 16).map fun j => 0x1020 + j) with | .ok ps => ps == (List.range 16).map (0x6020 + ·) | _ => false) = true) ∧
    ∀ j < 16, ∀ i < 16, 0x6020 + i = 0x6020 + j → i = j := by
  decide +kernel

/-- Beat `k` of a copy may be made: its bytes read and translate, each to its own place. -/
def beatOk (c : Copy) (k : Nat) : Bool :=
  let s := withCopy c
  let b := copyBeat c.kind c.fields c.ops k
  let d := copyDir c.kind c.fields
  let src := b.filterMap fun x => match x.1 with | .inl a => some a | _ => none
  let dst := b.map (·.2)
  decide (k < c.n) && !c.did.contains k && decide (b.length ≠ 0) &&
    !s.beatAhead c ((if d.1 then [] else src) ++ (if d.2 then [] else dst)) &&
    (src.all fun a => match s.copyRead 0 1 32768 1 d.1 a Acc.cpyRead with | .ok _ => true | .error _ => false) &&
    match s.copyPlaces 0 1 32768 1 d.2 Acc.cpyWrite dst with
    | .ok ps => ps.length == b.length && decide ps.Nodup && (d.2 || ps.all plainKey)
    | .error _ => false
/-- CPYO in its four directions, CPYB in both, and CPYT of a box of 16 bytes in both. -/
theorem witness_BeatMoves :
    (∀ x ∈ [((0 : BitVec 9), 0x1010, 0x100), (1, 0x100, 0x1010), (2, 0x1800, 0x1010), (3, 0x200, 0x100)],
      beatOk { aCopy with fields := { cpF with fn := x.1 }, ops := [BitVec.ofNat 64 x.2.1, BitVec.ofNat 64 x.2.2] } 1 = true) ∧
    (beatOk { aCopy with kind := 2, fields := cbF, ops := [0x200, 0x400, 0x1010, 0x1400] } 1 = true) ∧
    (beatOk { aCopy with kind := 2, fields := { cbF with fn := 0 }, ops := [0x1010, 0x1400, 0x200, 0x400] } 1 = true) ∧
    (∀ n ∈ [0, 1], beatOk { aCopy with kind := 1, fields := { ctF with fn := BitVec.ofNat 9 n }, n := 1, ops := copyOps ctF 1 0 } 0 = true) := by
  decide +kernel
theorem witness_BeatBytes :
    let b := boxOf (copyOps ctF 1 0)
    b.box.length = 4 ∧ (0 < b.box.getD 0 1 ∧ 0 < b.box.getD 1 1 ∧ 0 < b.box.getD 2 1) ∧ 0 < b.es ∧ 0 ≤ (b.at 15).1 ∧ 0 ≤ (b.at 0).1 := by
  decide +kernel

theorem witness_CopyCompletes :
    let done : Copy := { aCopy with did := [0, 1] }
    let named : Copy := { done with bar := some 1 }
    tfind (withCopy done).copies 7 = some done ∧ done.did.length = done.n ∧ done.fut = none ∧
    tfind (withCopy named).copies 7 = some named ∧ (withCopy named).crew? 0 0 = some (tbar two) ∧ two.init = true ∧
    two.arr ≠ two.exp ∧ ({ two with arr := 1, pend := two.pend - 32 } : Bar).complete = false := by
  decide +kernel

/-- G2 = 0x1010, where a future in state `st` stands; the join record of G4 = 0x1040 has a count of `n`. -/
def fut (st n : Nat) : State :=
  withG (withG ((ts.storeWord 0x6010 8 (st * 2 ^ 62)).storeWord 0x6040 4 n) 2 0x1010) 4 0x1040
def okAt (x : Except FRec Nat) (p : Nat) : Bool := match x with | .ok pa => pa == p | .error _ => false
theorem witness_FutureUnits :
    (∀ st < 4, okAt ((fut st 3).homeOf 0 1 0x1010 16 Acc.future true) 0x6010 = true ∧ (fut st 3).word 0x6010 8 / 2 ^ 62 = st) ∧
    (∀ n < 3, okAt ((fut 0 n).homeOf 0 1 0x1040 16 Acc.future true) 0x6040 = true ∧ (fut 0 n).word 0x6040 4 = n) := by
  decide +kernel

/-- A registered future, whose join record is at 0x1040, with a count of `n`. -/
theorem witness_FutureRegistered : ∀ n ∈ [1, 2], ∀ poison : Bool,
    let s := (fut 1 n).storeWord 0x6010 8 (2 ^ 62 + 0x104)
    okAt (s.homeOf 0 1 0x1010 16 Acc.future true) 0x6010 = true ∧ s.word 0x6010 8 / 2 ^ 62 = 1 ∧
    s.word 0x6010 8 % 2 ^ 48 * 16 = 0x1040 ∧ okAt (s.homeOf 0 1 0x1040 16 Acc.future true) 0x6040 = true ∧
    (List.range 16).all (fun i => plainKey (0x6010 + i) && plainKey (0x6040 + i)) = true ∧
    (match s.joinDec (.group 2) [] 0 1 0x1040 poison with | .ok _ => true | _ => false) = true := by
  decide +kernel

/-- Lane 31 alone, or lanes 0 and 31, are Active. -/
def lanes0and31 : Group := { tr with exec := 0x80000001 }
def futF : Fields := { a := 2, b := 4, ka := true, kb := true }
def futS (st : Nat) (r : Group) : State := { fut st 3 with groups := (withGroup tc r).groups }
def futIssue (i : Instr) (st : Nat) (r : Group) (reg write : Bool) : Bool :=
  let s := futS st r
  issuesB i s tg r && r.outbox.isEmpty && ((s.contrib r futF).all fun l =>
    (s.futCheck r 0 1 (s.src64 r false true 2 l) (if reg then some (s.gr r 4) else none) write).isNone)
/-- The first step of the instruction on the future of G2: the translations the checks made, and the state after them. -/
def futFirst (st : Nat) (r : Group) (vas : List Nat) : Pages × State :=
  let s := futS st r
  let ps := s.futPages 0 1 ((s.contrib r futF).flatMap fun _ => vas)
  (ps, (s.countIssue tg true).futTranslated 0 1 ps)
def futOk (s : State) (x : FutStep) : Bool := match x with | .ok t => t.groups == s.groups | _ => false
def futTwice (x : FutStep) : Bool := match x with | .dblres => true | _ => false
theorem witness_FutureInstructions : (∀ r ∈ [lane31, lanes0and31],
      futIssue (.freg futF) 0 r true true = true ∧ futIssue (.fres futF) 0 r false true = true ∧
      futIssue (.fres futF) 2 r false true = true ∧ futIssue (.fpois futF) 0 r false true = true) ∧
    (∀ r ∈ [lane31, lanes0and31],
      (let x := futFirst 0 r [0x1010, 0x1040]
       x.1 ≠ [] ∧ futOk (futS 0 r) (x.2.futReg (.group 2) x.1 0 1 0x1010 0x1040) = true) ∧
      (let x := futFirst 0 r [0x1010]
       futOk (futS 0 r) (x.2.futRes (.group 2) x.1 0 1 0x1010 2 5) = true ∧
       futOk (futS 0 r) (x.2.futRes (.group 2) x.1 0 1 0x1010 3 5) = true) ∧
      (let x := futFirst 2 r [0x1010]
       futTwice (x.2.futRes (.group 2) x.1 0 1 0x1010 2 5) = true)) ∧
    -- a later lane's step
    (∀ st ∈ [0, 2],
      let ps := (futFirst st lane31 [0x1010, 0x1040]).1
      let r : Group := { tr with wait := .futs [31] ps }
      let s := futS st r
      ps ≠ [] ∧ (∀ v ∈ [0x1010, 0x1040], (s.futLinked r 0 1 (BitVec.ofNat 64 v)).isNone = true) ∧ continuesB (.freg futF) s tg r = true ∧ continuesB (.fres futF) s tg r = true ∧ continuesB (.fpois futF) s tg r = true ∧
      (st = 0 → futOk s (s.futReg (.group 2) ps 0 1 0x1010 0x1040) = true ∧ futOk s (s.futRes (.group 2) ps 0 1 0x1010 2 5) = true) ∧
      (st = 2 → futTwice (s.futRes (.group 2) ps 0 1 0x1010 2 5) = true)) ∧
    let w : Fields := { d := 8, a := 2, c := 12, ka := true, fn := 1 }
    (∀ st ∈ [0, 2], futIssue (.fregWait w) st lane31 false false = true) ∧
    ((futS 0 lane31).futReturn tg lane31 w [31]).isNone = true ∧ ((futS 2 lane31).futReturn tg lane31 w [31]).isSome = true ∧
    waits (.future [31]) = true := by
  decide +kernel

/-- G2 = 0x1040: a queue of 16 entries, WIDX = w and RIDX = r, its ring at 0x2000; SEQ(0), at 0x1100, reads q. -/
def tq (w r q : Nat) : State := withG (((((ts.storeWord 0x6040 8 0x2000).storeWord 0x6048 8 4).storeWord 0x6050 8 w).storeWord 0x6058 8 r
  |>.storeWord 0x6060 8 0x1100).storeWord 0x6100 8 q) 2 0x1040
/-- The same queue as partition 0's device launch queue. -/
def withDlq (s : State) : State := s.setCtl 0x2808 0x1041
def withWait (s : State) (w : Wait) : State × Group :=
  ({ s with groups := (withGroup tc { tr with wait := w }).groups }, { tr with wait := w })
/-- A queue step took an index, completed, or found nothing; and no group changed. -/
def qTook (s : State) : QStep → Option Nat | .took t i => if t.groups = s.groups then some i else none | _ => none
def qDone (s : State) : QStep → Bool | .done t _ => decide (t.groups = s.groups) | _ => false
/-- The state after a queue step's own translations, its slot's page not yet seen. -/
def qSeen (s : State) (n : Option Nat) (acc : Nat) : State := (s.queueTranslated 0 1 0x1040 n acc []).1
def qNone : QStep → Bool | .none => true | _ => false
def qpF : Fields := { u := true, d := 8, a := 2, b := 16 }
def qoF : Fields := { u := true, d := 8, a := 2 }
theorem witness_DeviceQueues :
    (∀ w ∈ [0, 16], issuesB (.qpush qpF) (tq w 0 0) tg tr = true ∧ issuesB (.tsub { u := true, d := 8, a := 2 }) (withDlq (tq w 0 0)) tg tr = true ∧
      issuesB (.qpop qoF) (tq w 16 0) tg tr = true ∧ issuesB (.qpop { qoF with c := 2, fn := 1 }) (tq w 0 0) tg tr = true ∧
      (tq w 0 0).qAtomReady tg tr 1 0x1040 = true) ∧
    qTook (tq 0 0 0) ((qSeen (tq 0 0 0) none Acc.push).qReserve (.group 2) 0 1 0x1040 Acc.push) = some 0 ∧
    qNone ((qSeen (tq 16 0 0) none Acc.push).qReserve (.group 2) 0 1 0x1040 Acc.push) = true ∧
    qTook (tq 1 0 0) ((qSeen (tq 1 0 0) none Acc.queue).qTake (.group 2) 0 1 0x1040 Acc.queue) = some 0 ∧
    qNone ((qSeen (tq 16 16 0) none Acc.queue).qTake (.group 2) 0 1 0x1040 Acc.queue) = true ∧
    -- an index reserved: QPUSH fills it, and TSUB with every unit of its record
    (∀ got ∈ [[], (List.range 4).map fun i => (i, List.replicate 16 (0 : Byte))],
      let s := (withWait (tq 1 0 0) (.qpush 0 got [])).1
      let r := (withWait (tq 1 0 0) (.qpush 0 got [])).2
      continuesB (.qpush qpF) s tg r = true ∧ continuesB (.tsub { u := true, d := 8, a := 2 }) (withDlq s) tg r = true ∧ r.outbox = [] ∧
      qDone s ((qSeen s (some 0) Acc.push).qFill (.group 2) 0 1 0x1040 Acc.push 0 (List.replicate 64 0)) = true) ∧
    -- a wait on an empty queue, and an index taken
    (∀ n ∈ [none, some 0],
      let s := (withWait (tq 1 1 1) (.qpop n [])).1
      let r := (withWait (tq 1 1 1) (.qpop n [])).2
      continuesB (.qpop qoF) s tg r = true ∧ s.qAtomReady tg r 1 0x1040 = true ∧
      qDone s ((qSeen s (some 0) Acc.queue).qEmpty (.group 2) 0 1 0x1040 Acc.queue 0) = true) ∧
    goodAddr ((tq 0 0 0).gr tr 2) 64 = true ∧ okAt ((tq 0 0 0).homeOf 0 1 0x1040 64 Acc.queue false) 0x6040 = true ∧
    bitOf ((withDlq (tq 0 0 0)).dlqd 0) 0 = true ∧ bitOf (ts.dlqd 0) 0 = false ∧ (withDlq (tq 0 0 0)).dlqDesc 0 = 0x1040 ∧
    (match (tq 0 0 0).qdesc 0 1 0x1040 Acc.push with | .ok q => q.logn == 4 | .error _ => false) = true := by
  decide +kernel

theorem witness_PushSteps :
    let s := (tq 0 0 0).setCtl 0x2808 0x1041
    bitOf (s.dlqd 0) 0 = true ∧ bitOf (ts.dlqd 0) 0 = false ∧ s.dlqDesc (s.partOf 1) = 0x1040 ∧
    okAt (s.homeOf noCore 1 0x1200 64 Acc.push false) 0x6200 = true ∧ 0x1200 % 64 = 0 ∧
    qTook s (s.qReserve (.push 0) noCore 1 0x1040 Acc.push) = some 0 ∧
    qDone s (s.qFill (.push 0) noCore 1 0x1040 Acc.push 0 (s.bytes 0x6200 64)) = true := by
  decide +kernel

/-- Another crew of the core, which holds 10 scratch granules of at most 20, beside one that may hold all 32. -/
def rival : Crew := { tc with uid := 3, hold := { sg := 10 }, max := { sg := 20 }, free := 0 }
def greedy : Crew := { tc with max := { rg := 64, sg := 32, ch := 4, ms := 2 } }
def tense (r : Group) : State := (withGroup greedy r).putCrew 0 1 rival
def claimF (i : Nat) : Fields := { len := .w96, u := true, imm := BitVec.ofNat 64 i }
theorem witness_ClaimAndRelease :
    ready tc tr (.claim (claimF 0)) = true ∧
    ready tc tr (.claim (claimF 0x100104)) = true ∧ (Claim.ofBits 0x100104).le tc.need = true ∧
    fastPath tc.need (ts.avail 0) (Claim.ofBits 0x100104) = true ∧ tc.rgq = [] ∧
    issuesB (.claim (claimF 0x400)) (tense tr) tg tr = true ∧ (Claim.ofBits 0x400).le greedy.need = true ∧
    fastPath greedy.need ((tense tr).avail 0) (Claim.ofBits 0x400) = false ∧ ((tense tr).core 0).test = none ∧
    (Claim.ofBits 0x300).le tc.need = true ∧ ready tc tr (.claim (claimF 0x700)) = true ∧ (Claim.ofBits 0x700).le tc.need = false ∧
    ready tc tr (.release (claimF 0x110104)) = true ∧ ((withGroup tc tr).core 0).deferred = [] ∧ 4 ≤ tc.free ∧ 1 ≤ tc.hold.sg ∧
    ts.busyChans tc.uid + 1 ≤ tc.hold.ch ∧ ts.busyStreams tc.uid + 1 ≤ tc.hold.ms ∧ ts.scoreboarded 1 (1 * 16384) (1 * 16384) = false ∧
    ts.rowsInUse 1 0 384 = false ∧ ready tc tr (.release (claimF 5)) = true ∧ tc.free < 5 := by
  decide +kernel
theorem witness_FullTestEnd : ∀ safe : Bool,
    let r : Group := { tr with wait := .grant }
    let q : GReq := { slot := 0, crew := 0, req := { sg := 4 } }
    let s := (tense r).modCore 0 fun x => { x with test := some (q, safe) }
    (s.core 0).test = some (q, safe) ∧ s.crew? 0 0 = some greedy ∧ waitsB s tg r = true ∧ (s.core 0).deferred = [] := by
  decide +kernel

theorem witness_FastPathIsSafe :
    let cs := [(0, greedy), (1, rival)]
    (cs.map (·.1)).Nodup ∧ cs.length ≤ 16 ∧ (∀ e ∈ cs, e.2.pendHold = {}) ∧ safeCrews cs = true ∧
    fastPath rival.need (claimable.sub (holdSum cs)) { sg := 10 } = true := by decide +kernel

theorem witness_GranulesAndQueries :
    let gr (n : Nat) : Fields := { len := .w96, u := true, imm := BitVec.ofNat 64 n }
    let four : Group := { tr with gran := 4 }
    let np : Group := { tr with kind := .packed 1 0 }
    ready tc tr (.rgsur (gr 7)) = true ∧ 7 < tr.gran ∧ tr.isPacked = false ∧ ts.regsHeld tr.uid 32 = false ∧
    ready tc four (.rgclm (gr 4)) = true ∧ 4 + 4 ≤ 8 ∧ 4 ≤ tc.free ∧ ready { tc with free := 3 } four (.rgclm (gr 4)) = true ∧
    ready tc four (.rgsur (gr 4)) = true ∧ ready tc tr (.rgclm (gr 1)) = true ∧ ready tc np (.rgsur (gr 1)) = true ∧
    np.isPacked = true ∧ (∀ n ∈ [0, 1, 2, 3, 4], ready tc tr (.clqry { u := true, d := 10, fn := n }) = true) := by
  decide +kernel

/-- Region 0 of type `typ` from 0x10000, with a first byte of 5 at offset 0x40 of die 0's replica; G2 = 0x10040 and G6
= v. -/
def tl (typ v : Nat) : State :=
  withG (withG { ts with regions := [(0, { asid := 1, base := 0x10000, lines := 64, typ := typ, cells := [(0x40, 5)] })] } 2 0x10040) 6
    (BitVec.ofNat 64 v)
def latAt (c : LChk) (d o : Nat) : Bool := match c with | .lat d' o' => d' == d && o' == o | _ => false
def ljF (typ : Nat) : Fields := { a := 2, b := if typ = 9 then 5 else 6, ka := true, kb := typ != 9, fn := BitVec.ofNat 9 typ }
def onLane31 (s : State) : State := { s with groups := (withGroup tc lane31).groups }
theorem witness_LatticeJoins :
    (∀ typ ∈ [1, 2, 3, 4, 5, 7, 8, 9, 10], ∀ r ∈ [lanes0and31, lane31],
      let s := { tl typ 3 with groups := (withGroup tc r).groups }
      issuesB (.jst (ljF typ)) s tg r = true ∧ issuesB (.mst (ljF typ)) s tg r = true ∧ s.contrib r (ljF typ) ≠ [] ∧
      ∀ l ∈ s.contrib r (ljF typ), latAt (s.chkLat 1 (ljF typ) (s.addrPlain r (ljF typ) true l) Acc.store) 0 0x40 = true ∧
        latNan typ 3 = false) ∧
    untracedB (tl 1 3) tr = true ∧ lane31.outbox = [] ∧ (onLane31 (tl 1 3)).contrib lane31 (ljF 1) = [31] ∧
    -- against the order, with it, and a NaN
    latLeq 1 (((tl 1 3).regionOf 0).cell 0 0x40 4) 3 = false ∧ latLeq 1 (((tl 1 3).regionOf 0).cell 0 0x40 4) 5 = true ∧
    slotOf (((tl 9 0).regionOf 0).cell 0 0x40 16) 0 = 5 ∧
    latNan 8 ((onLane31 (tl 8 0x7FC00000)).latVal lane31 4 true 6 31) = true ∧
    issuesB (.jst (ljF 8)) (onLane31 (tl 8 0x7FC00000)) tg lane31 = true := by
  decide +kernel

/-- The threshold is G6. -/
def ltF (typ : Nat) : Fields := { len := .w96, d := 8, a := 2, b := 6, ka := true, kb := true, fn := BitVec.ofNat 9 typ }
def ltdF (typ : Nat) : Fields := { len := .w96, d := 8, a := 2, b := 6, c := 1, ka := true, kb := true, fn := BitVec.ofNat 9 typ, imm := 100 }
def metOf (typ v : Nat) : Bool := latLeq typ v (((tl typ v).regionOf 0).cell 0 0x40 (cellBytes typ))
theorem witness_LatticeLoads :
    (∀ typ ∈ [1, 2, 5, 7, 9, 10], ∀ v ∈ [4, 10], let s := onLane31 (tl typ v)
      issuesB (.tld (ltF typ)) s tg lane31 = true ∧ issuesB (.tldt (ltdF typ)) s tg lane31 = true ∧
      issuesB (.lpeek { ltF typ with b := 0, kb := false }) s tg lane31 = true ∧ lane31.hlp = 0 ∧
      latAt (s.chkLat 1 (ltF typ) (s.latAddr lane31 (ltF typ) false 31) Acc.load) 0 0x40 = true ∧
      latAt (s.chkLat 1 (ltdF typ) (s.latAddr lane31 (ltdF typ) true 31) Acc.load) 0 0x40 = true ∧
      latNan typ (s.latVal lane31 (4 * (ltF typ).latRegs) true 6 31) = false) ∧
    metOf 1 4 = true ∧ metOf 1 10 = false ∧ slotSum (((tl 9 0).regionOf 0).cell 0 0x40 16) = 5 ∧
    ∀ timed : Bool,
      let r : Group := { lane31 with wait := .thresh timed, ins := ltdF 1 }
      waitsB { tl 1 4 with groups := (withGroup tc r).groups } tg r = true ∧ r.traps = [] ∧ r.hlp = 0 := by
  decide +kernel

theorem witness_LatticeRegistersAndSync :
    (∀ typ ∈ [1, 2, 3, 4, 5, 7, 8, 10], ready tc tr (.ljoin { d := 8, a := 10, b := 12, ka := true, kb := true, fn := BitVec.ofNat 9 typ }) = true ∧
      ∀ n ∈ [0, 1, 2, 3], ready tc tr (.lcmp { d := 1, a := 12, b := 2, ka := true, kb := true, fn := BitVec.ofNat 9 (typ + 16 * n) }) = true) ∧
    ready tc tr (.ljoin { d := 8, a := 12, b := 4, fn := 9 }) = true ∧ tr.inHandler = false ∧
    ready tc tr (.lsync { u := true }) = true ∧ waits (.lsync [(0, 3, 0)]) = true ∧ waits (.lsync [(0, 3, 2)]) = true := by
  decide +kernel

theorem witness_LatticeOrders : ∀ typ ∈ [1, 2, 3, 4, 5, 7, 8, 9, 10], latLeq typ 0 0 = true ∧ 0 < 2 ^ (8 * cellBytes typ) := by decide +kernel

theorem witness_LatticeEvents :
    let x : Region := { asid := 1, base := 0x10000, lines := 64, typ := 1, owed := [(3, 2)], due := [(3, true)] }
    let s := { ts with regions := [(0, x)] }
    (∀ e ∈ s.groups, e.2.wait = .none) ∧ tfind s.regions 0 = some x ∧ (tget 0 x.owed 3).getLsbD (0 ^^^ (x.phase % 3 + 1)) = true ∧
    ({ x with due := [] } : Region).due = [] ∧
    -- a registration at descriptor 5 of 1 page; one that overlaps; one on a taken descriptor; a deregistration
    let d := s.setCtl (0x3800 + 16 * 5 + 8) 1
    tfind d.regions 5 = none ∧ (freeRuns (d.lstore / 4096) 1 4 d.latRuns).isSome = true ∧
    (d.ctlw (0x3800 + 16 * 5 + 8)).toNat % 2 ^ 19 = 1 ∧ (0x10000 < x.base + 64 * x.lines) ∧ s.latWaited 0 = false ∧
    ({ tl 1 10 with groups := (withGroup tc { lane31 with wait := .thresh false, ins := ltF 1 }).groups } : State).latWaited 0 = true := by
  decide +kernel

/-- A record of one crew of one group: entry 0x40, one sheaf of 1 by 1 by 1 crews, a granule, Max.RG 4. -/
def words : List W64 := [0, 0x40, 0x11100000001, 0x400000021, 0x77, 0, 0, 0]
def fresh : Launch := { words := words, asid := 1 }
def aLaunch : Launch := { fresh with task := taskOf words, valid := true, aged := 9, age := 128 }
/-- No crew; launch 3 at die 0. -/
def tlch (x : Launch) (d : Die) : State := { parted mapped with launches := [(3, x)], dies := [(0, d)], nextId := 10 }
theorem witness_ReplayWindow :
    let l : Link := { next := 3, expected := 1, transit := [(1, 7), (2, 8)], sent := [(0, 6), (1, 7), (2, 8)], replies := [(1, true), (2, false)], backoff := some 1 }
    let s := ts.putLink 2 l
    (s.link 2).transit = [(1, 7), (2, 8)] ∧ 1 = l.expected ∧ (ts.putLink 2 { l with expected := 0 }).link 2 = { l with expected := 0 } ∧
    (s.link 2).replies = (1, true) :: [(2, false)] ∧ (s.link 2).waiting = [] ∧
    (ts.putLink 2 { l with replies := [(2, false)] }).link 2 = { l with replies := [(2, false)] } ∧
    (s.link 2).backoff = some 1 ∧ (s.link 2).sent = [(0, 6)] ++ (1, 7) :: [(2, 8)] ∧ ∀ e ∈ [(0, 6)], e.1 ≠ 1 := by
  decide +kernel

def decided : State := (tlch aLaunch {}).decide_ 0
theorem witness_LaunchEvents :
    (let s := tlch fresh { arrivals := [3] }
     (s.die 0).arrivals = [3] ∧ tfind s.launches 3 = some fresh ∧ 64 ≤ fresh.queue ∧ s.taskFault (s.partOf 1) words = none) ∧
    (let bad := { fresh with words := words.set 2 0 }
     let s := tlch bad { arrivals := [3] }
     tfind s.launches 3 = some bad ∧ s.taskFault (s.partOf 1) bad.words = some 1 ∧ bitOf (bad.words.getD 1 0) 35 = false) ∧
    ((tlch fresh {}).die 0).admission = none ∧ (tlch fresh {}).saved = [] ∧ (tlch fresh {}).nextRect 0 = none ∧
    (tlch aLaunch {}).nextRect 0 = some (3, 0, [0]) ∧ tfind (tlch aLaunch {}).launches 3 = some aLaunch ∧
    (decided.die 0).admission = some (3, [0], true) ∧ tfind decided.launches 3 = some aLaunch ∧ aLaunch.code = none ∧
    tsorted decided.launches = true ∧ decided.tentative 3 [0] = [(0, 0)] ∧ (decided.crew? 0 0).isSome = true ∧
    aLaunch.task.ngrp = 1 ∧ decided.freeSlots 0 = 0 :: (List.range 31).map (· + 1) ∧
    (let s := tlch aLaunch { admission := some (3, [0], false) }
     (s.die 0).admission = some (3, [0], false) ∧ s.cores = []) ∧
    (let s := tlch aLaunch {}
     (s.die 0).reservation = none ∧ s.launches = [(3, aLaunch)] ∧ aLaunch.aged ≠ 0 ∧ s.eligible 0 aLaunch = true ∧
     (∀ k < 4, (s.die k).reservation = none) ∧ ((s.rects (s.partOf 1) 0 1 1).head?).isSome = true) := by
  decide +kernel

theorem witness_ExitAndRetire :
    let one : Group := { tr with live := 1, exec := 1 }
    ready tc tr (.exit {}) = true ∧ ready tc lane31 (.exit {}) = true ∧ (lane31.live &&& ~~~ laneMask (ts.activeLanes lane31 {})) ≠ 0 ∧
    ready tc one (.exit {}) = true ∧ (one.live &&& ~~~ laneMask ((withGroup tc one).activeLanes one {})) = 0 ∧
    ready tc tr (.exit { u := true }) = true ∧ tr.kind = .own ∧ tr.outbox = [] ∧ tr.traps = [] ∧ ts.regsHeld tr.uid 0 = false ∧
    ts.crew? 0 0 = some tc ∧ tc.rgq = [] ∧
    ∀ n ∈ [1, 2],
      let c : Crew := { tc with launch := 3 }
      let x : Launch := { aLaunch with placed := 1, crewsLeft := n }
      let s := (tlch x {}).putCrew 0 0 c
      s.crew? 0 0 = some c ∧ c.tentative = false ∧ c.stop = none ∧ s.crewGroups 0 0 = [] ∧ c.parts = [] ∧ s.cores = [] ∧
      s.copies = [] ∧ s.ops = [] ∧ tfind s.launches c.launch = some x ∧ x.placed = x.task.nsheaf ∧ x.task.cv = false ∧ x.task.fv = false := by
  decide +kernel

def spawned : SpawnRec := { entry := 0x40, crewSlot := 0, gran := 2, arg := 5, argp := 6, crewUid := 1 }
def withPool (s : State) (n : Nat) : State := s.modCore 0 fun c => { c with pool := List.replicate n spawned }
theorem witness_Spawning :
    let f : Fields := { len := .w96, u := true, a := 10, fn := 1, imm := 0x40 }
    issuesB (.spawn f) (withPool ts 63) tg tr = true ∧ ((withPool ts 63).core 0).pool.length < 64 ∧ ((withPool ts 63).core 0).ring = [] ∧
    issuesB (.spawn f) (withPool ts 64) tg tr = true ∧ 64 ≤ ((withPool ts 64).core 0).pool.length ∧ (ts.spovf (ts.partOf 1)).2 = 0 ∧
    2 ≤ tc.max.rg ∧ ready { tc with max := {} } tr (.spawn f) = true ∧
    (let s := withPool ts 2
     (s.core 0).pool[0]? = some spawned ∧ s.crewByUid 0 0 1 = some tc ∧ tc.stop = none ∧ tc.saving = false ∧
     s.freeSlots 0 = 1 :: (List.range 30).map (· + 2) ∧ s.tentSlots 0 ≤ 30 ∧ s.groupCount 0 0 tc < 16 ∧ spawned.gran ≤ tc.free) ∧
    -- a segment of 16 records at 0x1000, whose record 5 is there
    (let s := ((parted ts).setCtl 0x2800 0x1004).setCtl 0x2008 0x8000000000000001
     let s := s.modCore 0 fun c => { c with ring := [(5, 1)] }
     s.partOfCore 0 = some 0 ∧ (s.core 0).ring = [(5, 1)] ∧ (s.core 0).pool.length < 64 ∧
     (match s.ringRec 0 0 5 1 with | .ok _ => true | .error _ => false) = true) := by
  decide +kernel

/-- A crew of launch 3 whose group waits at a barrier; the context ring at 0x6100 has 4 frames. -/
def waitingG (w : Wait) : Group := { tr with wait := w }
def evState (c : Crew) (w : Wait) : State :=
  { ((parted (withGroup c (waitingG w))).setCtl 0x2820 0x8000000000006000).storeWord 0x6000 8 4 with
    dies := [(0, { preReqs := [(0, 1)] })] }
def evCrew : Crew := { tc with preempt := true, launch := 3, hold := {} }
def savedOne : Saved :=
  { crew := { tc with launch := 3, hold := {} }, core := 0, groups := [(4, { waitingG .spawn with gran := 1 })], copies := [], ops := [],
    spawns := [], frames := [0x400000] }
/-- A saved crew whose frame holds a PC, and format bytes 0, but for `b` at the last register's. -/
def framed (b : Nat) : State :=
  { ((parted mapped).storeWord 0x400080 8 0x1000).storeWord (0x400000 + 1408 + 31) 1 b with saved := [(5, savedOne)] }
def formByte (s : State) (n : Nat) : Nat := (s.byte (0x400000 + 128 + 1280 + 4160 * (n / 32) + n % 32)).toNat
def restoreReady (s : State) : Bool :=
  let c := savedOne.crew
  decide (
     tfind s.saved 5 = some savedOne ∧ s.savedSheaf savedOne = [(5, savedOne)] ∧ s.sheafWakes [(5, savedOne)] = true ∧
     (s.die 0).admission = none ∧ (s.die 0).reservation = none ∧ s.owns (s.partOf c.asid) 0 = true ∧ s.launches = [] ∧
     s.taskOfCrew c = {} ∧ s.restorable [(5, savedOne)] 1 [0] = true ∧ c.index = 0 ∧ c.parts = [] ∧ c.rgq = [] ∧
     (s.freeCrewSlots 0).head? = some 0 ∧ (s.freeSlots 0).head? = some 0 ∧ c.stop = none ∧ s.crews = [] ∧ savedOne.frames.length = 1 ∧
     (savedOne.groups.map fun e => (e.1, e.2.homes, e.2.uid, e.2.gran)) = [(4, [], 2, 1)])
theorem witness_EvictionAndRestore :
    (let s := evState tc .none
     s.crew? 0 0 = some tc ∧ (0, tc.uid) ∈ (s.die 0).preReqs) ∧
    (let s := evState tc (.page 1 9)
     s.crew? 0 0 = some tc ∧ s.group? tg = some (waitingG (.page 1 9)) ∧ tg.hnd = false ∧ tc.stop = none ∧ s.sheafOf tc = [(0, 0)] ∧
     s.inHandlers 0 0 = false ∧ s.framesOk tc = true) ∧
    (let s := evState evCrew (.future [0])
     s.crew? 0 0 = some evCrew ∧ s.saved = [] ∧ evCrew.preempt = true ∧ s.sheafOf evCrew = [(0, 0)] ∧ s.evictable 0 0 false = true ∧
     s.framesOk evCrew = true ∧ s.crewGroups 0 0 ≠ [] ∧ (s.core 0).deferred = []) ∧
    restoreReady (framed 0) = true ∧ restoreReady (framed 3) = true ∧
    ((List.range 32).all fun n => decide (formByte (framed 0) n < 3)) = true ∧ 3 ≤ formByte (framed 3) 31 := by
  decide +kernel

theorem home_mapped {a : Nat} (h : a < 2 ^ 50) : mapped.home a = a := by
  have hw : mapped.poolWins = [] := by decide +kernel
  have hb : mapped.dev.granary.blockAt = 2 ^ 50 := by decide +kernel
  simp only [State.home, hw, List.find?_nil, hb]
  rw [if_neg]
  simp only [Bool.and_eq_true, decide_eq_true_eq, not_and]
  omega
theorem store_reads (s : State) (hh : ∀ a < 2 ^ 50, s.home a = a) (pa : Nat) (bs : List Byte) (h : pa + bs.length < 2 ^ 50) :
    (List.range bs.length).map (fun i => (s.store pa bs).byte ((s.store pa bs).home (pa + i))) = bs := by
  conv_rhs => rw [← State.bytes_store s pa bs]
  refine List.map_congr_left fun i hi => ?_
  rw [show (s.store pa bs).home = s.home from rfl, hh _ (by have := List.mem_range.mp hi; omega)]
theorem length_laidOut (p n : Nat) (vs : List Nat) : (laidOut p n vs).length = n := by simp [laidOut]
/-- Frames that stand as a save lays them out: a header, a group's open bytes, and the part of no sequencer. -/
theorem witness_FrameLaidOut :
    (∀ sv : Saved, let s := mapped.store 0x400000 (laidOut 0 128 (mapped.headVals sv 0))
      s.frameHead 0x400000 = laidOut 0 128 (s.headVals sv 0)) ∧
    (∀ r : Group, let s := mapped.store (0x400000 + 162) (laidOut 4 94 r.waitVals)
      (List.range 94).map (fun i => s.byte (s.home (0x400000 + 162 + i))) = laidOut 4 94 r.waitVals) ∧
    savedOne.seqBytes = 0 := by
  have hh : ∀ a < 2 ^ 50, mapped.home a = a := fun a h => home_mapped h
  refine ⟨fun sv => ?_, fun r => ?_, rfl⟩
  · generalize mapped = s at hh ⊢
    have h := store_reads s hh 0x400000 (laidOut 0 128 (s.headVals sv 0)) (by rw [length_laidOut]; decide)
    rwa [length_laidOut] at h
  · generalize mapped = s at hh ⊢
    have h := store_reads s hh (0x400000 + 162) (laidOut 4 94 r.waitVals) (by rw [length_laidOut]; decide)
    rwa [length_laidOut] at h

/-- A handler group in slot 0 whose lane 3 serves the parked group of slot 5. -/
def hg : Gid := { core := 0, slot := 0, hnd := true }
def handlerG (live : W32) : Group := { tr with uid := 8, kind := .handler false, live := live, exec := 8, orig := List.replicate 32 5 }
def parked : Group := { tr with uid := 4, traps := [{ lane := 3, code := Code.trapsw, pc := 0, inHandler := true }] }
def thnd (live : W32) : State :=
  { ((mapped.putCrew 0 0 tc).putGroup hg (handlerG live)).putGroup { core := 0, slot := 5 } parked with actor := .grp hg, nextId := 10 }
theorem witness_TrapsAndReturn :
    let tF : Fields := { len := .w96, imm := 0x1234 }
    ready tc tr (.trap tF) = true ∧ tr.inHandler = false ∧
    issuesB (.trap tF) (thnd 8) hg (handlerG 8) = true ∧ (thnd 8).contrib (handlerG 8) tF ≠ [] ∧
    ready tc tr (.trapHset { u := true, a := 10, b := 8, fn := 1 }) = true ∧
    ready tc tr (.trapFset { u := true, a := 10, b := 8, fn := 2 }) = true ∧
    ready tc tr (.tret {}) = true ∧ ready tc tr (.tretWr { d := 12, a := 4, fn := 1 }) = true ∧ tr.kind = .own ∧
    (∀ live ∈ [8, 9], let r := handlerG (BitVec.ofNat 32 live)
      let s := thnd (BitVec.ofNat 32 live)
      issuesB (.tret {}) s hg r = true ∧ issuesB (.tretWr { d := 12, a := 4, fn := 1 }) s hg r = true ∧
      s.activeLanes r {} = [3] ∧ r.orig.getD 3 32 = 5 ∧ r.live.getLsbD 3 = true ∧ r.outbox = [] ∧
      s.group? { core := 0, slot := 5 } = some parked ∧ 12 < 32 * parked.gran ∧ s.writesHeld parked [12] = false) ∧
    (8 : W32) = laneMask [3] ∧ (9 : W32) ≠ laneMask [3] := by
  decide +kernel

theorem witness_HandlerGroups :
    let x : TrapLane := { lane := 31, code := Code.trapsw, pc := 0x40, detail := 7, a := 1, b := 2, c := 3 }
    let o : Group := { tr with traps := [x] }
    let s := withGroup tc o
    s.crew? 0 0 = some tc ∧ tc.stop = none ∧ x.lane < 32 ∧ (s.awaiting 0 0).map (fun w => (w.slot, w.grp, w.t)) = [(0, o, x)] ∧
    (s.core 0).trapPool ≠ 0 ∧ s.group? { core := 0, slot := 0, hnd := true } = none ∧ s.group? tg = some o ∧ s.nextId ≠ 0 := by
  decide +kernel

theorem witness_CrewFatalStop :
    let low : Crew := { tc with priv := 0 }
    let s := withGroup low tr
    s.actor = .grp tg ∧ s.group? tg = some tr ∧ (s.crewOf tg tr).priv = 0 ∧
    ((Instr.mov { len := .w96, a := 255 }).form.isSome = true) ∧
    ([Instr.mov { d := 255, a := 1 }, .iadd { d := 255 }, .ffma { d := 255 }, .f2i { d := 255 }, .lxch { d := 255 }, .ld { d := 255, a := 2 },
      .st { a := 2, c := 255 }, .atom { d := 255, a := 2 }, .tld { d := 255, a := 2 }, .cpyo { a := 254, b := 2 }].all fun i =>
      match i.form with | some x => decide (32 * (1 : Nat) < x.shape.extent x.f) | none => false) = true ∧
    -- the group, another that runs and one that waits
    let two := (s.putGroup { core := 0, slot := 31 } { tr with uid := 3, wait := .future [0] }).putGroup { core := 0, slot := 7 } { tr with uid := 4 }
    two.group? tg = some tr ∧ two.crew? 0 0 = some low ∧ low.stop = none ∧ tr.inHandler = false ∧
    (two.group? { core := 0, slot := 31 }).isSome = true ∧ (two.group? { core := 0, slot := 7 }).isSome = true ∧
    (handlerG 8).kind = .handler false ∧ (handlerG 8).inHandler = true ∧ (thnd 8).group? hg = some (handlerG 8) := by
  decide +kernel

/-- Other groups of a crew that stops: one waits, one is between two lanes' steps of an atomic. -/
theorem witness_CrewFatalOthers : ∀ w ∈ [Wait.future [0], .atom [(31, 0, 0x6010)] [(0, 0, 0x6010, false)], .none],
    let s := (withGroup tc tr).putGroup { core := 0, slot := 31 } { tr with uid := 3, wait := w }
    (s.group? { core := 0, slot := 31 }).isSome = true ∧ (Wait.future [0]).midway = false ∧
    (Wait.atom [(31, 0, 0x6010)] [(0, 0, 0x6010, false)]).midway = true := by
  decide +kernel

def stop7 (id : Option Nat) (ended : Bool) : Stop := { frec := { code := Code.illreg }, core := 0, slot := 0, recId := id, ended := ended, slots := [0] }
def stopped (st : Stop) : Crew := { tc with stop := some st }
def stoppedG : Group := { tr with halt := { cause := 7 } }
theorem witness_FatalHandler :
    (let st := stop7 none false
     let s := withGroup (stopped st) stoppedG
     s.crew? 0 0 = some (stopped st) ∧ st.recId = none ∧ s.allStopped 0 0 = true ∧ st.others = []) ∧
    (let st := stop7 (some 6) false
     let s := withGroup (stopped st) stoppedG
     s.crew? 0 0 = some (stopped st) ∧ s.pendingRec 6 = false ∧ st.ended = false ∧ st.handler = false ∧
     (s.abandon 0 0 (stopped st)).settled 0 0 (stopped st) = true ∧ (s.core 0).trapPool ≠ 0 ∧
     (s.abandon 0 0 (stopped st)).fatalSlot 0 st = some 0) ∧
    (let st := stop7 (some 6) true
     let s := withGroup (stopped st) stoppedG
     s.crew? 0 0 = some (stopped st) ∧ s.pendingRec 6 = false ∧ st.ended = true ∧ ∀ e ∈ s.crewGroups 0 0, e.2.outbox = []) := by
  decide +kernel

theorem witness_DumpAndErrorInjection :
    let f : Fields := { u := true, d := 12, a := 2, b := 4 }
    let e : Fields := { u := true, d := 10, a := 2, b := 4 }
    let fatal : Group := { tr with kind := .fatal false }
    ready tc tr (.dump f) = true ∧ tr.kind = .own ∧ ready tc fatal (.dump f) = true ∧
    (let s := withG (withGroup tc fatal) 2 0x1008
     issuesB (.dump f) s tg fatal = true ∧ (s.gr fatal 2).toNat % 64 ≠ 0) ∧
    (∀ t ∈ [2, 3, 4, 5, 255], issuesB (.errinj e) (withG ts 2 (BitVec.ofNat 64 t)) tg tr = true ∧ ((withG ts 2 (BitVec.ofNat 64 t)).gr tr 2).toNat % 256 = t) ∧
    (ts.gr tr 4).toNat < ts.dev.granary.memb ∧ ts.dev.granary.memb ≤ ((withG ts 4 0x80000000000).gr tr 4).toNat := by
  decide +kernel

/-- A crew whose sequencer runs, with four groups; M2 = 0x40 and M3 = 32. -/
def qc : Crew := { tbar two with seqr := { exists_ := true, running := true, mfmt := 0x44, m := (List.replicate 16 0).set 2 0x40 |>.set 3 32 } }
def tseq : State :=
  (List.range 4).foldl (fun s i => s.putGroup { core := 0, slot := i } { tr with uid := 2 + i, grp := i })
    { mapped.putCrew 0 0 qc with actor := .seq 0 0, nextId := 10 }
def passF : Fields := { len := .w128, u := true, d := 4, a := 2, b := 3, fn := 1 }
def passOp (kind : Nat) (granted : Bool) : Op :=
  { core := 0, crew := 0, uid := 1, asid := 1, pc := 0, kind := kind, fields := passF, ops := [0, 0x40, 32, 0], mfmt := 0x44, granted := granted }
theorem witness_SequencerInstructions :
    tseq.actor = .seq 0 0 ∧ tseq.crew? 0 0 = some qc ∧ qc.seqr.m.length = 16 ∧
    ((qc.seqr.m.getD 2 0).toNat % 8 = 0 ∧ 0x40 + 8 * 16 ≤ qc.hold.sg * 16384 ∧ tseq.scoreboarded 1 0x40 128 = false ∧ 0 + 16 ≤ 16) ∧
    fmtReserved ((qc.seqr.m.getD 2 0).setWidth 16) = false ∧ tseq.ops = [] ∧
    (∃ x ∈ ({ tseq with ops := [(4, passOp 0 true)] } : State).ops, x.2.uid = qc.uid) ∧
    (∀ n ∈ [0, 7], let got : Tab (List Byte) := (List.range n).map fun i => (4 + i, List.replicate 16 0)
      let units := (List.range 16).map fun t => (0x40 + 8 * t) / 16
      (units.any fun u => (tfind got u).isNone) = true ∧ (n = 7 → (units.all fun u => (tfind (tput got 11 []) u).isSome) = true)) ∧
    (qc.bars.getD 1 {}).init = true ∧ (qc.bars.getD 1 {}).arr ≠ (qc.bars.getD 1 {}).exp ∧
    (qc.bars.getD 1 {}).arr + 1 ≠ (qc.bars.getD 1 {}).exp ∧ (qc.bars.getD 1 {}).phase = false ∧ tc.bars.getD 1 {} = {} := by
  decide +kernel

theorem witness_MatrixPosting :
    tseq.actor = .seq 0 0 ∧ tseq.crew? 0 0 = some qc ∧ tseq.busyStreams 1 < qc.hold.ms ∧
    (∀ k ∈ [0, 1], passFmtx 0x44 (k = 1) 0 = decide (k = 1) ∧ ((passOp k false).k ≤ 256 * (passOp k false).perReg) ∧
      ((passOp k false).bRegs.all fun n => decide (n < 32 * tr.gran)) = true) ∧
    passFmtx 0x0144 true 0 = false ∧ 32 % scaleLen (geomOf 0x0144) = 0 ∧ qc.seqr.mfmt = 0x44 ∧
    128 * 1 ≤ 384 * qc.hold.ms ∧ (qc.seqr.m.getD 2 0).toNat % 16 = 0 ∧
    (List.range 4).map (fun k => tseq.matrixGroup 0 0 qc (0x3210 / 2 ^ (4 * k) % 16)) =
      ((List.range 4).map fun i => some { tr with uid := 2 + i, grp := i }) ∧
    qc.hold.ms ≤ ({ tseq with ops := [(4, passOp 0 true)] } : State).busyStreams 1 ∧
    0 + (383 + 1) ≤ 384 * qc.hold.ms ∧ (qc.seqr.m.getD 3 0).toNat % 2 ^ 32 % 16 = 0 := by
  decide +kernel

theorem witness_SegmentsAreExact :
    let as : List Int := [127, -128, 5]
    let bs : List Int := [127, 127, -1]
    as.length = bs.length ∧ (List.zipWith (· * ·) as bs).sum < 8388480 ∧ -8388480 ≤ (List.zipWith (· * ·) as bs).sum := by decide

theorem witness_EngineEvents :
    let on := fun (o : Op) => ({ tseq with ops := [(4, o)] } : State)
    let p := passOp 0 false
    let q := passOp 0 true
    let z := passOp 2 false
    (on p).ops = [(4, p)] ∧ p.isPass = true ∧ p.granted = false ∧ p.stall = none ∧ (on p).opReady 4 p = true ∧ p.nrows ≤ 512 ∧
    ((on p).engine 0).resetting = false ∧ ((on p).engine 0).unusable = false ∧
    (q.granted = true ∧ q.hang = false ∧ q.pos < q.nseg ∧
      (match (on q).aUnits q 0 (min (segLen 0) 32) with | .ok x => x.length != 0 | _ => false) = true) ∧
    tsorted tseq.groups = true ∧ (∀ e ∈ tseq.crewGroups 0 0, e.2.live ≠ 0 ∧ e.2.kind = .own) ∧ passF.immBits 43 43 = 0 ∧
    ({ q with pos := 9 } : Op).nseg ≤ 9 ∧ q.nseg ≠ 0 ∧ (on z).opReady 4 z = true ∧ z.kind = 2 ∧
    ({ passOp 5 true with did := List.range (passOp 5 true).beats } : Op).did.length = (passOp 5 true).beats ∧
    ((tseq.putEngine 0 { resetting := true, failed := [1] }).engine 0).resetting = true ∧
    (let h : Op := { q with hang := true }
     (on h).ops = [(4, h)] ∧ h.hang = true ∧ (on h).crew? 0 0 = some qc ∧ qc.stop = none) := by
  decide +kernel

/-- The other group in slot 5: WHO 0x50000, in G10 of the first. -/
def og : Gid := { core := 0, slot := 5 }
def other (h : HaltInfo) : Group := { tr with uid := 4, halt := h }
def dbg (r : Group) (h : HaltInfo) : State := withG ((withGroup tc r).putGroup og (other h)) 10 0x50000
def targets (s : State) (x : Group) : Bool :=
  match s.target? 0x50000 with | some t => t.g == og && t.r == x && t.part.isNone | none => false
theorem witness_BreakpointsAndPredicates :
    ready tc tr (.bkpt { len := .w96, u := true, imm := 0x63 }) = true ∧ tr.halt.cause = 0 ∧
    ready tc tr (.bkptCrew { len := .w96, u := true, fn := 1, imm := 1 }) = true ∧ tg.slot < 32 ∧
    (let s := (dbg tr {}).putGroup { core := 0, slot := 31 } { tr with uid := 5, wait := .future [0] }
     (s.group? og).isSome = true ∧ (s.group? { core := 0, slot := 31 }).isSome = true ∧ (other {}).bcast = none ∧ (other {}).wait = .none) ∧
    (∀ n ∈ [0, 8, 15], ready tc tr (.wpset { len := .w128, u := true, d := 8, a := 12, b := 12, c := 4, imm := BitVec.ofNat 64 n }) = true ∧
      ready tc tr (.wpclr { len := .w128, u := true, d := 8, imm := BitVec.ofNat 64 n }) = true) ∧
    ctlOk ((ts.core 0).watch) 8 (ts.gr tr 12) = true ∧
    (∀ n ∈ [0x4, 0x14, 0x24, 0x3F], ready tc tr (.wprd { len := .w128, u := true, d := 10, imm := BitVec.ofNat 64 n }) = true) ∧
    (let s := (dbg tr {}).modCore 0 fun c => { c with sheafHalts := [0] }
     0 ∈ (s.core 0).sheafHalts ∧ s.crew? 0 0 = some tc) := by
  decide +kernel

theorem witness_Inspection :
    (∀ n ∈ [0, 1, 3, 4, 5, 6, 10, 11, 12],
      let sel := n * 2 ^ 28 + (if n = 0 then 31 * 2 ^ 16 + 255 else 0)
      ∀ h ∈ [({ cause := 5 } : HaltInfo), {}], let s := dbg tr h
        (n < 2 ∨ n = 3 ∨ n = 4 ∨ n = 5 ∨ n = 6 →
          issuesB (.hwr { len := .w96, u := true, d := 10, a := 10, b := 1, imm := BitVec.ofNat 64 sel }) s tg tr = true) ∧
        issuesB (.hrd { len := .w96, u := true, d := 8, a := 10, c := 3, imm := BitVec.ofNat 64 sel }) s tg tr = true) ∧
    (∀ h ∈ [({ cause := 5 } : HaltInfo), {}], targets (dbg tr h) (other h) = true ∧ (dbg tr h).group? og = some (other h) ∧
      ((dbg tr h).crewOf og (other h)).asid = ((dbg tr h).crewOf tg tr).asid ∧ (dbg tr h).gr tr 10 = 0x50000) ∧
    gidKey og ≠ gidKey tg ∧ (other {}).home 31 ≠ 0 ∧ (other {}).orig = [] ∧ (other {}).stepper = none ∧ 255 < 32 * (other {}).gran := by
  decide +kernel

theorem witness_SteppingAndResuming :
    let h : HaltInfo := { cause := 5 }
    let s := dbg tr h
    targets s (other h) = true ∧ s.group? og = some (other h) ∧ (other h).traps = [] ∧ (other h).live.getLsbD 5 = true ∧
    issuesB (.hstep { len := .w96, u := true, d := 12, a := 10 }) s tg tr = true ∧
    issuesB (.hstepLane { len := .w96, u := true, d := 12, a := 10, fn := 1, imm := 0x805 }) s tg tr = true ∧
    issuesB (.hres { u := true, d := 4, a := 10 }) s tg tr = true ∧ issuesB (.hresCrew { u := true, d := 4, a := 10, fn := 1 }) s tg tr = true ∧
    issuesB (.hresSheaf { u := true, d := 4, a := 10, fn := 2 }) s tg tr = true ∧ s.crew? 0 0 = some tc ∧
    -- the report of a step
    ∀ e ∈ [(32, 1, 0, (0 : W32)), (5, 8, 7, 0), (5, 8, 0, 0x20), (5, 8, 0, 0)],
      let d : Group := { tr with wait := .hstep (gidKey og) e.1 e.2.1 e.2.2.1 0, ins := { u := true, d := 12, a := 10 } }
      let r : Group := { other h with stepper := some (gidKey tg + 1) }
      let x : Group := { r with halt := {} }
      let s := (dbg d h).putGroup og r
      let s' := (dbg d h).putGroup og x
      s.group? (keyGid (gidKey tg)) = some d ∧ s'.group? og = some x ∧ s'.group? (keyGid (gidKey tg)) = some d ∧ gidKey tg ≠ gidKey og ∧
        tc.stop = none ∧ x.live ≠ 0 ∧ x.wait = .none ∧ d.halt.cause = 0 ∧ s'.cores = [] ∧
        ((e.1 < 32 ∧ e.2.2.2.getLsbD e.1 = true) ∨ e.1 = 32 ∨ e.2.1 ≤ e.2.2.1 + 1 ∨ (e.1 < 32 ∧ e.2.2.1 + 1 < e.2.1 ∧ x.traps = [])) := by
  decide +kernel

theorem witness_SnapshotsProbesTraces :
    ready tc tr (.snap { u := true }) = true ∧ ready tc tr (.probe { len := .w96, u := true, d := 9, fn := 2, imm := 0x12 }) = true ∧
    ready tc tr (.trace { len := .w96, u := true, a := 10, imm := 0x40 }) = true ∧
    (∀ held : Bool, ({ ts with dev := { ts.dev with snap := { held := held, pending := 2 } } } : State).dev.snap.pending ≠ 0) ∧
    (let r : Group := { tr with probes := [(0x12, 2, 9)] }
     (withGroup tc r).group? tg = some r ∧ tg.slot < 32 ∧ tsorted (withGroup tc r).groups = true ∧
     (withGroup tc r).groups.map (·.1) = [gidKey tg] ∧ (withGroup tc r).crews.map (fun e => e.2.parts) = [[]]) := by
  decide +kernel

/-- Partition 0 on, faults of address space 1 to a ring of 16 records at 0x1000, which is pinned; one record. -/
def aRec : FRec := { code := Code.illreg, asid := 1 }
def tfault (w rd : Nat) : State :=
  { (((((mapped.storeWord 0x4008 8 0x6017).setCtl 0x2008 0x8000000000001001).setCtl 0x2010 0x400000000).storeWord 0x6000 8 w).storeWord
      0x6008 8 rd) with records := [(0, aRec)] }
/-- Die 0's page-table update of page 1 of address space 1 at level 1, from 0x6007 to 0x7007. -/
def tpte (old : W64) : State :=
  (((mapped.setCtl 0x4400 0x1001).setCtl 0x4408 1).setCtl 0x4410 old).setCtl 0x4418 0x7007
theorem witness_TenancyAndTranslation :
    bitOf (0x8000000000000001 : W64) 63 = true ∧ bitOf (1 : W64) 63 = false ∧ ts.asidLive 1 = true ∧ ts.asidBusy 1 = true ∧
    mapped.asidBusy 1 = false ∧
    (let s := ts.modCore 0 fun c => { c with samples := [9] }
     9 ∈ (s.core 0).samples ∧ s.hasHeat 9 = true) ∧
    (∀ n ∈ [0, 1], ready tc tr (.heatrd { u := true, d := 2, a := 8, fn := n }) = true) ∧
    (∀ w ∈ [0, 15, 16],
      let s := tfault w 0
      s.records.find? (fun x => x.1 = 0) = some (0, aRec) ∧ s.ringRead noCore 1 0x1000 8 = some w ∧ s.ringRead noCore 1 0x1008 8 = some 0 ∧
      bitOf (s.partd 0 2) 46 = false ∧ aRec.informational = false ∧ bitsOf (s.partd 0 2) 36 32 = 4 ∧
      ((s.ringWrite noCore 1 (0x1000 + 64 + 64 * (w % 16)) aRec.bytes).bind fun s1 =>
        s1.ringWrite noCore 1 0x1000 (leBytes 8 (w + 1))).isSome = true) ∧
    ts.launches = [] ∧ (waitingG (.page 1 9)).outbox = [] ∧ (withGroup tc (waitingG (.page 1 9))).group? tg = some (waitingG (.page 1 9)) ∧
    (∀ old ∈ [0x6007, 0x6003],
      let s := tpte (BitVec.ofNat 64 old)
      s.malformed 1 0x1000 1 (s.pte 0 3) = false ∧ bitsOf (s.pte 0 0) 1 0 = 1 ∧
      (match s.reach 0 1 0x1000 1 4 with | .ok (_, ea) => ea == 0x4008 | _ => false) = true ∧ s.word 0x4008 8 = 0x6007 ∧
      bitOf (s.pte 0 2) 7 = false ∧ bitOf (s.pte 0 3) 7 = false ∧ ((tfind s.dies 0).getD {}).pteBusy = false) ∧
    ((tpte 0).setCtl 0x4418 0x207).malformed 1 0x1000 1 (((tpte 0).setCtl 0x4418 0x207).pte 0 3) = true ∧
    (let d : Die := { pteBusy := true, pteAsid := 1, pteVa := 0x1000, pteLvl := 1 }
     tfind ({ ts with dies := [(0, d)] } : State).dies 0 = some d) := by
  decide +kernel
/-- The walk of an update finds the entry without splintering, so the state is as before. -/
theorem witness_reach : (tpte 0x6007).reach 0 1 0x1000 1 4 = .ok (tpte 0x6007, 0x4008) := by rfl

/-- Queue 3, of address space 1, in host memory at 0x1000, 16 slots; the device is up. -/
def tque (w0 : Nat) (l : Lane) : State :=
  { ((((ts.setCtl 0x10C0 (BitVec.ofNat 64 w0)).setCtl 0x10C8 0x1000).setCtl 0x10D0 4).hstore 0x1080 (leBytes 8 1)) with
    lanes := [(3, l)], dev := { ts.dev with up := true, round := [] } }
def onHost : Nat := 0x8100000000000001
/-- A packet of a type, with words at 0x10 and 0x18. -/
def packet (t a v : Nat) : List Byte := leBytes 8 1 ++ leBytes 8 t ++ leBytes 8 a ++ leBytes 8 v ++ List.replicate 96 0
def tpkt (t a v : Nat) : State := let s := tque onHost { pkt := some (packet t a v) }; { s with dev := { s.dev with round := [3] } }
theorem witness_HostQueues :
    (let s := tque onHost {}
     s.laneLive 3 = true ∧ s.laneKind 3 = false ∧ (s.lane 3).pkt = none ∧ (s.lane 3).ib = [] ∧ s.ringHost 3 = true ∧
     s.hword (s.ringAddr 3 + 128) 8 = 1 ∧ s.hword (s.ringAddr 3 + 64) 8 = 0) ∧
    (let s := tque onHost { pkt := some (packet 0 0 0) }
     s.dev.round.filter s.holds = [] ∧ (List.range 64).filter s.holds = [3] ∧ pktBad (s.pktOf 3) = false) ∧
    (∀ t ∈ [0, 1, 2, 3, 4, 5, 6], let s := tpkt t 0x1080 5
      s.dev.round = [3] ∧ s.holds 3 = true ∧ (s.lane 3).pkt = some (packet t 0x1080 5) ∧ (s.lane 3).ib = [] ∧
      0x1080 % 128 = 0 ∧ (s.homeLoad noCore 1 0x1080 4 Acc.queue).toOption.isSome = true ∧
      (s.homeStore (.lane 3) noCore 1 0x1080 Acc.store (leBytes 4 5)).toOption.isSome = true) ∧
    (let s := tque 0xC800000000000001 {}
     bitOf (s.hqd 3 0) 59 = true ∧ s.laneKind 3 = true) ∧
    (let q := (tq 1 0 1).setCtl 0x2808 0x1041
     let s := { q.setCtl 0x10C0 0xC000000000000001 with dev := { q.dev with up := true } }
     s.laneLive 3 = true ∧ s.laneKind 3 = true ∧ bitOf (s.dlqd (s.lanePart 3)) 0 = true ∧ s.dlqDesc (s.lanePart 3) = 0x1040 ∧
     (s.lane 3).taken = none ∧
     (match (s.putLane 3 { s.lane 3 with addr := 0x1040 }).qTake (.lane 3) noCore 1 0x1040 Acc.queue with | .took _ i => i == 0 | _ => false) = true ∧
     (match (s.putLane 3 { s.lane 3 with addr := 0x1040, taken := some 0 }).qEmpty (.lane 3) noCore 1 0x1040 Acc.queue 0 with
       | .done _ _ => true | _ => false) = true) := by
  decide +kernel

theorem witness_HostAccesses :
    (let s := ts.setCtl 0x4820 0x8000000000000000
     bitOf (s.ctlw 0x4820) 63 = true ∧ 8 + 8 ≤ s.dev.granary.memb ∧ s.inLattice 8 8 = false ∧ s.softErr = []) ∧
    bitOf (ts.ctlw 0x4820) 63 = false ∧
    (let s := ts.setCtl 0x4E10 1
     s.poolRefused 0 0 0x8001000000000000 true = false ∧ bitOf (0x8001000000000000 : W64) 63 = true ∧ bitOf (s.ctlw 0x4E00) 63 = false) := by
  decide +kernel

theorem witness_PowerAndClocks :
    (let s := { ts with dev := { ts.dev with power := false }, agenda := [.issue tg false] }
     s.dev.power = false ∧ s.agenda = .issue tg false :: []) ∧
    (let s := { ts with dev := { ts.dev with hold := true }, agenda := [.issue tg false] }
     s.dev.hold = true ∧ s.agenda = .issue tg false :: []) ∧
    ts.dev.granary.cstep < 7 ∧ mapped.crews = [] ∧
    ({ ts with dev := { ts.dev with granary := { ts.dev.granary with coolPeriod := true } } } : State).dev.granary.coolPeriod = true := by
  decide +kernel

def mbx (a : List Nat) (s : State) : State :=
  (List.range a.length).foldl (fun s k => s.setCtl (0x5008 + 8 * k) (BitVec.ofNat 64 (a.getD k 0))) s
def gran (s : State) (f : Granary → Granary) : State := { s with dev := { s.dev with granary := f s.dev.granary } }
theorem witness_Mailbox :
    (let s := ts.setCtl 0x5028 0x8000000000000000
     bitOf (s.ctlw 0x5028) 63 = true ∧ s.dev.granary.hstep = none ∧ s.ctlw 0x5000 ≠ 0x12) ∧
    bitOf (ts.ctlw 0x5028) 63 = false ∧ (gran ts fun g => { g with recovery := true }).dev.granary.recovery = true ∧
    (let s := mbx [7, 1, 0x6000] (gran ts fun g => { g with log := [List.replicate 32 1], logFirst := 7 })
     s.dev.granary.logFirst ≤ 7 ∧ 7 + 1 ≤ s.dev.granary.logFirst + s.dev.granary.log.length ∧ 0x6000 + 32 ≤ s.dev.granary.memb ∧
     s.inLattice 0x6000 32 = false) ∧
    (let s := mbx [16, 0x6000, 32] (gran ts fun g => { g with staged := some ([], 48) })
     s.dev.granary.staged = some ([], 48) ∧ 16 + 32 ≤ 48 ∧ 0x6000 + 32 ≤ s.dev.granary.memb ∧ s.inLattice 0x6000 32 = false) ∧
    ts.dev.granary.staged = none ∧ ts.dev.granary.recovery = false ∧
    (∀ h ∈ [({} : HaltInfo), { cause := 5 }],
      let s := mbx [0x50000, 0] (dbg tr h)
      targets s (other h) = true ∧ (s.ctlw 0x5008) = 0x50000 ∧ bitOf (s.ctlw 0x5010) 0 = false) ∧
    (mbx [0x50000, 0x60000000, 0x40] (dbg tr { cause := 5 })).ctlw 0x5010 = 0x60000000 ∧ (other {}).traps = [] ∧ (other {}).wait = .none ∧
    (ts.target? 0x12345678).isNone = true ∧ ts.saved = [] ∧ ts.crews = [(crewKey 0 0, tc)] ∧ tc.asid = 1 ∧ tc.tentative = false := by
  decide +kernel

theorem witness_DecodeEncodeAgree :
    (∀ e ∈ integerWords, e.2.form.isSome = true ∧ e.2.wf = true) ∧ (∀ e ∈ matrixWords, e.2.form.isSome = true ∧ e.2.wf = true) ∧
    (match decode false (encode (.iadd { d := 7, a := 3, b := 2 }) ++ [1]) with
      | .ok (i, rest) => decide (i = .iadd { d := 7, a := 3, b := 2 }) && rest == [1] | .error _ => false) = true := by
  decide +kernel

theorem witness_StepKeepsMemory : State.reset.memWf := reset_memWf

/-- IADD V7 := V3 + V2, alone at the PC, as the host places it. -/
def placed : State := State.reset.withFetchWord 64 0x2030700090
def placedGroup : Group := { crew := 0, uid := 2 }
def placedSeq : State := State.reset.withFetchWord 128 0x646
def fetchesB (s : State) (core asid b : Nat) (matrix : Bool) (i : Instr) : Bool :=
  match s.fetchBlock core asid b with
  | .ok (_, bs) => bs.length == 32 && (match decode matrix bs with | .ok (j, _) => decide (j = i) | .error _ => false)
  | .error _ => false
theorem witness_StepRunsDecoded :
    (placed.agenda = [.issue tg true] ∧ placed.dev.power = true ∧ placed.dev.hold = false ∧ placed.group? tg = some placedGroup ∧
      placedGroup.live ≠ 0 ∧ placedGroup.traps = [] ∧ (placed.crewOf tg placedGroup).saving = false ∧ placedGroup.firmware = false ∧
      placedGroup.wait = .none ∧ placedGroup.halt.cause = 0 ∧ placedGroup.stepper = none ∧ placedGroup.bcast = none ∧
      placedGroup.pcBad = false ∧ placedGroup.pc = 0 ∧
      fetchesB { placed with agenda := [], refetch := true } 0 placedAsid 0 false (.iadd { d := 7, a := 3, b := 2 }) = true) ∧
    (let r : Group := { waitingG (.future [0]) with cur := .fregWait { d := 8, a := 12, c := 12, fn := 1 } }
     let s := { withGroup tc { r with wait := .spawn } with agenda := [.issue tg false] }
     s.group? tg = some { r with wait := .spawn } ∧ (Wait.spawn).polled = true ∧ r.halt.cause ≠ 7 ∧
     (match r.cur.form with | some x => !x.matrix | none => false) = true) ∧
    (placedSeq.agenda = [.seq 0 0 true] ∧ (match placedSeq.crew? 0 0 with
        | some c => c.seqr.exists_ && c.seqr.running && !c.seqr.halted && !c.tentative && !c.saving && c.seqr.mpc == 0
        | none => false) = true ∧
      fetchesB { placedSeq with agenda := [], refetch := true } 0 placedAsid 0 true (.msync { len := .w128, u := true }) = true) ∧
    (let s := { ts with agenda := [.event .tick false] }
     s.agenda = .event .tick false :: [] ∧ s.dev.power = true ∧ Instr.tick.form.isNone = true) ∧
    tfind (ts.core 0).icache (2 ^ 48) = none ∧ ts.softErr = [] ∧ ts.agenda = [] ∧
    -- a cached block, whose page is code, and one whose page is not mapped
    (∀ b ∈ [0, 0x9000], let s := ts.modCore 0 fun c => { c with icache := [(2 ^ 48 + b, List.replicate 32 7)] }
      s.refetch = false ∧ tfind (s.core 0).icache (2 ^ 48 + b) = some (List.replicate 32 7) ∧
      (match s.translate 0 1 b Acc.fetch false true with | .ok _ _ => b == 0 | .fault _ => b == 0x9000 | _ => false) = true) := by
  decide +kernel

theorem witness_IssueChecks :
    let low : Crew := { tc with priv := 0 }
    let i : Instr := .hrd { len := .w96, u := true, d := 8, a := 10, c := 3 }
    let held : State := { ts with ops := [(4, { passOp 0 true with uids := [2], held := [7] })] }
    let add : Instr := .iadd { d := 7, a := 3, b := 2 }
    i.form.isSome = true ∧ (withGroup low tr).actor = .grp tg ∧ (withGroup low tr).group? tg = some tr ∧
    ((withGroup low tr).crewOf tg tr).priv < needsLevel i ∧ (∀ e ∈ ts.crews, ∀ b ∈ e.2.bars, b.complete = false) ∧
    needsLevel add ≤ tc.priv ∧
    (match add.form with
      | some x => !x.matrix && decide (32 * (0 : Nat) < x.shape.extent x.f) && decide (x.shape.extent x.f ≤ 32 * tr.gran) &&
          !x.f.u && held.writesHeld tr (x.shape.writes x.f)
      | none => false) = true ∧
    ((withGroup tc { tr with q := 0 }).guard tr { u := true, guard := .on false 1 } 0) = false := by
  decide +kernel

/-- A group whose wait has ended as a halt reaches it, and a fetch over no link. -/
theorem witness_EndedFirst :
    let r : Group := waitingG .grant
    let s := withGroup tc r
    let x : Group := { r with halt := { cause := 3, waiting := true } }
    s.group? tg = some r ∧ (withGroup tc x).group? tg = some x ∧ r.halt.cause = 0 ∧ r.bcast = none ∧ s.waitEnds tg r = true ∧
    tg.slot < 32 ∧ (∀ e ∈ s.groups, e.2.halt.cause = 0) ∧ placedGroup.linkBad = false := by
  decide +kernel

/-! ### Accesses that fail -/

/-- Page 3 of address space 1 is pending, and page 4 is read only; region 0 lies at 0x10000, and a range at 0x20000 is
gone. -/
def tbad : State :=
  { (ts.storeWord 0x4018 8 0x20).storeWord 0x4020 8 0x8003 with
    regions := [(0, { asid := 1, base := 0x10000, lines := 64, typ := 1 })], goneRanges := [(1, 0x20000, 0x21000)] }
def badCode (c : LChk) : Nat := match c with | .bad fr => fr.code | _ => 0
theorem witness_AccessChecks :
    let c (a : W64) (w : Bool) := tbad.chkGlobal 0 1 a 4 4 (if w then Acc.store else Acc.load) w
    tbad.asidLive 1 = true ∧ tbad.asidLive 7 = false ∧ (tbad.region? 1 0x10000).isSome = true ∧ tbad.region? 1 0x1000 = none ∧
    tbad.goneAt 1 0x20000 = true ∧ tbad.goneAt 1 0x1000 = false ∧ tbad.answers 0x4000 = true ∧ tbad.answers (2 ^ 51) = false ∧
    (tbad.setCtl 0x10008 0x8008000000000000).answers ((tbad.setCtl 0x10008 0x8008000000000000).rootOf 1) = false ∧
    -- the checks' own results, by the rules' words
    badCode (c 0x1002 false) = Code.addrv ∧ badCode (c 0x1000000000000 false) = Code.addrv ∧ badCode (c 0x10000 true) = Code.nonmono ∧
    badCode (c 0x20000 false) = Code.addrv ∧ badCode (c 0x3000 false) = Code.pagef ∧ badCode (c 0x5000 false) = Code.addrv ∧
    badCode (c 0x4000 true) = Code.addrv ∧ isOk (c 0x4000 false) 0x8000 = true ∧ isOk (c 0x1010 true) 0x6010 = true := by
  decide +kernel
/-- G2 is an address that no lane may access: outside every page, pending, or in a range that a copy locks. -/
def badAt (a : W64) : State := withG tbad 2 a
theorem witness_FailingAccesses :
    (∀ a ∈ [0x5000, 0x3000], let s := badAt (BitVec.ofNat 64 a)
      s.crew? 0 0 = some tc ∧ tc.stop = none ∧ tr.inHandler = false ∧ issuesB (.ld ldF) s tg tr = true ∧ issuesB (.st stF) s tg tr = true ∧
      issuesB (.atom atF) s tg tr = true ∧ issuesB (.ldb { d := 4, a := 2, b := 4, ka := true, kb := true }) s tg tr = true ∧
      issuesB (.stb { c := 8, a := 2, b := 4, ka := true, kb := true }) s tg tr = true ∧
      issuesB (.ldc ldF) s tg tr = true ∧ issuesB (.ldc { ldF with u := true, ka := false }) s tg tr = true ∧
      (s.contrib tr ldF) ≠ [] ∧ (s.activeLanes tr ldF).all (fun l => !s.loadBlocked tr 4 (s.chkWord tg tr (s.addr tr ldF true l) 4 Acc.load false)) = true ∧
      (s.contrib tr ldF).all (fun l => badCode (s.chkWord tg tr (s.addr tr ldF true l) 4 Acc.load false) ==
        if a = 0x5000 then Code.addrv else Code.pagef) = true) ∧
    -- scratch beyond the crew's granules, and the lattice instructions outside every region
    (let s := badAt 0x8000
     issuesB (.lds ldF) s tg tr = true ∧ issuesB (.sts stF) s tg tr = true ∧ issuesB (.atoms atF) s tg tr = true ∧
     (s.contrib tr ldF).all (fun l => badCode (s.chkScratch tg tr (s.addr tr ldF false l) 4 4 Acc.load false) == Code.addrv) = true ∧
     issuesB (.jst (ljF 1)) s tg tr = true ∧ issuesB (.mst (ljF 1)) s tg tr = true ∧ issuesB (.tld (ltF 1)) s tg tr = true ∧
     issuesB (.tldt (ltdF 1)) s tg tr = true ∧ issuesB (.lpeek { ltF 1 with b := 0, kb := false }) s tg tr = true ∧
     (s.contrib tr (ljF 1)).all (fun l => badCode (s.chkLat 1 (ljF 1) (s.latAddr tr (ljF 1) false l) Acc.store) == Code.addrv) = true) := by
  decide +kernel

/-! ### Further witnesses: the forms that the clauses above do not reach -/

theorem witness_calm : tr.linkBad = false ∧ tr.probes = [] ∧ (withGroup tc tr).crews.map (fun e => e.2.parts) = [[]] ∧
    (∀ k, tfind State.reset.crews k = none) ∧ (List.range 128).all (fun i => plainKey (0x6000 + i)) = true := by
  exact ⟨rfl, rfl, by decide +kernel, fun k => by rfl, by decide +kernel⟩

/-- A packed group. -/
def npG : Group := { tr with kind := .packed 1 0, homes := List.replicate 32 (2, 0) }
def isOkS (x : Except FRec State) : Bool := match x with | .ok _ => true | .error _ => false

theorem witness_CopyResolves :
    let c : Copy := { aCopy with did := [0, 1], bar := some 1, fut := some 0x1010 }
    let s := withCopy c
    let k := tbar two
    let done : State := { s with copies := tput s.copies 7 { c with arrived := true, ranges := [] } }
    let u := (done.putCrew 0 0 { k with bars := k.bars.set 1 { k.bar 1 with
      arr := (k.bar 1).arr + 1, pend := (k.bar 1).pend - BitVec.ofNat 32 c.bytes } }).barSettle 0 0 1
    tfind s.copies 7 = some c ∧ c.stall = none ∧ c.did.length = c.n ∧ s.crew? 0 0 = some k ∧ (k.bar 1).init = true ∧
    (k.bar 1).arr ≠ (k.bar 1).exp ∧ isOkS (u.workResolve (.copy 7) 1 0x1010 2 32 c.pc) = true ∧
    s.beatAhead { c with did := [] } [0x1020] = false := by
  decide +kernel

theorem witness_FullTestEnds : ∀ fell safe : Bool,
    let r : Group := { tr with wait := .grant }
    let s := (tense r).modCore 0 fun x => { x with test := some ({ slot := 0, crew := 0, req := { sg := 4 } }, safe), fell := fell }
    (s.core 0).test = some ({ slot := 0, crew := 0, req := { sg := 4 } }, safe) ∧ (s.core 0).fell = fell ∧
    s.crew? 0 0 = some greedy ∧ waitsB s tg r = true ∧ ∀ e ∈ greedy.rgq, e.1 ≠ 0 := by
  decide +kernel

theorem witness_GranulesWaited :
    let c : Crew := { tc with rgq := [(0, 3)], free := 0 }
    let r : Group := { tr with gran := 4, wait := .rgclm 3 }
    let gr (n : Nat) : Fields := { len := .w96, u := true, imm := BitVec.ofNat 64 n }
    (withGroup c r).crew? 0 0 = some c ∧ waitsB (withGroup c r) tg r = true ∧ 3 ≤ c.free + 3 ∧
    ready { tc with rgq := [(5, 1)] } { tr with gran := 4 } (.rgclm (gr 4)) = true ∧
    ready { tc with rgq := [(5, 1)] } tr (.rgsur (gr 7)) = true ∧ ready { tc with rgq := [(5, 1)] } tr (.claim (claimF 0x100104)) = true := by
  decide +kernel

/-- The step of a join, with and without `.rel`, of every type, of one lane and of two on one cell; and MST against the
order. -/
theorem witness_JoinSteps :
    (∀ typ ∈ [1, 2, 3, 4, 5, 7, 8, 9, 10], ∀ rel : Bool, ∀ ls ∈ [[0, 31], [31]],
      let f : Fields := { ljF typ with fn := BitVec.ofNat 9 (typ + if rel then 64 else 0) }
      let r : Group := { tr with wait := .join ls rel, ins := f }
      let s := { tl typ 3 with groups := (withGroup tc r).groups }
      continuesB (.jst f) s tg r = true ∧ continuesB (.mst f) s tg r = true ∧ r.outbox = [] ∧ (f.fnBits 6 6 == 1) = rel ∧
      ∀ l ∈ ls, latAt (s.chkLat 1 f (s.addrPlain r f true l) Acc.store) 0 0x40 = true ∧
        latNan typ (if typ = 9 then (s.src32 r false f.kb f.b l).toNat else s.latVal r (Fields.cell f) f.kb f.b l) = false) ∧
    latLeq 1 (((tl 1 3).regionOf 0).cell 0 0x40 4) 3 = false ∧ latLeq 1 (((tl 1 7).regionOf 0).cell 0 0x40 4) 7 = true ∧
    tfind (tl 1 3).regions 0 = some ((tl 1 3).regionOf 0) := by
  decide +kernel
/-- An LPEEK whose lane 31, or a helper lane, has still to read; and what waits for it. -/
theorem witness_PeekReads :
    let f : Fields := { ltF 1 with b := 0, kb := false }
    let a := (tl 1 3).latAddr lane31 f false 31
    let p : Peek := { f := f, pc := 0, lanes := [(31, a)], helpers := [(0, a)] }
    let r : Group := { lane31 with peeks := [p] }
    let s := { tl 1 3 with groups := (withGroup tc r).groups }
    s.group? tg = some r ∧ r.peeks[0]? = some p ∧ s.writesHeld r ((shapeLpeek p.f).writes p.f) = false ∧ (s.core 0).watch.all (fun w => !bitOf w.ctl 63) = true ∧
    ((p.lanes ++ p.helpers).map (·.1)).Nodup ∧ (p.lanes ++ p.helpers).all (fun e => decide (e.1 < 32)) = true ∧
    (p.lanes ++ p.helpers).all (fun e => latAt (s.chkLat 1 f e.2 Acc.load) 0 0x40) = true ∧
    (match (Instr.iadd { d := 8, a := 3, b := 2 }).form with | some x => r.owes x.f x.shape | none => false) = true ∧
    (match (Instr.iadd { d := 4, a := 3, b := 2 }).form with | some x => r.owes x.f x.shape | none => true) = false := by
  decide +kernel

theorem witness_JoinWaits :
    let f : Fields := { ljF 1 with fn := 65 }
    let r : Group := { lane31 with wait := .join [31] true, ins := f, outbox := [stored] }
    let s := { tl 1 3 with groups := (withGroup tc r).groups }
    continuesB (.jst f) s tg r = true ∧ r.outbox ≠ [] ∧ (s.contrib r f) = [31] ∧
    issuesB (.jst f) { tl 1 3 with groups := (withGroup tc { lane31 with outbox := [stored] }).groups } tg { lane31 with outbox := [stored] } = true := by
  decide +kernel

/-- A threshold of a group with a helper lane, which names no cell. -/
theorem witness_LatticeHelpers :
    let r : Group := { lanes0and31 with hlp := 1 }
    let s := { tl 1 4 with groups := (withGroup tc r).groups }
    issuesB (.tld (ltF 1)) s tg r = true ∧ s.contrib r (ltF 1) = [31] ∧ s.activeLanes r (ltF 1) = [0, 31] := by
  decide +kernel

theorem witness_SyncsFollow :
    let r : Group := { tr with wait := .lsync [(0, 3, 2)] }
    let x : Region := { asid := 1, base := 0x10000, lines := 64, typ := 1, owed := [(3, 2)], due := [(3, true)], lacks := [(3, 2)] }
    let s := { withGroup tc r with regions := [(0, x)] }
    tfind s.regions 0 = some x ∧ tfind s.groups (gidKey tg) = some r ∧ (tget 0 x.owed 3).getLsbD (0 ^^^ (x.phase % 3 + 1)) = true ∧
    (0x8000000000000001 : W64).getLsbD 63 = true := by
  decide +kernel

theorem witness_ReplaySends :
    let l : Link := { next := 3, expected := 1, transit := [(2, 8)], sent := [(1, 7), (2, 8)], replies := [(1, true)], waiting := [9] }
    let m : Link := { l with backoff := some 1, replies := [] }
    (ts.putLink 2 l).link 2 = l ∧ l.replies = (1, true) :: [] ∧ l.next < 256 ∧ (ts.putLink 2 m).link 2 = m ∧
    m.backoff = some 1 ∧ m.sent = [] ++ (1, 7) :: [(2, 8)] := by
  decide +kernel

/-- A saved sheaf of another launch, of the highest effective priority. -/
def savedFirst : Saved := { savedOne with crew := { savedOne.crew with launch := 2 }, age := 128, aged := 7 }
theorem witness_LaunchOthers :
    (∀ w ∈ [words, words.set 2 0],
      let x : Launch := { fresh with words := w, queue := 3 }
      let s := tlch x { arrivals := [3] }
      (s.die 0).arrivals = [3] ∧ tfind s.launches 3 = some x ∧ x.queue < 64) ∧
    (let w := ((words.set 2 0).set 1 0x800000040).set 5 0x1010
     let x : Launch := { fresh with words := w }
     let s := tlch x { arrivals := [3] }
     tfind s.launches 3 = some x ∧ s.taskFault (s.partOf 1) w = some 1 ∧ bitOf (w.getD 1 0) 35 = true ∧ (w.getD 5 0).toNat % 16 = 0 ∧
     isOkS (((s.putDie 0 { arrivals := [] }).taskInv (s.partOf 1) 1 1 x.addr).workResolve (.launch 3) 1 0x1010 3 0 0) = true) ∧
    ((tlch { aLaunch with phase := 1 } {}).completable = some 3 ∧ (tlch aLaunch {}).completable = none) ∧
    (let s := { tlch { aLaunch with age := 0, aged := 0 } {} with saved := [(5, savedFirst)] }
     (s.die 0).admission = none ∧ (s.nextRect 0).map (fun x => x.1) = some 3 ∧
     ((s.ranked 0).any fun e => decide (e.2.2 = 3) && s.savedBefore 0 0 e) = true) ∧
    ((tlch aLaunch {}).ranked 0).all (fun e => !(tlch aLaunch {}).savedBefore 0 0 e) = true ∧
    tsorted decided.crews = true ∧ decided.cores = [] ∧
    ((tlch aLaunch {}).askers 0).map (fun e => (e.1, e.2.1)) = [(9, 3)] ∧
    (3, aLaunch) ∈ (tlch aLaunch {}).launches := by
  decide +kernel
theorem witness_AdmissionSlots : ∀ core, decided.tentSlots core ≤ (decided.freeSlots core).length := by
  have hg : decided.groups = [] := by decide +kernel
  have hc : decided.crews.map (fun e => (e.1, e.2.parts, e.2.launch, e.2.tentative)) = [(0, [], 3, true)] := by decide +kernel
  have hl : (tfind decided.launches 3).map (fun x => x.task.ngrp) = some 1 := by decide +kernel
  intro core
  obtain ⟨e, he⟩ : ∃ e, decided.crews = [e] :=
    List.length_eq_one_iff.mp (by simpa using congrArg List.length hc)
  simp only [he, List.map_cons, List.map_nil, List.cons.injEq, Prod.mk.injEq, and_true] at hc
  obtain ⟨h1, h2, h3, h4⟩ := hc
  have hu : decided.usedSlots core = [] := by simp [State.usedSlots, hg, he, h2]
  have ht : decided.tentSlots core ≤ 1 := by
    simp only [State.tentSlots, he, h1, h3, h4, hl, List.map_cons, List.map_nil, List.sum_cons, List.sum_nil, Option.getD_some]
    split <;> omega
  have hf : (decided.freeSlots core).length = 32 := by simp [State.freeSlots, hu]
  omega

theorem witness_ExitOfHandler :
    let r := handlerG 9
    let s := thnd 9
    issuesB (.exit {}) s hg r = true ∧ s.activeLanes r {} = [3] ∧ (r.live &&& ~~~ laneMask [3]) ≠ 0 ∧ hg.hnd = true ∧
    r.orig.getD 3 32 = 5 ∧ s.group? { core := 0, slot := 5 } = some parked ∧ parked.kind = .own ∧ parked.live ≠ laneMask [3] ∧
    ready tc npG (.exit { u := true }) = true ∧ npG.isPacked = true ∧ ready tc npG (.exit {}) = true := by
  decide +kernel

theorem witness_GridCompletes : ∀ n ∈ [1, 2],
    let c : Crew := { tc with launch := 3 }
    let x : Launch := { aLaunch with placed := 1, crewsLeft := n, task := { aLaunch.task with cv := true, fv := true, cmpa := 0x1010, futa := 0x1020 } }
    let s := (tlch x {}).putCrew 0 0 c
    let gone := s.dropCrew 0 0
    let counted := { gone with launches := tput gone.launches 3 { x with crewsLeft := n - 1 } }
    s.crew? 0 0 = some c ∧ s.crewGroups 0 0 = [] ∧ s.cores = [] ∧ tfind gone.launches 3 = some x ∧ x.code = none ∧
    x.placed = x.task.nsheaf ∧ isOkS (counted.workResolve (.launch 3) 1 0x1020 2 0 0) = true ∧
    (match counted.homeStore (.launch 3) noCore 1 0x1010 Acc.store (leBytes 8 0) with
      | .ok u => isOkS (u.workResolve (.launch 3) 1 0x1020 2 0 0)
      | .error _ => false) = true := by
  decide +kernel

theorem witness_SpawnWaits :
    let f : Fields := { len := .w96, u := true, a := 10, fn := 1, imm := 0x40 }
    let s := ((parted ts).setCtl 0x2800 0x1004).setCtl 0x2008 0x8000000000000001
    -- a segment of 16 records that is full, and a disabled ring
    (let t := s.modCore 0 fun c => { c with ring := (List.range 16).map (fun i => (i, 1)), ringW := 16 }
     issuesB (.spawn f) t tg tr = true ∧ (t.core 0).ring ≠ [] ∧ 2 ^ (t.spovf (t.partOf 1)).2 ≤ ((t.core 0).ringW - (t.core 0).ringR).toNat) ∧
    (let t := withPool ts 64
     64 ≤ (t.core 0).pool.length ∧ (t.spovf (t.partOf 1)).2 = 0) ∧ tc.rgclmDue = false := by
  decide +kernel

theorem witness_SpawnToRing :
    let f : Fields := { len := .w96, u := true, a := 10, fn := 1, imm := 0x40 }
    ready tc npG (.spawn f) = true ∧
    (let s := ((parted ts).setCtl 0x2800 0x1004).setCtl 0x2008 0x8000000000000001
     let s := s.modCore 0 fun c => { c with ring := [(0, 1)], ringW := 1 }
     let s1 := s.countIssue tg true
     issuesB (.spawn f) s tg tr = true ∧ (s.core 0).ring ≠ [] ∧ (s.spovf (s.partOf 1)).2 = 4 ∧
     ((s.core 0).ringW - (s.core 0).ringR).toNat < 16 ∧
     (match s1.homeStore (.group 2) noCore (s.fasid 0) (s.ringSlot 0 0 1) Acc.spawn spawned.bytes with
       | .ok t => decide (t.groups = s.groups)
       | .error _ => false) = true) := by
  decide +kernel

theorem witness_SheafsSavedAndRestored :
    (let s := evState tc (.page 1 9)
     (s.sheafOf tc).all (fun k => !s.inHandlers k.1 k.2) = true) ∧
    (let s := evState evCrew (.future [0])
     (s.sheafOf evCrew).all (fun k => s.evictable k.1 k.2 evCrew.saving) = true) ∧
    (let s := framed 0
     let sheaf := s.savedSheaf savedOne
     tfind s.saved 5 = some savedOne ∧ rectCores 0 (s.taskOfCrew savedOne.crew).sw (s.taskOfCrew savedOne.crew).sh = some [0] ∧
     s.keptCores 0 (s.sheafId savedOne) = [] ∧ s.savedBefore 0 (s.sheafId savedOne) savedOne.rank = false ∧ s.launches = [] ∧
     sheaf.all (fun e => s.formatsOk e.2) = true ∧
     (sheaf.foldl (fun o e => o.bind fun (u : State) => u.restoreCrew e.1 0 e.2) (some s)).isSome = true ∧
     (let x := s.rebuild savedOne
      ((x.1.freeCrewSlots 0).head?) = some 0 ∧ x.2.spawns = [] ∧ x.2.groups.length ≤ (x.1.freeSlots 0).length)) := by
  decide +kernel

/-- A crew at its blocking point whose outbox still holds a store; and a regrouped crew as it is restored. -/
theorem witness_EvictionWaits :
    (let r : Group := { waitingG (.future [0]) with outbox := [stored] }
     let s := { evState evCrew (.future [0]) with groups := (withGroup evCrew r).groups }
     evCrew.preempt = true ∧ evCrew.saving = false ∧ s.sheafOf evCrew = [(0, 0)] ∧ s.atBlocking 0 0 false = true ∧
     s.workSaved 0 0 false = false ∧ s.inHandlers 0 0 = false ∧ evCrew.stop = none ∧ s.framesOk evCrew = true) ∧
    (let s := framed 0
     let w := (s.rebuild savedOne).2
     (w.groups.map (·.1)).Nodup ∧ (w.groups ++ w.crew.parts).all (fun x => decide (x.1 < 32)) = true ∧
     w.places.length ≤ ((s.rebuild savedOne).1.freeSlots 0).length) := by
  decide +kernel

theorem witness_ManyTraps :
    let x (l : Nat) : TrapLane := { lane := l, code := Code.trapsw, pc := 0x40, detail := 7, a := 1, b := 2, c := 3 }
    let o : Group := { tr with traps := [x 31] }
    let p : Group := { tr with uid := 4, traps := [x 3] }
    let s := (withGroup tc o).putGroup { core := 0, slot := 5 } p
    let ws := s.awaiting 0 0
    s.crew? 0 0 = some tc ∧ (s.core 0).trapPool ≠ 0 ∧ ws.map (fun w => (w.slot, w.grp, w.t)) = [(0, o, x 31), (5, p, x 3)] ∧
    (ws.all fun w => decide (s.group? { core := 0, slot := w.slot } = some w.grp)) = true ∧
    (ws.map fun w => w.t.lane).Nodup ∧ s.group? hg = none ∧ s.olderElsewhere 0 0 (olderFirst ws) = false := by
  decide +kernel

theorem witness_FatalHandlerLater :
    (let st : Stop := { stop7 (some 6) false with others := [{ code := Code.illop }] }
     (withGroup (stopped st) stoppedG).crew? 0 0 = some (stopped st) ∧ st.recId = some 6 ∧ st.others = [{ code := Code.illop }]) ∧
    (let st := { stop7 (some 6) false with handler := true }
     let s := { withGroup (stopped st) stoppedG with dev := { ts.dev with hold := true } }
     s.dev.hold = true ∧ s.stopWritten (stopped st) = true ∧ st.handler = true ∧ st.others = []) ∧
    (let st := stop7 (some 6) false
     let s := { withGroup (stopped st) stoppedG with dev := { ts.dev with hold := true } }
     s.dev.hold = true ∧ s.stopWritten (stopped st) = true ∧ (s.abandon 0 0 (stopped st)).settled 0 0 (stopped st) = true) ∧
    (withGroup (stopped (stop7 (some 6) true)) stoppedG).stopWritten (stopped (stop7 (some 6) true)) = true := by
  decide +kernel

/-- A dump of a small crew into 132 bytes at 0x1000. -/
def dumpC : Crew := { tc with hold := {} }
def dumpG (w : Wait) : Group := { tr with gran := 0, kind := .fatal false, wait := w }
def dumpS (w : Wait) : State := withG (withG (withGroup dumpC (dumpG w)) 2 0x1000) 4 132
theorem witness_DumpSteps :
    let f : Fields := { u := true, d := 12, a := 2, b := 4 }
    issuesB (.dump f) (dumpS .none) tg (dumpG .none) = true ∧ continuesB (.dump f) (dumpS (.dump none)) tg (dumpG (.dump none)) = true ∧
    continuesB (.dump f) (dumpS (.dump (some (132, 0, 0, true)))) tg (dumpG (.dump (some (132, 0, 0, true)))) = true ∧
    (match ((dumpS .none).countIssue tg true).dumpWrite (.group 2) false 0 1
        (cellsAt 0x1000 (((dumpS .none).countIssue tg true).dumpHeader 0 0 dumpC ((dumpS .none).dumpSections 0 0 dumpC))) with
      | .ok t => decide (t.groups = (dumpS .none).groups)
      | _ => false) = true ∧
    (let s := dumpS (.dump none)
     match s.dumpPages (.group 2) false 0 1 (byPages 0x1080 ((s.dumpSections 0 0 dumpC).flatten.take 4)) with
      | .upTo t none => decide (t.groups = s.groups)
      | _ => false) = true ∧
    -- a buffer at 0x2F80, whose second page is not mapped
    (let s := dumpS (.dump none)
     match s.dumpPages (.group 2) false 0 1 (byPages 0x3000 ((s.dumpSections 0 0 dumpC).flatten.take 4)) with
      | .upTo t (some (v, _)) => decide (t.groups = s.groups) && v == 0x3000
      | _ => false) = true := by
  decide +kernel
/-- The closing write, and a header on a page that is not mapped. -/
theorem witness_DumpCloses :
    (∀ x ∈ [(132, (0 : Nat), 0, true), (0x80, 2, 0x1080, false)],
      let s := dumpS (.dump (some x))
      (match s.dumpWrite (.group 2) false 0 1 (dumpClosing 0x1000 (x.2.2.2.toNat + if x.2.1 = 0 then 0 else 2) x.1 x.2.1 x.2.2.1) with
      | .ok t => decide (t.groups = s.groups)
      | _ => false) = true) ∧
    (match (dumpS .none).dumpWrite (.group 2) false 0 1 (cellsAt 0x4000 [1]) with
      | .fault _ => true
      | _ => false) = true := by
  decide +kernel
/-- A page of a peer's memory, over a link that failed. -/
theorem witness_DumpOverLink :
    let s := ((mapped.storeWord 0x4008 8 (2 ^ 51 + 2 ^ 45 + 0x6007)).setCtl 0x4828 0xFFFFFFFFFFFFFFFF).putCrew 0 0 tc
    (match s.copyPlaces 0 0 0 1 false Acc.store ((cellsAt 0x1000 [1, 2]).map (·.1)) with
      | .ok ps => overLink (ps.getD 0 0)
      | .error _ => false) = true := by
  decide +kernel

theorem witness_DumpClosing : (dumpClosing 0x1000 3 0x80 2 0x1080).length = 20 := by decide +kernel

theorem witness_ErrorTargets :
    let e : Fields := { u := true, d := 10, a := 2, b := 4 }
    (∀ t ∈ [0, 1], issuesB (.errinj e) (withG ts 2 (BitVec.ofNat 64 t)) tg tr = true) ∧
    ts.hasMemory 0x6000 = true ∧ ts.hasMemory 0x80000000000 = false := by
  decide +kernel

/-- A pass of no rows of B from V64, which MPARM judges; and one within the granules. -/
theorem witness_MatrixNoRows :
    (∀ kind ∈ [0, 1], 32 * tr.gran > ((passOp kind false).vb + ((passOp kind false).k + (passOp kind false).perReg - 1) / (passOp kind false).perReg - 1)) ∧
    (let o : Op := { passOp 0 false with ops := [0, 0x40, 0, 0] }
     o.k = 0 ∧ o.vb + (o.k + o.perReg - 1) / o.perReg - 1 < 32 * tr.gran) := by
  decide +kernel

theorem witness_MatrixRoom : tseq.scoreEntries 0 < 32 ∧
    ¬ ({ tseq with ops := (List.range 32).map fun i => (i, { passOp 5 false with sdst := some (0, 16) }) } : State).scoreEntries 0 < 32 := by
  decide +kernel

theorem witness_ArbiterAndBeats :
    let on := fun (l : List (Nat × Op)) => ({ tseq with ops := l } : State)
    let p := passOp 0 false
    let q := passOp 0 true
    let s := on [(4, p)]
    tsorted s.ops = true ∧ p.isPass = true ∧ clusterIx p.core = 0 ∧ p.granted = false ∧ p.stall = none ∧ s.opReady 4 p = true ∧
    (tseq.engine 0).resetting = false ∧ (tseq.engine 0).unusable = false ∧ p.nrows / 128 ≤ 4 ∧
    -- a beat of a granted pass
    (let t := on [(4, q)]
     tfind t.copies 4 = none ∧ tfind t.ops 4 = some q ∧ q.granted = true ∧ q.hang = false ∧ 0 < q.nrows ∧ 0 < q.k ∧
     q.pos * segLen q.mfmt < q.unitLen ∧ tfind q.got 0 = none ∧ (match t.aUnit q 0 0 with | .ok _ => true | _ => false) = true) ∧
    -- two engines of which one hangs
    tfind (on [(4, { q with hang := true }), (5, q)]).ops 4 = some { q with hang := true } := by
  decide +kernel

theorem witness_DebugOthers :
    issuesB (.bkpt { len := .w96, u := true, imm := 0x63 }) (thnd 8) hg (handlerG 8) = true ∧ (handlerG 8).inHandler = true ∧
    (Wait.future [0]).midway = false ∧ og.slot < 32 ∧
    (let x : Group := { other { cause := 5 } with probes := [(0x12, 2, 9)] }
     let s := withG ((withGroup tc tr).putGroup og x) 10 0x50000
     let sel := BitVec.ofNat 64 (2 ^ 28 + 9)
     issuesB (.hrd { len := .w96, u := true, d := 8, a := 10, c := 3, imm := sel }) s tg tr = true ∧
     issuesB (.hwr { len := .w96, u := true, d := 10, a := 10, b := 1, imm := sel }) s tg tr = true ∧
     (match s.target? 0x50000 with | some t => t.pending (hselOf sel) | none => false) = true) := by
  decide +kernel

/-- A target of each class that HRD reads and HWR writes: its stack is two deep. -/
theorem witness_InspectionClasses :
    let x : Group := { other { cause := 5 } with depth := 2, stack := [{}, { isSealed := true }] ++ List.replicate 14 {} }
    let s := withG ((withGroup tc tr).putGroup og x) 10 0x50000
    (∀ n ∈ [2, 7, 8, 9, 13, 14],
      let sel := BitVec.ofNat 64 (n * 2 ^ 28 + (if n = 9 ∨ n = 14 then 0 else if n = 13 then 31 * 2 ^ 16 else 1))
      issuesB (.hrd { len := .w96, u := true, d := 8, a := 10, c := 3, imm := sel }) s tg tr = true ∧
      (n ≠ 14 → issuesB (.hwr { len := .w96, u := true, d := 10, a := 10, b := 1, imm := sel }) s tg tr = true) ∧
      (match s.target? 0x50000 with | some t => !t.pending (hselOf sel) && t.part.isNone | none => false) = true) ∧
    targets s x = true ∧ 1 < x.depth ∧ x.orig = [] ∧ x.home 31 ≠ 0 := by
  decide +kernel

/-- The three reasons for which a step is refused; and a crew's sequencer that HRES.crew resumes. -/
theorem witness_StepRefused :
    (∀ x ∈ [other {}, { other { cause := 5 } with traps := [{ lane := 3, code := Code.trapsw, pc := 0 }] },
        { other { cause := 5 } with live := 1 }, { other { cause := 5, waiting := true } with wait := .future [0] }],
      let s := withG ((withGroup tc tr).putGroup og x) 10 0x50000
      issuesB (.hstep { len := .w96, u := true, d := 12, a := 10 }) s tg tr = true ∧
      issuesB (.hstepLane { len := .w96, u := true, d := 12, a := 10, fn := 1, imm := 0x805 }) s tg tr = true ∧ targets s x = true) ∧
    (1 : W32).getLsbD 5 = false ∧
    ((withGroup { tc with seqr := { tc.seqr with halted := true } } tr).crew? 0 0 =
      some { tc with seqr := { tc.seqr with halted := true } }) := by
  decide +kernel

/-- Predicate `n` alone is enabled, of address space 1, on a source, comparing for equality, with an action; on every
lane and group. -/
def watching (s : State) (n src act : Nat) (a : W64) : State :=
  s.modCore 0 fun c => { c with watch := c.watch.set n
                                                { ctl := BitVec.ofNat 64 (2 ^ 63 + act * 2 ^ 60 + src * 2 ^ 56 + 0xFFFFFFFFFFFF),
                                                  opa := a, owned := true, owner := 1 } }
/-- The conditions of `IssuesWatched`, computed. -/
def watchedB (i : Instr) (s : State) (g : Gid) (r : Group) (skips : Bool) : Bool :=
  match i.form with
  | none => false
  | some x => x.legal && decide (s.actor = .grp g) && decide (s.group? g = some r) &&
      decide (needsLevel i ≤ s.levelOf g r) && decide (x.shape.extent x.f ≤ 32 * r.gran) &&
      (!x.f.u || s.guard r x.f 0) && !s.writesHeld r (x.shape.writes x.f) &&
      !r.owes x.f x.shape && decide (r.wait = .none) &&
      (decide (r.halt.cause = 0) && r.bcast.isNone && !r.inHandler) && decide (r.wskip = skips)
theorem watched_of_check {i : Instr} {s : State} {g : Gid} {r : Group} {k : Bool} (h : watchedB i s g r k = true) :
    ∃ x, IssuesWatched i x s g r k := by
  unfold watchedB at h
  split at h
  · cases h
  · rename_i x hx
    simp only [Bool.and_eq_true, decide_eq_true_eq, Bool.not_eq_true', Bool.or_eq_true, Option.isNone_iff_eq_none] at h
    obtain ⟨⟨⟨⟨⟨⟨⟨⟨⟨⟨h1, h2⟩, h3⟩, h4⟩, h5⟩, h6⟩, h7⟩, h8⟩, h9⟩, h10⟩, h11⟩ := h
    exact ⟨x, hx, h1, h2, h3, h4, h5, fun hu => h6.resolve_left (by simp [hu]), h7, h8, h9, ⟨h10.1.1, h10.1.2, h10.2⟩, h11⟩
/-- The matches of ST's sources before its access, and of LD's after its completion, by predicate, action and lanes. -/
def storeMatches (s : State) (r : Group) : List WMatch :=
  s.watchMatches tg r [{ src := 1, lanes := s.contrib r stF, x := fun l => s.addr r stF true l },
    { src := 3, lanes := s.contrib r stF, x := fun l => BitVec.ofNat 64 (leNat (s.storeData r stF l) % 2 ^ 64), width := 32 },
    { src := 7, lanes := allLanes.filter r.exec.getLsbD, x := fun _ => r.pc.setWidth 64 }]
/-- The group on its lane 31 alone; nothing else differs. -/
def onLane (s : State) (r : Group) : State := { s with groups := (withGroup tc r).groups }
theorem witness_PredicateStores : ∀ act ∈ [1, 2, 3, 4, 5], ∀ skips : Bool,
    let r : Group := { lane31 with wskip := skips }
    let s := onLane (watching tm 2 1 act 0x1010) r
    watchedB (.st stF) s tg r skips = true ∧ s.contrib r stF = [31] ∧ untracedB s r = true ∧
    (storeMatches s r).map (fun m => (m.n, m.act, m.lanes)) = [(2, act, [31])] ∧
    s.watchMatches tg r [{ src := 4, lanes := [31], x := fun _ => 0 }, { src := 5, lanes := [31], x := fun _ => 0 }] = [] ∧
    (let c := s.chkWord tg r (s.addr r stF true 31) 4 Acc.store true
     c.fault?.isNone && !s.lockedAt tg r 4 c (s.addr r stF true 31)) = true := by
  decide +kernel
/-- LD matches on the value 0 that it loads. -/
theorem witness_PredicateLoads : ∀ act ∈ [1, 2, 3, 4, 5],
    let s := onLane (watching tm 15 2 act 0) lane31
    let value := (s.loadUnit tg lane31 4 (s.chkGlobal 0 1 (s.addr lane31 ldF true 31) 4 4 Acc.load false)).1
    watchedB (.ld ldF) s tg lane31 false = true ∧ s.contrib lane31 ldF = [31] ∧ s.activeLanes lane31 ldF = [31] ∧
    s.watchMatches tg lane31 [{ src := 0, lanes := [31], x := fun l => s.addr lane31 ldF true l },
      { src := 7, lanes := [31], x := fun _ => 0 }] = [] ∧ untracedB s lane31 = true ∧
    clearB s lane31 4 (s.chkGlobal 0 1 (s.addr lane31 ldF true 31) 4 4 Acc.load false) 0x1010 = true ∧
    (s.watchMatches tg lane31 [{ src := 2, lanes := [31], x := fun _ => BitVec.ofNat 64 (leNat value % 2 ^ 64), width := 32 },
      { src := 4, lanes := [31], x := fun _ => 0 }, { src := 5, lanes := [31], x := fun _ => 0 }]).map (fun m => (m.n, m.act)) = [(15, act)] := by
  decide +kernel

theorem witness_Replay : (tfault 0 0).recordable 0 = true ∧ ({ ts with records := [(0, aRec)] } : State).recordable 0 = false ∧
    ({ ts with records := [(0, aRec)] } : State).records.find? (fun x => x.1 = 0) = some (0, aRec) := by
  decide +kernel
/-- A saved crew one of whose groups waits for page 9 of address space 1, which a replay names, or does not. -/
theorem witness_ReplaySaved :
    let sv : Saved := { savedOne with groups := [(4, { waitingG (.page 1 9) with gran := 1 })] }
    let s := { tfault 0 0 with saved := [(5, sv)] }
    s.recordable 0 = true ∧ tfind s.saved 5 = some sv ∧ s.partOf 1 = 0 ∧
    (∀ w ∈ [0x8000000000000000, 0x0001000000009000], s.replays 0 (BitVec.ofNat 64 w) (1, 9) = true) ∧ s.replays 0 0x0001000000008000 (1, 9) = false ∧
    s.recHeld 0 0 (whoOf { core := 0, slot := 4 } 0 0) (1, 9) = false := by
  decide +kernel
theorem witness_reachAfterReads :
    ((tpte 0x6007).walkReads 1 0x1000).reach 0 1 0x1000 1 4 = .ok ((tpte 0x6007).walkReads 1 0x1000, 0x4008) := by rfl

/-- Queue 3 with its ring in device memory. -/
def onDevice : Nat := 0x8000000000000001
theorem witness_LanesOfDevice :
    (let s := tque onDevice {}
     s.laneLive 3 = true ∧ s.laneKind 3 = false ∧ (s.lane 3).pkt = none ∧ (s.lane 3).ib = [] ∧ s.ringHost 3 = false ∧ s.softErr = []) ∧
    (let s := tque onHost { ib := [(0x1080, 0, 2)] }
     s.laneLive 3 = true ∧ (s.lane 3).ib = (0x1080, 0, 2) :: [] ∧
     okAt ((s.putLane 3 { s.lane 3 with addr := 0x1080 }).homeOf noCore (s.laneAsid 3) 0x1080 128 Acc.queue false) 0x6080 = true) ∧
    (tpkt 0 0 0).dev.round.filter (tpkt 0 0 0).holds ≠ [] ∧
    (∀ ib ∈ [[], [(0x1080, 0, 2)], List.replicate 4 (0x2080, 0, 2)], ∀ a ∈ [0x1080, 0x1081], ∀ n ∈ [0, 5],
      let s := tque onHost { pkt := some (packet 2 a n), ib := ib }
      let s := { s with dev := { s.dev with round := [3] } }
      s.dev.round = 3 :: [] ∧ s.holds 3 = true ∧ (s.lane 3).pkt = some (packet 2 a n) ∧ (s.lane 3).ib = ib) ∧
    (∀ t ∈ [3, 4], (tpkt t 0x1081 5).holds 3 = true) ∧
    (∀ t ∈ [4, 6], let s := tpkt t 0x1080 5
      isOkS (({ s with dev := { s.dev with round := [] } } : State).homeStore (.lane 3) noCore 1 0x1080 Acc.store (leBytes 8 5)) = true) := by
  decide +kernel

/-- A ring in the memory of device 1, in DOMMAP and not. -/
theorem witness_PeerRing : ∀ b : Bool,
    let s := ((tque onDevice {}).setCtl 0x10C8 (BitVec.ofNat 64 (2 ^ 51 + 2 ^ 45 + 0x1000))).setCtl 0x4828 (if b then 2 else 0)
    s.laneLive 3 = true ∧ s.laneKind 3 = false ∧ (s.lane 3).pkt = none ∧ (s.lane 3).ib = [] ∧ s.ringHost 3 = false ∧
    isPeer (s.ringAddr 3) = true ∧ s.peerOk (s.ringAddr 3) = b ∧ s.ringOk 3 = b := by
  decide +kernel

theorem witness_HostBarred :
    (let s := { ts with dev := { ts.dev with up := false }, agenda := [.event .killAsid false] }
     s.dev.up = false ∧ s.agenda = .event .killAsid false :: []) ∧
    (let s := { ts with dev := { ts.dev with hold := true }, agenda := [.event (.dispatchDecision 0) false] }
     s.dev.hold = true ∧ s.agenda = .event (.dispatchDecision 0) false :: []) ∧
    ts.dev.hold = false ∧ ts.saved = [] ∧ ts.crews = [(crewKey 0 0, tc)] ∧ tc.stop = none := by
  decide +kernel

theorem witness_MailboxOthers :
    (let s := ((gran ts fun g => { g with staged := some ([], 48) }).setCtl 0x5000 0x12).setCtl 0x5028 0x8000000000000000
     bitOf (s.ctlw 0x5028) 63 = true ∧ s.dev.granary.hstep = none ∧ s.ctlw 0x5000 = 0x12 ∧ s.dev.granary.result = 0) ∧
    (∀ cause ∈ [0, 7],
      let x : Group := { other { cause := cause } with stepper := some 0 }
      let s := (gran ((withGroup tc tr).putGroup og x) fun g => { g with hstep := some (gidKey og, 32, 1, 0, 0) }).setCtl 0x5028 0x8000000000000000
      bitOf (s.ctlw 0x5028) 63 = true ∧ s.dev.granary.hstep = some (gidKey og, 32, 1, 0, 0) ∧ s.group? (keyGid (gidKey og)) = some x ∧
      ts.group? (keyGid (gidKey og)) = none) ∧
    ((mbx [1] ts).ctlw 0x5008).toNat < 4096 ∧ ts.softErr = [] := by
  decide +kernel

theorem witness_IssueProbed :
    let r : Group := { tr with probes := [(0x12, 2, 10)] }
    let i : Instr := .clqry { u := true, d := 10 }
    (match i.form with | some x => r.owes x.f x.shape | none => false) = true ∧
    (withGroup tc r).group? tg = some r ∧ (Instr.tick.form.isNone && ts.allows (.event .tick false)) = true := by
  decide +kernel

/-! ### Single steps -/

/-- The step of a placed word, as a state; the reset state where it stops. -/
def after (o : Host.Outcome State Fault Refusal) : State := match o with | .next t => t | _ => State.reset
def placedWith (nbits w : Nat) (vs : List (Nat × W32)) : State :=
  let s := State.reset.withFetchWord nbits w
  { s with vreg := vs.foldl (fun t x => allLanes.foldl (fun t l => tput t (vkey 2 x.1 l) x.2) t) s.vreg }
def v31 (s : State) (n : Nat) : W32 := tget 0 s.vreg (vkey 2 n 31)
def grp (s : State) : Group := (s.group? tg).getD { crew := 99, uid := 99 }

/-- Section 4's worked word, `@!P5 IADD V7, V3, G2`, in every lane, with G2 = 0: a carry out of bit 31 is lost. -/
theorem test_step_iadd : v31 (after (step (placedWith 64 0x0000002030700090 [(3, 0xFFFFFFFF), (2, 2)]))) 7 = 1 := by decide +kernel
theorem test_step_iadd_pc : (grp (after (step (placedWith 64 0x0000002030700090 [])))).pc = 8 := by decide +kernel
/-- IADD with a literal of 100 (96 bits): the PC moves on by 12. -/
theorem test_step_iadd_imm :
    let t := after (step (placedWith 96 0x640000000030700091 [(3, 5)]))
    v31 t 7 = 105 ∧ (grp t).pc = 12 := by decide +kernel
/-- DPUSH P1 with no P bit set: EXEC becomes 0, and the entry keeps all lanes as the other path. -/
theorem test_step_dpush :
    let r := grp (after (step (placedWith 96 0x180000000010000041 [])))
    r.depth = 1 ∧ r.exec = 0 ∧ (r.stack.headD {}).els = 0xFFFFFFFF ∧ (r.stack.headD {}).rejoin = 6 := by decide +kernel
/-- DELSE on an empty stack is DIVDEPTH: the group stops where it is. -/
theorem test_step_delse_empty :
    let t := after (step (placedWith 64 0x20000000000044 []))
    (grp t).pc = 0 ∧ (grp t).halt.cause = 7 ∧
      (((t.crew? 0 0).bind fun c => c.stop).map fun st => st.frec.code) = some Code.divdepth := by decide +kernel
/-- A word with LEN 0b11 is ILLOP. -/
theorem test_step_illop :
    (((after (step (placedWith 64 3 []))).crew? 0 0).bind fun c => c.stop.map fun st => st.frec.code) = some Code.illop := by
  decide +kernel
/-- EXIT ends the group, and its granule returns to the crew. -/
theorem test_step_exit :
    let t := after (step (placedWith 64 0x10 []))
    t.group? tg = none ∧ ((t.crew? 0 0).map fun c => c.free) = some 1 := by decide +kernel
/-- R147's example: X(L) = 0x1000 + 4L takes form 1, and FILL restores lane 31 as 0x107C. -/
theorem test_spill_example :
    let xs := allLanes.map fun l => BitVec.ofNat 32 (0x1000 + 4 * l)
    (spillForm xs).1 = 1 ∧ (spillForm xs).2.take 8 = [0, 0x10, 0, 0, 0, 4, 8, 0xC] ∧
      (unspill (spillForm xs).1 (spillForm xs).2).getD 31 0 = 0x107C := by decide +kernel
/-- A restored group has the PC at offset 0x80 of its frame (R332); a format byte 3 is SPILLFMT, code 0x000B (R315,
R333). -/
theorem test_restore_pc : ((after (execCrewRestore 5 0 (framed 0))).groups.map fun e => e.2.pc) = [0x1000] := by decide +kernel
theorem test_restore_spillfmt :
    ((after (execCrewRestore 5 0 (framed 3))).crews.map fun e => e.2.stop.map fun x => x.frec.code) = [some 0xB] := by
  decide +kernel
/-- A crew-fatal group does not issue again. -/
theorem test_step_stopped :
    let t := after (step (placedWith 64 3 []))
    after (step { t with agenda := [.issue tg false] }) = { t with agenda := [], refetch := false } := by decide +kernel
/-- Without power nothing issues. -/
theorem test_step_powerless :
    let s := { placed with dev := { placed.dev with power := false } }
    (grp (after (step s))).pc = 0 := by decide +kernel

end Sys2Proof.Tests
end

/-! ## Every step goes on and keeps memory's canonical form (R2, R212)

The layers, in the order of the proof:
* which operations leave memory alone (`State.memory_…`, rewrite rules), and that those which write it keep its
  canonical form (`State.memoryWf_…`);
* what issuing makes of an instruction's effect (`proceeds_issue`, `proceeds_issueSeq`): it goes on where the effect is
  sound, and the only fault of the model, an actor that is not there, does not arise where one is;
* that each effect is sound (`…sound_…`) and so each instruction goes on (`proceeds_exec…`);
* that a decoded instruction belongs to the stream it was fetched from (`matrix?_decode`), so that a turn has the
  instruction's actor in place (`State.sound_groupTurn`, `State.sound_seqTurn`), and the step. -/

namespace Sys2Proof

/-! ### The stream an instruction belongs to (R48) -/

/-- The stream of an instruction, a matrix one or not; a device event is in none. -/
def Instr.matrix? (i : Instr) : Option Bool := i.form.map (·.matrix)

theorem Instr.matrix?_of_any {i : Instr} (h : i.form.any (fun x => !x.matrix) = true) : i.matrix? = some false := by
  unfold Instr.matrix?
  cases hx : i.form with
  | none => simp [hx] at h
  | some x => simpa [hx] using h

theorem matrix?_of_mem_ite {c : Prop} [Decidable c] {x y : Option Instr} {b : Bool} (hx : ∀ i ∈ x, i.matrix? = some b)
    (hy : ∀ i ∈ y, i.matrix? = some b) : ∀ i ∈ (if c then x else y), i.matrix? = some b := by
  split <;> assumption

theorem matrix?_matrixInstr {op f} : ∀ i ∈ matrixInstr op f, i.matrix? = some true := by
  unfold matrixInstr
  split
  all_goals (repeat' refine matrix?_of_mem_ite ?_ ?_)
  all_goals rintro i ⟨⟩
  all_goals rfl

theorem matrix?_groupInstr {op f} : ∀ i ∈ groupInstr op f, i.matrix? = some false := by
  unfold groupInstr
  split
  all_goals (repeat' refine matrix?_of_mem_ite ?_ ?_)
  all_goals rintro i ⟨⟩
  all_goals rfl

theorem matrix?_decodeWord {matrix w i} (h : decodeWord matrix w = .ok i) : i.matrix? = some matrix := by
  unfold decodeWord at h; dsimp only at h
  split at h
  · cases h
  · split at h
    · cases h
    · split at h
      · cases h
      · next hi =>
        split at h <;> cases h
        cases matrix with
        | true => exact matrix?_matrixInstr _ hi
        | false => exact matrix?_groupInstr _ hi

theorem matrix?_decode {matrix bs i rest} (h : decode matrix bs = .ok (i, rest)) : i.matrix? = some matrix := by
  unfold decode at h
  split at h
  · cases h
  · split at h
    · cases h
    · split at h
      · cases h
      · split at h <;> cases h
        next hd => exact matrix?_decodeWord hd

end Sys2Proof

namespace Sys2Proof.Machine

/-! ### The memory of a state -/

/-- The two tables the canonical form speaks of: what device, pool and peers hold, and what the host holds. -/
def State.memory (s : State) : Tab Byte × Tab Byte := (s.mem, s.hostMem)

/-- Both tables are in canonical form. -/
def MemoryWf (m : Tab Byte × Tab Byte) : Prop := twf 0 m.1 = true ∧ twf 0 m.2 = true

theorem State.memWf_iff (s : State) : s.memWf ↔ MemoryWf s.memory := Iff.rfl

@[simp] theorem State.memory_pair (s : State) : (s.mem, s.hostMem) = s.memory := (rfl)

/-- A state written out has the memory it is written with. -/
@[simp] theorem State.memory_mk (agenda actor refetch freeCtr nextId vreg preg fpx greg groups crews cores scratch silo poison mem
    hostMem ctl heat images copies ops engines dies regions goneRanges launches saved links lanes records pushes softErr dev) :
    (State.mk agenda actor refetch freeCtr nextId vreg preg fpx greg groups crews cores scratch silo poison mem
      hostMem ctl heat images copies ops engines dies regions goneRanges launches saved links lanes records pushes softErr
      dev).memory = (mem, hostMem) := (rfl)

@[simp] theorem State.memory_ite (c : Prop) [Decidable c] (s t : State) :
    (if c then s else t).memory = if c then s.memory else t.memory := apply_ite _ _ _ _

/-- A run over a list leaves memory alone where each turn does. -/
@[simp] theorem State.memory_foldl {α : Type*} {f : State → α → State} (hf : ∀ s x, (f s x).memory = s.memory) (l : List α)
    (s : State) : (l.foldl f s).memory = s.memory := by
  induction l generalizing s with
  | nil => rfl
  | cons x l ih => rw [List.foldl_cons, ih, hf]

/-! ### What leaves memory alone

The headings name the model's files. The rules that hold by definition are proved by `(rfl)`, in parentheses, so that
`simp` takes them for rewrite rules like the others: with one that it takes to be definitional it does not discharge
the hypothesis of `State.memory_foldl`. -/

section

variable (s : State)

/-! Machine/Ops -/

@[simp] theorem State.memory_putGroup (g r) : (s.putGroup g r).memory = s.memory := (rfl)
@[simp] theorem State.memory_putCrew (core slot c) : (s.putCrew core slot c).memory = s.memory := (rfl)
@[simp] theorem State.memory_modCrew (core slot f) : (s.modCrew core slot f).memory = s.memory := (rfl)
@[simp] theorem State.memory_modGroup (g f) : (s.modGroup g f).memory = s.memory := (rfl)
@[simp] theorem State.memory_putCore (n c) : (s.putCore n c).memory = s.memory := (rfl)
@[simp] theorem State.memory_modCore (n f) : (s.modCore n f).memory = s.memory := (rfl)
@[simp] theorem State.memory_fresh : s.fresh.2.memory = s.memory := (rfl)
@[simp] theorem State.memory_free : s.free.2.memory = s.memory := (rfl)
@[simp] theorem State.memory_pick (left) : (s.pick left).2.memory = s.memory := (rfl)
@[simp] theorem State.memory_setV (r n l x) : (s.setV r n l x).memory = s.memory := by simp [State.setV]
@[simp] theorem State.memory_setP (r n l b) : (s.setP r n l b).memory = s.memory := by simp [State.setP]
@[simp] theorem State.memory_setFpx (r l x) : (s.setFpx r l x).memory = s.memory := by simp [State.setFpx]
@[simp] theorem State.memory_setG (r n x) : (s.setG r n x).memory = s.memory := (rfl)
@[simp] theorem State.memory_writeV (r ls ws) : (s.writeV r ls ws).memory = s.memory := by simp [State.writeV]
@[simp] theorem State.memory_writeP (r ls n b) : (s.writeP r ls n b).memory = s.memory := by simp [State.writeP]
@[simp] theorem State.memory_setCtl (off w) : (s.setCtl off w).memory = s.memory := (rfl)
@[simp] theorem State.memory_raise (part r) : (s.raise part r).memory = s.memory := (rfl)
@[simp] theorem State.memory_broadcast (core slot but cause) : (s.broadcast core slot but cause).memory = s.memory :=
  (rfl)
@[simp] theorem State.memory_cutWork (core slot uid) : (s.cutWork core slot uid).memory = s.memory := (rfl)
@[simp] theorem State.memory_stopCrew (core slot but fr) : (s.stopCrew core slot but fr).memory = s.memory := by
  unfold State.stopCrew; split
  all_goals (try split)
  all_goals simp
@[simp] theorem State.memory_crewFatal (g r fr) : (s.crewFatal g r fr).memory = s.memory := by
  unfold State.crewFatal; dsimp only; split <;> simp
@[simp] theorem State.memory_countMatches (core ms) : (s.countMatches core ms).memory = s.memory := by
  simp [State.countMatches]
@[simp] theorem State.memory_trigger (src who) : (s.trigger src who).memory = s.memory := (rfl)
@[simp] theorem State.memory_sheafBroadcast (core slot) : (s.sheafBroadcast core slot).memory = s.memory := by
  unfold State.sheafBroadcast; split <;> simp
@[simp] theorem State.memory_haltAround (g r pc m) : (s.haltAround g r pc m).memory = s.memory := by
  simp [State.haltAround]
@[simp] theorem State.memory_watchHalt (g r pc m) : (s.watchHalt g r pc m).memory = s.memory := by
  simp [State.watchHalt]
@[simp] theorem State.memory_endHandler (g) : (s.endHandler g).memory = s.memory := by
  unfold State.endHandler; split <;> simp
@[simp] theorem State.memory_unpark (g r ls) : (s.unpark g r ls).memory = s.memory := by simp [State.unpark]
@[simp] theorem State.memory_putEngine (n e) : (s.putEngine n e).memory = s.memory := (rfl)
@[simp] theorem State.memory_countIssue (g useful) : (s.countIssue g useful).memory = s.memory := (rfl)
@[simp] theorem State.memory_matched (g r ms) : (s.matched g r ms).memory = s.memory := by simp [State.matched]
@[simp] theorem State.memory_handlerTrap (g r ts) : (s.handlerTrap g r ts).memory = s.memory := by
  simp [State.handlerTrap]
@[simp] theorem State.memory_haltFault (g r m) : (s.haltFault g r m).memory = s.memory := by simp [State.haltFault]
@[simp] theorem State.memory_preHalt (g r ms) : (s.preHalt g r ms).memory = s.memory := by
  unfold State.preHalt; split <;> simp
@[simp] theorem State.memory_pageFault (g r f sh fr) : (s.pageFault g r f sh fr).memory = s.memory := by
  simp [State.pageFault]
/-- A completion leaves one of the two memories it is given. -/
theorem State.memory_complete_cases (g r f sh noMatch) (s' : State) (r' pre post traps) :
    (s.complete g r f sh noMatch s' r' pre post traps).memory = s.memory ∨
      (s.complete g r f sh noMatch s' r' pre post traps).memory = s'.memory := by
  unfold State.complete; dsimp only; split
  all_goals (repeat' split)
  all_goals simp
theorem State.memory_completeEnded_cases (g r f noMatch) (s' : State) (pre) :
    (s.completeEnded g r f noMatch s' pre).memory = s.memory ∨ (s.completeEnded g r f noMatch s' pre).memory = s'.memory := by
  unfold State.completeEnded; dsimp only; split
  all_goals (repeat' split)
  all_goals simp
@[simp] theorem State.memory_waitDone {s s' : State} (h : s'.memory = s.memory) (g r r' post traps) :
    (s.waitDone g r s' r' post traps).memory = s.memory :=
  (State.memory_complete_cases ..).elim id (·.trans h)

/-! Machine/Operands -/

@[simp] theorem State.memory_writeD (r f w signed res) : (s.writeD r f w signed res).memory = s.memory := by
  simp [State.writeD]

/-! Machine/Device -/

@[simp] theorem State.memory_vector (v) : (s.vector v).memory = s.memory := (rfl)
@[simp] theorem State.memory_logEvent (code source count) : (s.logEvent code source count).memory = s.memory := by
  simp [State.logEvent]

/-! Machine/Access -/

@[simp] theorem State.memory_correct (pa n) : (s.correct pa n).memory = s.memory := by simp [State.correct]
@[simp] theorem State.memory_readElsewhere (pa n) : (s.readElsewhere pa n).memory = s.memory := by
  simp [State.readElsewhere]
@[simp] theorem State.memory_walkReads (asid va) : (s.walkReads asid va).memory = s.memory := by
  simp [State.walkReads]
@[simp] theorem State.memory_lookedUp (count core asid va) : (s.lookedUp count core asid va).memory = s.memory := by
  unfold State.lookedUp; split
  all_goals (try split)
  all_goals simp
@[simp] theorem State.memory_translated (core asid va) : (s.translated core asid va).memory = s.memory := by
  simp [State.translated]
@[simp] theorem State.memory_translatedAll (core asid vas) : (s.translatedAll core asid vas).memory = s.memory := by
  simp [State.translatedAll]
@[simp] theorem State.memory_emptyView (core) : (s.emptyView core).memory = s.memory := (rfl)
@[simp] theorem State.memory_dropLine (core line) : (s.dropLine core line).memory = s.memory := (rfl)
@[simp] theorem State.memory_updateView (core cs) : (s.updateView core cs).memory = s.memory := (rfl)
@[simp] theorem State.memory_readHome (core pas) : (s.readHome core pas).memory = s.memory := by simp [State.readHome]
@[simp] theorem State.memory_placeLine (core pa) : (s.placeLine core pa).memory = s.memory := (rfl)
@[simp] theorem State.memory_sstore (uid off bs) : (s.sstore uid off bs).memory = s.memory := (rfl)

/-! Machine/Grant -/

@[simp] theorem State.memory_zeroSilo (uid lo hi) : (s.zeroSilo uid lo hi).memory = s.memory := (rfl)
@[simp] theorem State.memory_zeroScratch (uid lo hi) : (s.zeroScratch uid lo hi).memory = s.memory := (rfl)
@[simp] theorem State.memory_zeroGranules (uid lo hi) : (s.zeroGranules uid lo hi).memory = s.memory := (rfl)
@[simp] theorem State.memory_addFree (core slot n) : (s.addFree core slot n).memory = s.memory := (rfl)
@[simp] theorem State.memory_applyHold (core slot req) : (s.applyHold core slot req).memory = s.memory := by
  unfold State.applyHold; split <;> simp
@[simp] theorem State.memory_resumeGrant (core q) : (s.resumeGrant core q).memory = s.memory := by
  unfold State.resumeGrant; dsimp only; split <;> simp
@[simp] theorem State.memory_retestList (core qs) : (s.retestList core qs).memory = s.memory := by
  induction qs generalizing s with
  | nil => rfl
  | cons q qs ih =>
    unfold State.retestList; dsimp only; split
    · simp [ih]
    · split
      · rw [ih]; split <;> simp
      · simp [ih]
@[simp] theorem State.memory_retest (core) : (s.retest core).memory = s.memory := by simp [State.retest]

/-! Machine/Barrier -/

@[simp] theorem State.memory_copyG (src dst) : (s.copyG src dst).memory = s.memory := by simp [State.copyG]
@[simp] theorem State.memory_regroup (core slot n ps ngs) : (s.regroup core slot n ps ngs).memory = s.memory := by
  unfold State.regroup; dsimp only
  rw [State.memory_foldl fun s j => by split <;> simp]
  simp
@[simp] theorem State.memory_seqRest (core slot) : (s.seqRest core slot).memory = s.memory := by
  unfold State.seqRest; split <;> simp
@[simp] theorem State.memory_unpackAll (core slot n) : (s.unpackAll core slot n).memory = s.memory := by
  unfold State.unpackAll; split <;> simp
@[simp] theorem State.memory_barSettle (core slot n) : (s.barSettle core slot n).memory = s.memory := by
  unfold State.barSettle; dsimp only; repeat' split
  all_goals simp only [State.memory_unpackAll, State.memory_regroup]
  all_goals repeat rw [State.memory_foldl fun s e => by split <;> simp]
  all_goals simp
@[simp] theorem State.memory_packedEnd (g) : (s.packedEnd g).memory = s.memory := by
  unfold State.packedEnd; repeat' split
  all_goals simp
@[simp] theorem State.memory_workArrive (core slot n bytes pc) :
    (s.workArrive core slot n bytes pc).memory = s.memory := by
  unfold State.workArrive; split
  all_goals (try split)
  all_goals simp

/-! Machine/Memory -/

@[simp] theorem State.memory_loadUnit (g r n c) : (s.loadUnit g r n c).2.memory = s.memory := by
  unfold State.loadUnit; repeat' split
  all_goals simp
@[simp] theorem State.memory_loadLanes (g r n chk ls) : (s.loadLanes g r n chk ls).2.memory = s.memory := by
  induction ls generalizing s with
  | nil => rfl
  | cons l ls ih => simp [State.loadLanes, ih]
@[simp] theorem State.memory_countPages (g r ls chk addr) : (s.countPages g r ls chk addr).memory = s.memory := by
  simp [State.countPages]
@[simp] theorem State.memory_loadUnits (g r us) : (s.loadUnits g r us).2.memory = s.memory := by
  induction us generalizing s with
  | nil => rfl
  | cons u us ih => simp [State.loadUnits, ih]

/-! Machine/Home -/

@[simp] theorem State.memory_dropLeaf (ea) : (s.dropLeaf ea).memory = s.memory := (rfl)
@[simp] theorem State.memory_reap (g) : (s.reap g).memory = s.memory := by
  unfold State.reap; split
  all_goals (try split)
  all_goals simp
@[simp] theorem State.memory_remoteReply (g r wait) : (s.remoteReply g r wait).memory = s.memory := by
  unfold State.remoteReply; split
  · refine State.memory_waitDone ?_ ..
    simp
  · rfl
@[simp] theorem State.memory_dropEverywhere (line) : (s.dropEverywhere line).memory = s.memory := (rfl)
@[simp] theorem State.memory_groupLink (g r) : (s.groupLink g r).memory = s.memory := by
  unfold State.groupLink; split
  all_goals (try split)
  all_goals simp

/-! Machine/Future -/

@[simp] theorem State.memory_seen (core cs) : (s.seen core cs).memory = s.memory := by simp [State.seen]
@[simp] theorem State.memory_futTranslated (core asid ps) : (s.futTranslated core asid ps).memory = s.memory := by
  simp [State.futTranslated]
@[simp] theorem State.memory_queueTranslated (core asid da i acc seen) :
    (s.queueTranslated core asid da i acc seen).1.memory = s.memory := by
  simp [State.queueTranslated]
@[simp] theorem State.memory_noteDlq (p asid i) : (s.noteDlq p asid i).memory = s.memory := (rfl)
@[simp] theorem State.memory_taskInv (part asid cond addr) : (s.taskInv part asid cond addr).memory = s.memory :=
  (rfl)
@[simp] theorem State.memory_pushLink (k) : (s.pushLink k).memory = s.memory := by
  unfold State.pushLink; split <;> simp

/-! Machine/Copy -/

@[simp] theorem State.memory_copyFault (id c fr) : (s.copyFault id c fr).memory = s.memory := by
  simp [State.copyFault]
@[simp] theorem State.memory_post (o) : (s.post o).memory = s.memory := (rfl)
@[simp] theorem State.memory_copyLink (id) : (s.copyLink id).memory = s.memory := by
  unfold State.copyLink; dsimp only; repeat' split
  all_goals simp

/-! Machine/Launch -/

@[simp] theorem State.memory_putLink (n l) : (s.putLink n l).memory = s.memory := (rfl)
@[simp] theorem State.memory_putDie (d x) : (s.putDie d x).memory = s.memory := (rfl)
@[simp] theorem State.memory_newLaunch (ws addr asid priv queue) :
    (s.newLaunch ws addr asid priv queue).2.memory = s.memory :=
  (rfl)
@[simp] theorem State.memory_putLane (n l) : (s.putLane n l).memory = s.memory := (rfl)
@[simp] theorem State.memory_stopQueue (n code) : (s.stopQueue n code).memory = s.memory := by simp [State.stopQueue]
@[simp] theorem State.memory_queueError (n code) : (s.queueError n code).memory = s.memory := by simp [State.queueError]
@[simp] theorem State.memory_reserve (id x core k) : (s.reserve id x core k).1.memory = s.memory := by
  unfold State.reserve; dsimp only; split <;> simp
@[simp] theorem State.memory_decide_ (die) : (s.decide_ die).memory = s.memory := by
  unfold State.decide_; split
  · simp
  · split
    · rfl
    · dsimp only
      rw [State.memory_putDie]
      exact List.foldlRecOn (motive := fun a : State × Bool => a.1.memory = s.memory) _ _ rfl
        fun a h k _ => (a.1.memory_reserve ..).trans h
@[simp] theorem State.memory_startGroup (core slot c gslot grp gran entry arg argp spawned) :
    (s.startGroup core slot c gslot grp gran entry arg argp spawned).memory = s.memory :=
  (rfl)
@[simp] theorem State.memory_startCrew (core slot t sheaf) : (s.startCrew core slot t sheaf).memory = s.memory := by
  unfold State.startCrew; split <;> simp
@[simp] theorem State.memory_savedUp (die e) : (s.savedUp die e).memory = s.memory := by simp [State.savedUp]
@[simp] theorem State.memory_ageing (die id) : (s.ageing die id).memory = s.memory := by simp [State.ageing]
@[simp] theorem State.memory_endReservation (id) : (s.endReservation id).memory = s.memory := (rfl)
@[simp] theorem State.memory_endLaunch (id) : (s.endLaunch id).memory = s.memory := (rfl)
@[simp] theorem State.memory_removeCrew (core slot) : (s.removeCrew core slot).memory = s.memory := by
  unfold State.removeCrew; split <;> simp
@[simp] theorem State.memory_dropCrew (core slot) : (s.dropCrew core slot).memory = s.memory := by
  unfold State.dropCrew; split <;> simp

/-! Machine/Frame -/

@[simp] theorem State.memory_rebuildRegs (sv e) : (s.rebuildRegs sv e).memory = s.memory := by
  simp [State.rebuildRegs]
@[simp] theorem State.memory_rebuildSilo (sv b) : (s.rebuildSilo sv b).memory = s.memory := by simp [State.rebuildSilo]
@[simp] theorem State.memory_rebuild (sv) : (s.rebuild sv).1.memory = s.memory := by simp [State.rebuild]

/-! Machine/Lattice -/

@[simp] theorem State.memory_syncGain (desc src dst line) : (s.syncGain desc src dst line).memory = s.memory := (rfl)
@[simp] theorem State.memory_latDesc (desc asid cond) : (s.latDesc desc asid cond).memory = s.memory := (rfl)
@[simp] theorem State.memory_markReleased (die cells) : (s.markReleased die cells).memory = s.memory := (rfl)
@[simp] theorem State.memory_latReturn (g r f timed ls) : (s.latReturn g r f timed ls).memory = s.memory := by
  simp [State.latReturn]
@[simp] theorem State.memory_threshEnd (g r f timed ls) : (s.threshEnd g r f timed ls).memory = s.memory := by
  simp [State.threshEnd]
@[simp] theorem State.memory_peekRead (g k) : (s.peekRead g k).memory = s.memory := by
  unfold State.peekRead; dsimp only; repeat' split
  all_goals simp
@[simp] theorem State.memory_threshFinish (g r timed) : (s.threshFinish g r timed).memory = s.memory := by
  simp [State.threshFinish]

/-! Machine/Context -/

@[simp] theorem State.memory_startSave (c) : (s.startSave c).memory = s.memory := by simp [State.startSave]
@[simp] theorem State.memory_dropSave (c) : (s.dropSave c).memory = s.memory := by simp [State.dropSave]
@[simp] theorem State.memory_clearRegs (uid) : (s.clearRegs uid).memory = s.memory := (rfl)
@[simp] theorem State.memory_spillFail (launch sheaf index) : (s.spillFail launch sheaf index).memory = s.memory := by
  unfold State.spillFail; split <;> simp

/-! Machine/Recovery -/

@[simp] theorem State.memory_exitParked (g r ls) : (s.exitParked g r ls).memory = s.memory := by
  unfold State.exitParked; split <;> simp
@[simp] theorem State.memory_groupEnds (g r) : (s.groupEnds g r).memory = s.memory := by
  unfold State.groupEnds; split <;> simp
@[simp] theorem State.memory_formHandler (core crew issueSlot c ws) :
    (s.formHandler core crew issueSlot c ws).memory = s.memory := by
  simp [State.formHandler]
@[simp] theorem State.memory_stampWaiting (core slot) : (s.stampWaiting core slot).memory = s.memory := by
  simp [State.stampWaiting]
@[simp] theorem State.memory_dumpNote (g r asid pc fr) : (s.dumpNote g r asid pc fr).memory = s.memory := (rfl)
@[simp] theorem State.memory_abandon (core slot c) : (s.abandon core slot c).memory = s.memory := (rfl)
@[simp] theorem State.memory_startFatal (core slot issueSlot c st) :
    (s.startFatal core slot issueSlot c st).memory = s.memory :=
  (rfl)
@[simp] theorem State.memory_raiseStop (core slot c frs) : (s.raiseStop core slot c frs).1.memory = s.memory := by
  simp [State.raiseStop]
/-- An injected error marks a unit or an engine; the bytes stay. -/
theorem State.memory_errInject {target p} {t : State} (h : s.errInject target p = some t) : t.memory = s.memory := by
  unfold State.errInject at h; dsimp only at h
  repeat' split at h
  all_goals cases h
  all_goals rfl
@[simp] theorem State.memory_memError (pa bad) : (s.memError pa bad).memory = s.memory := by
  unfold State.memError
  cases h : s.errInject (if bad then 3 else 2) (BitVec.ofNat 64 pa) with
  | none => rfl
  | some t => exact s.memory_errInject h
@[simp] theorem State.memory_crewError (core slot bad) : (s.crewError core slot bad).memory = s.memory := by
  unfold State.crewError; split <;> simp

/-! Machine/Debug -/

@[simp] theorem State.memory_bkpt (g r f) : (s.bkpt g r f).1.memory = s.memory := (rfl)
@[simp] theorem State.memory_stopGroup (g) : (s.stopGroup g).memory = s.memory := by
  unfold State.stopGroup; split <;> simp
@[simp] theorem State.memory_putTarget (t r) : (s.putTarget t r).memory = s.memory := by
  unfold State.putTarget; split <;> simp
@[simp] theorem State.memory_stepReport (who k lane limit n skipped fin) :
    (s.stepReport who k lane limit n skipped fin).memory = s.memory := by
  unfold State.stepReport; repeat' split
  all_goals simp
@[simp] theorem State.memory_resumeCrew (k) : (s.resumeCrew k).memory = s.memory := (rfl)
@[simp] theorem State.memory_hres (t scope) : (s.hres t scope).1.memory = s.memory := by
  unfold State.hres; split
  all_goals (try split)
  all_goals simp
@[simp] theorem State.memory_triggerBoth (m) : (s.triggerBoth m).memory = s.memory := by simp [State.triggerBoth]
@[simp] theorem State.memory_probe (asid priv e reduce) : (s.probe asid priv e reduce).2.memory = s.memory := (rfl)
@[simp] theorem State.memory_probes (c r) : (s.probes c r).memory = s.memory := by simp [State.probes]
@[simp] theorem State.memory_tickGroup (k) : (s.tickGroup k).memory = s.memory := by
  unfold State.tickGroup; dsimp only; split <;> simp
@[simp] theorem State.memory_tickParts (k) : (s.tickParts k).memory = s.memory := by
  unfold State.tickParts; split <;> simp

/-! Machine/Matrix -/

@[simp] theorem State.memory_seqFault (core slot c fr) : (s.seqFault core slot c fr).memory = s.memory := by
  simp [State.seqFault]
@[simp] theorem State.memory_sticky (o fl) : (s.sticky o fl).memory = s.memory := by
  unfold State.sticky; split <;> simp
@[simp] theorem State.memory_poisonRows (uid lo hi b) : (s.poisonRows uid lo hi b).memory = s.memory := (rfl)
@[simp] theorem State.memory_putOp (id o) : (s.putOp id o).memory = s.memory := (rfl)
@[simp] theorem State.memory_opFault (id o fr) : (s.opFault id o fr).memory = s.memory := by simp [State.opFault]
@[simp] theorem State.memory_opDone (id o bytes) : (s.opDone id o bytes).memory = s.memory := by simp [State.opDone]
@[simp] theorem State.memory_fillRegion (o c0 nc x) : (s.fillRegion o c0 nc x).memory = s.memory := (rfl)
@[simp] theorem State.memory_beatTab (id k o) : (s.beatTab id k o).memory = s.memory := by
  unfold State.beatTab; dsimp only; repeat' split
  all_goals simp
@[simp] theorem State.memory_beatA (id k o) : (s.beatA id k o).memory = s.memory := by
  unfold State.beatA; dsimp only; repeat' split
  all_goals simp
@[simp] theorem State.memory_beatIn (id b o) : (s.beatIn id b o).memory = s.memory := by
  unfold State.beatIn; dsimp only; split <;> simp
@[simp] theorem State.memory_opLink (id) : (s.opLink id).memory = s.memory := by
  unfold State.opLink; dsimp only; repeat' split
  all_goals simp
@[simp] theorem State.memory_seqLink (core slot) : (s.seqLink core slot).memory = s.memory := by
  unfold State.seqLink; split <;> simp
@[simp] theorem State.memory_engineReset (engine) : (s.engineReset engine).memory = s.memory := by
  unfold State.engineReset; dsimp only
  rw [State.memory_logEvent, State.memory_putEngine, State.memory_foldl fun s u => by split <;> simp]
  simp

/-! Machine/Tenancy -/

@[simp] theorem State.memory_setStat (die x) : (s.setStat die x).memory = s.memory := (rfl)
@[simp] theorem State.memory_dropCode (asid va lvl) : (s.dropCode asid va lvl).memory = s.memory := (rfl)
@[simp] theorem State.memory_shoot (die asid va lvl) : (s.shoot die asid va lvl).memory = s.memory := (rfl)

/-! Machine/Thresher -/

@[simp] theorem State.memory_laneFault (n fr) : (s.laneFault n fr).memory = s.memory := by simp [State.laneFault]
@[simp] theorem State.memory_pollBuffer (n a i cnt rest) : (s.pollBuffer n a i cnt rest).memory = s.memory := by
  unfold State.pollBuffer; dsimp only; split <;> simp
@[simp] theorem State.memory_ringFault (n) : (s.ringFault n).memory = s.memory := by simp [State.ringFault]
@[simp] theorem State.memory_pollRing (n) : (s.pollRing n).memory = s.memory := by simp [State.pollRing]
@[simp] theorem State.memory_laneRead (lane a n) : (s.laneRead lane a n).memory = s.memory := by
  unfold State.laneRead; split <;> simp
@[simp] theorem State.memory_leaveRound (n) : (s.leaveRound n).memory = s.memory := (rfl)
@[simp] theorem State.memory_deviceLaunch (lane i slot bs) : (s.deviceLaunch lane i slot bs).memory = s.memory :=
  (rfl)
@[simp] theorem State.memory_laneLink (n) : (s.laneLink n).memory = s.memory := by
  unfold State.laneLink; repeat' split
  all_goals simp

/-! Machine/Host -/

@[simp] theorem State.memory_putGranary (x) : (s.putGranary x).memory = s.memory := (rfl)
@[simp] theorem State.memory_backoffWrite (off w) : (s.backoffWrite off w).memory = s.memory := by
  simp [State.backoffWrite]
@[simp] theorem State.memory_hqdOffLane (n) : (s.hqdOffLane n).memory = s.memory := by simp [State.hqdOffLane]
@[simp] theorem State.memory_hqdWrite (off v) : (s.hqdWrite off v).memory = s.memory := by simp [State.hqdWrite]
@[simp] theorem State.memory_mailStart (code result) : (s.mailStart code result).memory = s.memory := (rfl)
@[simp] theorem State.memory_unmask (vec) : (s.unmask vec).memory = s.memory := (rfl)
@[simp] theorem State.memory_msixWrite (off w) : (s.msixWrite off w).memory = s.memory := by simp [State.msixWrite]
@[simp] theorem State.memory_logFree (source) : (s.logFree source).memory = s.memory := by simp [State.logFree]
@[simp] theorem State.memory_countUnsupported : s.countUnsupported.memory = s.memory := (rfl)
@[simp] theorem State.memory_setBar2 (x) : (s.setBar2 x).memory = s.memory := (rfl)
@[simp] theorem State.memory_setResult (x) : (s.setResult x).memory = s.memory := (rfl)
@[simp] theorem State.memory_clockStep (n) : (s.clockStep n).memory = s.memory := (rfl)

/-! Machine/Fetch -/

@[simp] theorem State.memory_groupRun (g r i) : (s.groupRun g r i).memory = s.memory := (rfl)

end

/-! ### The operations that write memory -/

section

variable {s t : State}

@[simp] theorem State.memoryWf_storeCells (h : MemoryWf s.memory) (cs) : MemoryWf (s.storeCells cs).memory :=
  State.memWf_storeCells h cs
@[simp] theorem State.memoryWf_store (h : MemoryWf s.memory) (pa bs) : MemoryWf (s.store pa bs).memory :=
  State.memWf_store h pa bs
@[simp] theorem State.memoryWf_storeWord (h : MemoryWf s.memory) (pa n x) : MemoryWf (s.storeWord pa n x).memory :=
  State.memWf_storeWord h pa n x
@[simp] theorem State.memoryWf_pstore (h : MemoryWf s.memory) (pa n x) : MemoryWf (s.pstore pa n x).memory :=
  State.memWf_pstore h pa n x
@[simp] theorem State.memoryWf_hstore (h : MemoryWf s.memory) (a bs) : MemoryWf (s.hstore a bs).memory :=
  State.memWf_hstore h a bs
@[simp] theorem State.memoryWf_movePage (h : MemoryWf s.memory) (a b) : MemoryWf (s.movePage a b).memory :=
  State.memWf_movePage h a b
@[simp] theorem State.memoryWf_writeFrames (h : MemoryWf s.memory) (sv) : MemoryWf (s.writeFrames sv).memory :=
  State.memWf_writeFrames h sv

theorem State.memoryWf_ite {c : Prop} [Decidable c] (hs : MemoryWf s.memory) (ht : MemoryWf t.memory) :
    MemoryWf (if c then s else t).memory := by
  split <;> assumption

/-- A run over a list keeps the form where each turn does. -/
theorem State.memoryWf_foldl {α : Type*} {f : State → α → State} (hf : ∀ s x, MemoryWf s.memory → MemoryWf (f s x).memory)
    (l : List α) (h : MemoryWf s.memory) : MemoryWf (l.foldl f s).memory :=
  List.foldlRecOn (motive := fun s => MemoryWf s.memory) l f h fun s hs x _ => hf s x hs

/-- A run over a list that may break off keeps the form where each turn does. -/
theorem State.memoryWf_foldl_option {α : Type*} {f : Option State → α → Option State} (hn : ∀ x, f none x = none)
    (hf : ∀ s x, MemoryWf s.memory → ∀ t ∈ f (some s) x, MemoryWf t.memory) (l : List α) (h : MemoryWf s.memory) :
    ∀ t ∈ l.foldl f (some s), MemoryWf t.memory := by
  refine List.foldlRecOn (motive := fun o => ∀ t ∈ o, MemoryWf t.memory) l f (fun t ht => Option.mem_some_iff.mp ht ▸ h)
    fun o ho x _ => ?_
  cases o with
  | none => simp [hn]
  | some u => exact hf u x (ho u rfl)

theorem State.memoryWf_getD {o : Option State} (h : MemoryWf s.memory) (ho : ∀ t ∈ o, MemoryWf t.memory) :
    MemoryWf (o.getD s).memory := by
  cases o with
  | none => exact h
  | some u => exact ho u rfl

/-! Trace records -/

theorem State.memoryWf_ringWrite (h : MemoryWf s.memory) (core asid va bs) :
    ∀ t ∈ s.ringWrite core asid va bs, MemoryWf t.memory := by
  refine State.memoryWf_foldl_option (fun _ => rfl) (fun u i hu t ht => ?_) _ h
  obtain ⟨pa, -, rfl⟩ := Option.map_eq_some_iff.mp ht
  exact State.memoryWf_store hu _ _

@[simp] theorem State.memoryWf_traceUnits (h : MemoryWf s.memory) (core asid rec) :
    MemoryWf (s.traceUnits core asid rec).memory := by
  unfold State.traceUnits; dsimp only
  split
  · split
    · split
      · exact State.memoryWf_getD h (State.memoryWf_ringWrite h _ _ _ _)
      · exact h
    · split
      · next u hu =>
        have hu : MemoryWf u.memory := State.memoryWf_foldl_option (fun _ => rfl)
          (fun v i hv => State.memoryWf_ringWrite hv _ _ _ _) _ h u hu
        exact State.memoryWf_getD h (State.memoryWf_ringWrite hu _ _ _ _)
      · exact h
  · exact h

@[simp] theorem State.memoryWf_trace (h : MemoryWf s.memory) (g r op ls addr) : MemoryWf (s.trace g r op ls addr).memory := by
  unfold State.trace; dsimp only; split <;> simp [h]

/-! Writes at home, and the steps that make them -/

theorem State.memoryWf_homeWrite (h : MemoryWf s.memory) {me asid va cells}
    (ht : s.homeWrite me asid va cells = .ok t) : MemoryWf t.memory := State.memWf_homeWrite h ht

theorem State.memoryWf_homeWrites (h : MemoryWf s.memory) {me asid ps} (ht : s.homeWrites me asid ps = .ok t) :
    MemoryWf t.memory := State.memWf_homeWrites h ht

@[simp] theorem State.memoryWf_drain (h : MemoryWf s.memory) (g k) : MemoryWf (s.drain g k).memory := by
  unfold State.drain; dsimp only
  split
  · exact h
  · split
    · exact h
    · split
      · exact h
      · split
        · simp [h]
        · split
          · simp [h]
          · simp [h]
          · split
            · split <;> simp [h]
            · split
              · next u hu =>
                have hu : MemoryWf u.memory := State.memoryWf_homeWrites (by split <;> simp [h]) hu
                simp [hu]
              · simp [h]
              · split <;> simp [h]

theorem State.memoryWf_homePut (h : MemoryWf s.memory) {me core asid va pa acc bs}
    (ht : s.homePut me core asid va pa acc bs = .ok t) : MemoryWf t.memory := by
  unfold State.homePut at ht; dsimp only at ht
  split at ht
  · next u hu => cases ht; simp [State.memoryWf_homeWrite h hu]
  · cases ht
  · cases ht

theorem State.memoryWf_homeStore (h : MemoryWf s.memory) {me core asid va acc bs}
    (ht : s.homeStore me core asid va acc bs = .ok t) : MemoryWf t.memory := by
  unfold State.homeStore at ht
  split at ht
  · exact State.memoryWf_homePut h ht
  · cases ht

theorem State.memoryWf_workWrite (h : MemoryWf s.memory) {me core asid cells}
    (ht : s.workWrite me core asid cells = .ok t) : MemoryWf t.memory := by
  unfold State.workWrite at ht; dsimp only at ht
  split at ht
  · cases ht
  · cases ht
  · next u hu => cases ht; simp [State.memoryWf_homeWrites h hu]

/-! Futures and device queues -/

theorem State.memoryWf_joinDec (h : MemoryWf s.memory) {me ps core asid ja poison}
    (ht : s.joinDec me ps core asid ja poison = .ok t) : MemoryWf t.memory := by
  unfold State.joinDec at ht; dsimp only at ht
  split at ht
  · cases ht
  · split at ht
    · cases ht
    · next u hu =>
      have hu := State.memoryWf_homePut h hu
      split at ht <;> cases ht
      · exact hu
      · exact hu

theorem State.memoryWf_futPut (h : MemoryWf s.memory) {me core asid va pa st jrec value}
    (ht : s.futPut me core asid va pa st jrec value = .ok t) : MemoryWf t.memory := State.memoryWf_homePut h ht

theorem State.memoryWf_futReg (h : MemoryWf s.memory) {me ps core asid va ja}
    (ht : s.futReg me ps core asid va ja = .ok t) : MemoryWf t.memory := by
  unfold State.futReg at ht; dsimp only at ht
  split at ht
  · cases ht
  · split at ht
    · split at ht <;> cases ht
      next hu => exact State.memoryWf_futPut h hu
    · cases ht
    · split at ht <;> cases ht
      next hu => exact State.memoryWf_joinDec h hu

theorem State.memoryWf_futRes (h : MemoryWf s.memory) {me ps core asid va st value}
    (ht : s.futRes me ps core asid va st value = .ok t) : MemoryWf t.memory := by
  unfold State.futRes at ht; dsimp only at ht
  split at ht
  · cases ht
  · split at ht
    · cases ht
    · split at ht
      · cases ht
      · next u hu =>
        have hu : MemoryWf u.memory := by
          split at hu
          · exact State.memoryWf_joinDec h hu
          · cases hu; exact h
        split at ht <;> cases ht
        next hv => exact State.memoryWf_futPut hu hv

theorem State.memoryWf_workResolve (h : MemoryWf s.memory) {me asid va st value pc}
    (ht : s.workResolve me asid va st value pc = .ok t) : MemoryWf t.memory := by
  unfold State.workResolve at ht
  split at ht
  · next u hu => cases ht; exact State.memoryWf_futRes h hu
  · cases ht; simpa using h
  · cases ht; simpa using h
  · cases ht

/-- The states a step at a device queue leads to have their memory in canonical form. -/
@[simp] def QStep.Sound : QStep → Prop
  | .took s _ => MemoryWf s.memory
  | .done s _ => MemoryWf s.memory
  | .none | .wait | .fault _ => True

theorem QStep.Sound.took {x : QStep} (hx : x.Sound) {i} (h : x = .took t i) : MemoryWf t.memory := by subst h; exact hx
theorem QStep.Sound.done {x : QStep} (hx : x.Sound) {bs} (h : x = .done t bs) : MemoryWf t.memory := by subst h; exact hx

theorem QStep.sound_of {x : Except FRec State} (h : ∀ t, x = .ok t → MemoryWf t.memory) (data) : (QStep.of x data).Sound := by
  cases x with
  | ok s => exact h s rfl
  | error fr => trivial

theorem State.sound_qReserve (h : MemoryWf s.memory) (me core asid da acc) : (s.qReserve me core asid da acc).Sound := by
  unfold State.qReserve
  split
  · trivial
  · split
    · split
      · next hu => exact State.memoryWf_homePut h hu
      · trivial
    · trivial

theorem State.sound_qTake (h : MemoryWf s.memory) (me core asid da acc) : (s.qTake me core asid da acc).Sound := by
  unfold State.qTake
  split
  · trivial
  · split
    · split
      · next hu => exact State.memoryWf_homePut h hu
      · trivial
    · trivial

theorem State.sound_qFill (h : MemoryWf s.memory) (me core asid da acc i data) :
    (s.qFill me core asid da acc i data).Sound := by
  unfold State.qFill
  split
  · trivial
  · split
    · trivial
    · split
      · trivial
      · split
        · trivial
        · next hu => exact QStep.sound_of (fun t ht => State.memoryWf_homeStore (State.memoryWf_homeStore h hu) ht) _

theorem State.sound_qEmpty (h : MemoryWf s.memory) (me core asid da acc i) : (s.qEmpty me core asid da acc i).Sound := by
  unfold State.qEmpty
  split
  · trivial
  · split
    · trivial
    · split
      · trivial
      · split
        · trivial
        · exact QStep.sound_of (fun t ht => State.memoryWf_homeStore h ht) _

/-! Copies -/

@[simp] theorem State.memoryWf_copyStep (h : MemoryWf s.memory) (id k c) : MemoryWf (s.copyStep id k c).memory := by
  unfold State.copyStep; dsimp only
  refine State.memoryWf_ite h (State.memoryWf_ite h ?_)
  split
  · simp [h]
  · simp [h]
  · split
    · exact h
    · simp [h]
    · next u hu =>
      have hu : MemoryWf u.memory := by
        split at hu
        · cases hu; exact h
        · exact State.memoryWf_workWrite h hu
      simp [hu]

/-! Launches and their completion -/

@[simp] theorem State.memoryWf_setRidx (h : MemoryWf s.memory) (n x) : MemoryWf (s.setRidx n x).memory := by
  unfold State.setRidx; dsimp only
  split
  · simp [h]
  · split <;> simp [h]

@[simp] theorem State.memoryWf_packetTaken (h : MemoryWf s.memory) (n) : MemoryWf (s.packetTaken n).memory := by
  unfold State.packetTaken; dsimp only; split <;> simp [h]

theorem State.eq_ok_of_completionLink {x va n acc go} (ht : s.completionLink x va n acc go = .ok t) : go = .ok t := by
  unfold State.completionLink at ht
  split at ht
  · cases ht
  · exact ht

@[simp] theorem State.memoryWf_completeFuture (h : MemoryWf s.memory) (id x) : MemoryWf (s.completeFuture id x).memory := by
  unfold State.completeFuture; dsimp only
  split
  · simp [h]
  · split
    · next u hu =>
      have hu := State.eq_ok_of_completionLink hu
      have hu : MemoryWf u.memory := by split at hu <;> exact State.memoryWf_workResolve h hu
      simp [hu]
    · split
      · exact h
      · split <;> simp [h]

@[simp] theorem State.memoryWf_completeWrite (h : MemoryWf s.memory) (id x) : MemoryWf (s.completeWrite id x).memory := by
  unfold State.completeWrite; dsimp only
  split
  · simp [h]
  · split
    · next hu =>
      simp [State.memoryWf_homeStore h (State.eq_ok_of_completionLink hu)]
    · split
      · exact h
      · split <;> simp [h]

@[simp] theorem State.memoryWf_completion (h : MemoryWf s.memory) (id) : MemoryWf (s.completion id).memory := by
  unfold State.completion
  split
  · exact h
  · split <;> simp [h]

@[simp] theorem State.memoryWf_crewGone (h : MemoryWf s.memory) (id) : MemoryWf (s.crewGone id).memory := by
  unfold State.crewGone; dsimp only
  split
  · exact h
  · split <;> simp [h]

theorem State.memoryWf_placeSpawn (h : MemoryWf s.memory) {me part core rec_} (ht : s.placeSpawn me part core rec_ = .ok t) :
    MemoryWf t.memory := by
  unfold State.placeSpawn at ht; dsimp only at ht
  split at ht
  · cases ht; simp [h]
  · split at ht
    · cases ht
    · split at ht <;> cases ht
      next hu => simp [State.memoryWf_homeStore h hu]

/-! Saved crews, kills, dumps -/

@[simp] theorem State.memoryWf_takeFrames (h : MemoryWf s.memory) (part n) : MemoryWf (s.takeFrames part n).2.memory :=
  State.memoryWf_pstore h ..

@[simp] theorem State.memoryWf_giveFrames (h : MemoryWf s.memory) (part fs) : MemoryWf (s.giveFrames part fs).memory := by
  unfold State.giveFrames; dsimp only
  split
  · exact h
  · exact State.memoryWf_pstore (State.memoryWf_foldl (fun s i hs => State.memoryWf_pstore hs ..) _ h) ..

@[simp] theorem State.memoryWf_writeSheaf (h : MemoryWf s.memory) (c) : MemoryWf (s.writeSheaf c).memory :=
  State.memoryWf_foldl (fun s e hs => by simp [hs]) _ h

@[simp] theorem State.memoryWf_saveCrew (h : MemoryWf s.memory) (k) : MemoryWf (s.saveCrew k).memory := by
  unfold State.saveCrew; dsimp only; split <;> simp [h]

theorem State.memoryWf_restoreCrew (h : MemoryWf s.memory) {id core sv} :
    ∀ t ∈ s.restoreCrew id core sv, MemoryWf t.memory := by
  unfold State.restoreCrew
  have h1 : MemoryWf (if s.formatsOk sv then s.rebuild sv else (s, sv)).1.memory := by split <;> simp [h]
  generalize (if s.formatsOk sv then s.rebuild sv else (s, sv)) = p at h1 ⊢
  obtain ⟨u, sv⟩ := p
  intro t ht
  dsimp only at ht
  cases hf : u.freeCrewSlots core with
  | nil => rw [hf] at ht; cases ht
  | cons slot slots =>
    rw [hf] at ht
    dsimp only at ht
    refine State.memoryWf_foldl_option ?_ ?_ _ ?_ t ht
    · exact fun _ => rfl
    · intro v x hv t ht
      dsimp only at ht
      split at ht <;> cases ht
      next hp => exact State.memoryWf_placeSpawn hv hp
    · simp [h1]

@[simp] theorem State.memoryWf_killSaved (h : MemoryWf s.memory) (launch) : MemoryWf (s.killSaved launch).memory :=
  State.memoryWf_foldl (fun s e hs => by simp [hs]) _ h

@[simp] theorem State.memoryWf_killSavedOf (h : MemoryWf s.memory) (which) : MemoryWf (s.killSavedOf which).memory :=
  State.memoryWf_foldl (fun s e hs => by simp [hs]) _ h

@[simp] theorem State.memoryWf_killCrew (h : MemoryWf s.memory) (core slot) : MemoryWf (s.killCrew core slot).memory := by
  unfold State.killCrew; dsimp only
  split
  · exact h
  · refine State.memoryWf_crewGone ?_ _
    rw [State.memory_dropCrew, State.memory_modCore]
    exact State.memoryWf_ite (State.memoryWf_killSaved (by simp [h]) _) h

theorem State.memoryWf_dumpWrite (h : MemoryWf s.memory) {me lk core asid cs} (ht : s.dumpWrite me lk core asid cs = .ok t) :
    MemoryWf t.memory := by
  unfold State.dumpWrite at ht; dsimp only at ht
  split at ht
  · cases ht
  · split at ht
    · cases ht
    · split at ht <;> cases ht
      next hu => exact State.memoryWf_workWrite h hu

theorem State.memoryWf_dumpPages (h : MemoryWf s.memory) {me lk core asid ps bad}
    (ht : s.dumpPages me lk core asid ps = .upTo t bad) : MemoryWf t.memory := by
  induction ps generalizing s with
  | nil => cases ht; exact h
  | cons p ps ih =>
    unfold State.dumpPages at ht
    split at ht
    · cases ht
    · cases ht; exact h
    · next hu => exact ih (State.memoryWf_dumpWrite h hu) ht

/-- The states a dump's step leads to have their memory in canonical form. -/
@[simp] def DumpStep.Sound : DumpStep → Prop
  | .hold s _ => MemoryWf s.memory
  | .done s _ => MemoryWf s.memory
  | .retry => True

theorem DumpStep.Sound.hold {x : DumpStep} (hx : x.Sound) {w} (h : x = .hold t w) : MemoryWf t.memory := by subst h; exact hx
theorem DumpStep.Sound.done {x : DumpStep} (hx : x.Sound) {y} (h : x = .done t y) : MemoryWf t.memory := by subst h; exact hx

theorem State.sound_dump (h : MemoryWf s.memory) (g r asid buf size pc) : (s.dump g r asid buf size pc).Sound := by
  unfold State.dump; dsimp only
  split
  · split
    · trivial
    · next hu => simp [State.memoryWf_dumpPages h hu]
    · next hu => simp [State.memoryWf_dumpPages h hu]
  · split
    · trivial
    · simp [h]
    · next hu => simp [State.memoryWf_dumpWrite h hu]
  · split
    · trivial
    · split
      · simp [h]
      · split
        · simp [h]
        · split
          · trivial
          · simp [h]
          · next hu => simp [State.memoryWf_dumpWrite h hu]

@[simp] theorem State.memoryWf_firmware (h : MemoryWf s.memory) (g r) : MemoryWf (s.firmware g r).memory := by
  unfold State.firmware; dsimp only
  split
  · split
    · simp [h]
    · split <;> simp [h]
  · refine State.memoryWf_ite (by simp [h]) ?_
    split
    · exact h
    · next hu => simp [(State.sound_dump h ..).hold hu]
    · next hu => simp [(State.sound_dump h ..).done hu]
  · exact h

/-! The engine's beats, replays, the page-table engine, the Thresher, the device's cold start -/

@[simp] theorem State.memoryWf_beatOut (h : MemoryWf s.memory) (id b o) : MemoryWf (s.beatOut id b o).memory := by
  unfold State.beatOut; dsimp only
  split
  · simp [h]
  · split
    · simp [h]
    · split
      · exact h
      · simp [h]
      · next u hu =>
        have hu : MemoryWf u.memory := by
          split at hu
          · cases hu; exact h
          · exact State.memoryWf_workWrite h hu
        simp [hu]

@[simp] theorem State.memoryWf_freplay (h : MemoryWf s.memory) (part w) : MemoryWf (s.freplay part w).memory := by
  unfold State.freplay; dsimp only
  split
  · exact h
  · exact State.memoryWf_foldl (fun s e hs => State.memoryWf_completion hs _) _ h

theorem State.memoryWf_splinterFrame (h : MemoryWf s.memory) {die} : ∀ x ∈ s.splinterFrame die, MemoryWf x.2.memory := by
  unfold State.splinterFrame; dsimp only; split <;> simp [h]

@[simp] theorem State.memoryWf_splinter (h : MemoryWf s.memory) (e lvl ea frame) :
    MemoryWf (s.splinter e lvl ea frame).memory := by
  unfold State.splinter; dsimp only
  rw [State.memory_dropLeaf]
  exact State.memoryWf_pstore (State.memoryWf_foldl (fun s i hs => State.memoryWf_pstore hs ..) _ h) ..

theorem State.memoryWf_reach (h : MemoryWf s.memory) {die asid va want n ea} (ht : s.reach die asid va want n = .ok (t, ea)) :
    MemoryWf t.memory := by
  induction n generalizing s with
  | zero => cases ht
  | succ n ih =>
    unfold State.reach at ht
    split at ht
    · cases ht
    · cases ht; exact h
    · split at ht
      · cases ht
      · next hu => exact ih (State.memoryWf_splinter (State.memoryWf_splinterFrame h _ hu) ..) ht

@[simp] theorem State.memoryWf_packetWrite (h : MemoryWf s.memory) (lane p n x) :
    MemoryWf (s.packetWrite lane p n x).memory := by
  unfold State.packetWrite; dsimp only
  split
  · simp [h]
  · split
    · simp [h]
    · next hu =>
      refine State.memoryWf_packetTaken ?_ _
      simp [State.memoryWf_homeStore h hu]

@[simp] theorem State.memoryWf_queueRestart (h : MemoryWf s.memory) (lane) : MemoryWf (s.queueRestart lane).memory := by
  unfold State.queueRestart; dsimp only; split <;> simp [h]

@[simp] theorem State.memoryWf_thermalStop (h : MemoryWf s.memory) : MemoryWf s.thermalStop.memory := by
  unfold State.thermalStop; dsimp only
  refine State.memoryWf_killSavedOf ?_ _
  rw [State.memory_mk, State.memory_pair]
  simp [h]

@[simp] theorem State.memoryWf_sample (h : MemoryWf s.memory) (dieTemp overLimit) :
    MemoryWf (s.sample dieTemp overLimit).memory := by
  unfold State.sample; dsimp only
  refine State.memoryWf_ite (State.memoryWf_thermalStop ?_) ?_ <;> simp [h]

/-- A cold start keeps the memory outside the device and lists none of its own. -/
@[simp] theorem State.memoryWf_cold (h : MemoryWf s.memory) : MemoryWf s.cold.memory :=
  ⟨twf_filter _ h.1, h.2⟩

end

/-! ### What issuing an instruction does to memory -/

section

variable {s t : State}

/-- The states that a result holds have their memory in canonical form. -/
def Res.Sound : Res → Prop
  | .ok s _ _ _ _ => MemoryWf s.memory
  | .wait s _ _ _ => MemoryWf s.memory
  | .fatalAt s _ => MemoryWf s.memory
  | .pageAt s _ => MemoryWf s.memory
  | .haltAt s _ => MemoryWf s.memory
  | .gone s => MemoryWf s.memory
  | .ended s => MemoryWf s.memory
  | .predicate s _ _ _ => MemoryWf s.memory
  | .fatal _ => True
  | .page _ => True
  | .halt _ => True
  | .retry => True

@[simp] theorem Res.sound_ok (r pre post traps) : (Res.ok s r pre post traps).Sound ↔ MemoryWf s.memory := Iff.rfl
@[simp] theorem Res.sound_wait (r pre traps) : (Res.wait s r pre traps).Sound ↔ MemoryWf s.memory := Iff.rfl
@[simp] theorem Res.sound_fatalAt (fr) : (Res.fatalAt s fr).Sound ↔ MemoryWf s.memory := Iff.rfl
@[simp] theorem Res.sound_pageAt (fr) : (Res.pageAt s fr).Sound ↔ MemoryWf s.memory := Iff.rfl
@[simp] theorem Res.sound_haltAt (ms) : (Res.haltAt s ms).Sound ↔ MemoryWf s.memory := Iff.rfl
@[simp] theorem Res.sound_predicate (r n w) : (Res.predicate s r n w).Sound ↔ MemoryWf s.memory := Iff.rfl
@[simp] theorem Res.sound_fatal (fr) : (Res.fatal fr).Sound := trivial
@[simp] theorem Res.sound_page (fr) : (Res.page fr).Sound := trivial
@[simp] theorem Res.sound_halt (ms) : (Res.halt ms).Sound := trivial
@[simp] theorem Res.sound_retry : Res.retry.Sound := trivial
@[simp] theorem Res.sound_ended : (Res.ended s).Sound ↔ MemoryWf s.memory := Iff.rfl
@[simp] theorem Res.sound_gone : (Res.gone s).Sound ↔ MemoryWf s.memory := Iff.rfl
@[simp] theorem Res.sound_done (r) : (Res.done s r).Sound ↔ MemoryWf s.memory := Iff.rfl
@[simp] theorem Res.sound_hold (r) : (Res.hold s r).Sound ↔ MemoryWf s.memory := Iff.rfl

theorem Res.sound_at_ (h : MemoryWf s.memory) {x : Res} (hx : x.Sound) : (x.at_ s).Sound := by
  cases x with
  | fatal fr => exact h
  | page fr => exact h
  | halt ms => exact h
  | _ => exact hx

theorem Res.sound_ite {c : Prop} [Decidable c] {x y : Res} (hx : x.Sound) (hy : y.Sound) :
    (if c then x else y).Sound := by
  split <;> assumption

theorem State.memoryWf_complete {s' : State} (h : MemoryWf s.memory) (h' : MemoryWf s'.memory)
    (g r f sh noMatch r' pre post traps) :
    MemoryWf (s.complete g r f sh noMatch s' r' pre post traps).memory :=
  (s.memory_complete_cases g r f sh noMatch s' r' pre post traps).elim (· ▸ h) (· ▸ h')

theorem State.memoryWf_completeEnded {s' : State} (h : MemoryWf s.memory) (h' : MemoryWf s'.memory) (g r f noMatch pre) :
    MemoryWf (s.completeEnded g r f noMatch s' pre).memory :=
  (s.memory_completeEnded_cases g r f noMatch s' pre).elim (· ▸ h) (· ▸ h')

theorem State.memoryWf_settle (h : MemoryWf s.memory) {x : Res} (hx : x.Sound) (g r f sh noMatch) :
    MemoryWf (s.settle g r f sh noMatch x).memory := by
  unfold State.settle; dsimp only
  cases x with
  | ok s' r' pre post traps =>
    exact State.memoryWf_ite (by simp [h]) (State.memoryWf_complete h hx ..)
  | wait s' r' pre traps =>
    exact State.memoryWf_ite (by simp [h]) (State.memoryWf_ite (by simp [h]) (by simpa using hx))
  | ended s' =>
    exact State.memoryWf_ite (by simp [h]) (State.memoryWf_ite (by simp [h]) (State.memoryWf_completeEnded h hx ..))
  | predicate s' r' n w =>
    have hc := fun ms => State.memoryWf_complete h hx g r f sh noMatch r' ms [] []
    refine State.memoryWf_ite (by simp [h]) (State.memoryWf_ite (hc _) ?_)
    rw [State.memory_modCore]
    exact hc _
  | gone s' => exact hx
  | fatal fr => simpa using h
  | page fr => simpa using h
  | halt ms => simpa using h
  | fatalAt s' fr => simpa using hx
  | pageAt s' fr => simpa using hx
  | haltAt s' ms => simpa using hx
  | retry => exact h

/-- A step goes on, and the state it leads to has its memory in canonical form. -/
inductive Proceeds : Host.Outcome State Fault Refusal → Prop where
  | next {t : State} (h : MemoryWf t.memory) : Proceeds (.next t)

@[simp] theorem proceeds_next : Proceeds (.next t) ↔ MemoryWf t.memory := ⟨fun ⟨h⟩ => h, .next⟩

theorem Proceeds.exists_next {o : Host.Outcome State Fault Refusal} (h : Proceeds o) :
    ∃ t, o = .next t ∧ MemoryWf t.memory := by
  obtain ⟨h⟩ := h
  exact ⟨_, rfl, h⟩

theorem Proceeds.ite {c : Prop} [Decidable c] {x y : Host.Outcome State Fault Refusal} (hx : Proceeds x) (hy : Proceeds y) :
    Proceeds (if c then x else y) := by split <;> assumption

/-- The group that acts is there. -/
def State.HasGroup (s : State) : Prop := ∃ g r, s.actor = .grp g ∧ s.group? g = some r

/-- The sequencer that acts is there. -/
def State.HasSeq (s : State) : Prop := ∃ core slot c, s.actor = .seq core slot ∧ s.crew? core slot = some c

/-- A group instruction goes on where its effect keeps the form: every check before it, and everything that settling
adds, leaves memory alone. -/
theorem proceeds_issue (h : MemoryWf s.memory) (ha : s.HasGroup) {lvl f sh} {k : State → Gid → Group → Res}
    (hk : ∀ u g r, MemoryWf u.memory → (k u g r).Sound) : Proceeds (issue lvl f sh s k) := by
  obtain ⟨g, r, hg, hr⟩ := ha
  unfold issue
  simp only [hg, hr]
  refine .ite (by simpa using h) (.ite (by simpa using h) (.ite (by simpa using h) (.ite (.next h) ?_)))
  have hu : MemoryWf (if r.wait = .none then s.countIssue g (f.u || !(s.contrib r f).isEmpty) else s).memory := by simp [h]
  have hx := hk _ g r hu
  split
  · exact .next h
  · exact .next (State.memoryWf_settle hu hx ..)

theorem proceeds_thenBar {o} (h : Proceeds o) (core slot n) : Proceeds (thenBar core slot n o) := by
  obtain ⟨t, rfl, ht⟩ := h.exists_next
  simpa [thenBar] using ht

theorem proceeds_onWait (h : MemoryWf s.memory) {g} {k : Group → State} (hk : ∀ r, (k r).memory = s.memory) :
    Proceeds (s.onWait g k) := by
  unfold State.onWait
  split
  · exact .next h
  · simp [hk, h]

/-- The state a sequencer's instruction leads to has its memory in canonical form. -/
@[simp] def SRes.Sound : SRes → Prop
  | .ok s _ => MemoryWf s.memory
  | .retry => True
  | .fatal _ => True

theorem proceeds_issueSeq (h : MemoryWf s.memory) (ha : s.HasSeq) {k : Nat → Nat → Crew → SRes}
    (hk : ∀ core slot c, (k core slot c).Sound) : Proceeds (issueSeq s k) := by
  obtain ⟨core, slot, c, hs, hc⟩ := ha
  unfold issueSeq
  simp only [hs, hc]
  have hx := hk core slot c
  split
  · exact .next h
  · simpa using h
  · next hu => rw [hu] at hx; simpa using hx

end

/-! ### The effects of group instructions -/

section

variable {s : State} (h : MemoryWf s.memory)
include h

theorem State.sound_raiseFlags (s0 r f sh r' fl) : (s.raiseFlags s0 r f sh r' fl).Sound := by
  simp [State.raiseFlags, h]

omit h in
theorem State.sound_gate {s : State} {g r f sh ls chk addr locked srcs x} (hx : s.gate g r f sh ls chk addr locked srcs = .stop x) :
    x.Sound := by
  unfold State.gate at hx; dsimp only at hx
  split at hx
  · cases hx; trivial
  · cases hx; trivial
  · split at hx <;> cases hx; trivial

theorem State.sound_frameGate {g r f sh frame us acc x} (hx : s.frameGate g r f sh frame us acc = .stop x) : x.Sound := by
  unfold State.frameGate at hx; dsimp only at hx
  split at hx
  · cases hx; simp [h]
  · split at hx <;> cases hx; simp [h]

omit h in
theorem State.sound_frameFault {s : State} {frame us acc x} (hx : s.frameFault frame us acc = some x) : x.Sound := by
  unfold State.frameFault at hx
  split at hx
  · cases hx; trivial
  · split at hx
    · split at hx <;> cases hx <;> trivial
    · split at hx <;> cases hx; trivial

theorem State.sound_loadRes (g r f sh op n chk addr ws) : (s.loadRes g r f sh op n chk addr ws).Sound := by
  unfold State.loadRes; dsimp only
  refine Res.sound_ite trivial ?_
  split
  · next hx => exact Res.sound_at_ (by simp [h]) (State.sound_gate hx)
  · split <;> simp [h]

theorem State.sound_storeRes (g r f sh op n chk addr data) : (s.storeRes g r f sh op n chk addr data).Sound := by
  unfold State.storeRes; dsimp only
  refine Res.sound_ite trivial ?_
  split
  · next hx => exact Res.sound_at_ (by simp [h]) (State.sound_gate hx)
  · simp [h]

theorem State.sound_atomLane (g r f sh scratch addr pre traps todo did) :
    (s.atomLane g r f sh scratch addr pre traps todo did).Sound := by
  unfold State.atomLane; dsimp only
  split
  · simp [h]
  · refine Res.sound_ite (Res.sound_ite trivial h) ?_
    split
    · exact Res.sound_ite trivial h
    · trivial
    · next u hu =>
      have hu : MemoryWf u.memory := by
        split at hu
        · exact State.memoryWf_homeWrite h hu
        · cases hu; simp [h]
      refine Res.sound_ite ?_ (Res.sound_ite ?_ ?_) <;> simp [hu]

theorem State.sound_atomOn (g r f sh scratch chk addr todo did) : (s.atomOn g r f sh scratch chk addr todo did).Sound := by
  unfold State.atomOn
  split
  · refine Res.sound_ite (Res.sound_ite trivial (State.sound_atomLane h ..)) ?_
    split
    · exact State.sound_atomLane h ..
    · split
      · split <;> trivial
      · trivial
  · exact State.sound_atomLane h ..

theorem State.sound_atomRes (g r f sh scratch op chk addr) : (s.atomRes g r f sh scratch op chk addr).Sound := by
  unfold State.atomRes; dsimp only
  split
  · exact State.sound_atomOn h ..
  · refine Res.sound_ite trivial ?_
    split
    · next hx => exact Res.sound_at_ (by simp [h]) (State.sound_gate hx)
    · exact State.sound_atomLane (by simp [h]) ..

omit h in
theorem sound_checkLanes {g r ls chk x} (hx : checkLanes g r ls chk = some x) : x.Sound := by
  unfold checkLanes at hx; dsimp only at hx
  split at hx <;> cases hx <;> trivial

omit h in
theorem State.sound_pcGate {s : State} {g r f ls x} (hx : s.pcGate g r f ls = .error x) : x.Sound := by
  unfold State.pcGate at hx; dsimp only at hx
  split at hx <;> cases hx; trivial

theorem State.sound_futLane {step : State → Nat → FutStep}
    (hstep : ∀ {u t l}, MemoryWf u.memory → step u l = .ok t → MemoryWf t.memory)
    (g r f sh addr ready offer first pre ps todo) :
    (s.futLane g r f sh addr step ready offer first pre ps todo).Sound := by
  have later : (if first then Res.retry else .hold s { r with wait := .futs todo ps }).Sound := Res.sound_ite trivial h
  unfold State.futLane; dsimp only
  split
  · exact h
  · refine Res.sound_ite later ?_
    split
    · next hu =>
      have hu := hstep h hu
      exact Res.sound_ite hu hu
    · exact Res.sound_ite h h
    · simp [h]
    · exact Res.sound_ite later (Res.sound_ite trivial trivial)

theorem State.sound_futRun {step : Pages → State → Nat → FutStep}
    (hstep : ∀ {ps u t l}, MemoryWf u.memory → step ps u l = .ok t → MemoryWf t.memory)
    (g r f sh a join vas ready offer) : (s.futRun g r f sh a join vas step ready offer).Sound := by
  unfold State.futRun; dsimp only
  split
  · split
    · trivial
    · exact State.sound_futLane (by simp [h]) hstep ..
  · split
    · next hx => exact Res.sound_at_ (by simp [h]) (sound_checkLanes hx)
    · split
      · next hx => exact Res.sound_at_ (by simp [h]) (State.sound_pcGate hx)
      · exact State.sound_futLane (by simp [h]) hstep ..

theorem State.sound_resolveRes (g r f st) : (s.resolveRes g r f st).Sound := by
  unfold State.resolveRes
  exact State.sound_futRun h (fun hu ht => State.memoryWf_futRes hu ht) ..

omit h in
theorem sound_qFault (fr) : (qFault fr).Sound := by
  unfold qFault; split
  · trivial
  · split <;> trivial

theorem State.sound_pushRes {after : State → Nat → State} (hafter : ∀ u i, (after u i).memory = u.memory) (g r f asid da data) :
    (s.pushRes g r f asid da data after).Sound := by
  unfold State.pushRes; dsimp only
  split
  · split
    · trivial
    · refine Res.sound_ite trivial ?_
      split
      · next hu =>
        have hu := (State.sound_qFill (by simp [h]) ..).done hu
        simp [hafter, hu]
      · exact Res.sound_ite trivial (Res.sound_at_ (by simp [h]) (sound_qFault _))
      · exact Res.sound_ite trivial (by simp [h])
  · refine Res.sound_ite (by simp [h]) (Res.sound_ite trivial ?_)
    split
    · trivial
    · split
      · next hu => exact (State.sound_qReserve (by simp [h]) ..).took hu
      · exact Res.sound_ite trivial (Res.sound_at_ (by simp [h]) (sound_qFault _))
      · simp [h]

theorem State.sound_copyRes (g r f sh kind ops src dst) : (s.copyRes g r f sh kind ops src dst).Sound := by
  unfold State.copyRes; dsimp only
  split
  · next hx => exact State.sound_gate hx
  · split <;> simp [h]

omit h in
/-- The lanes of a join change the replicas alone. -/
theorem State.memory_latWalk {s t : State} {die mst at_ v ls un} (ht : s.latWalk die mst at_ v ls = .ok (t, un)) :
    t.memory = s.memory := by
  induction ls generalizing s un with
  | nil => cases ht; rfl
  | cons l ls ih =>
    unfold State.latWalk at ht; dsimp only at ht
    split at ht
    · cases ht
    · split at ht <;> cases ht
      next hu => simpa using ih hu

theorem State.sound_joinRes (g r f op mst) : (s.joinRes g r f op mst).Sound := by
  unfold State.joinRes; dsimp only
  refine Res.sound_ite trivial ?_
  split
  · trivial
  · split
    · next hx => exact State.sound_gate hx
    · refine Res.sound_ite h ?_
      split
      · trivial
      · next hu =>
        have hu := State.memory_latWalk hu
        refine State.memoryWf_ite h (State.memoryWf_trace ?_ ..)
        split <;> simp [hu, h]

theorem State.sound_threshRes (g r f sh op timed) : (s.threshRes g r f sh op timed).Sound := by
  unfold State.threshRes; dsimp only
  split
  · next hx => exact State.sound_gate hx
  · exact Res.sound_ite (by simp [h]) (by simp [h])

theorem State.sound_tretRes (g r f wr) : (s.tretRes g r f wr).Sound := by
  unfold State.tretRes
  split
  · dsimp only
    split
    · trivial
    · refine Res.sound_ite trivial ?_
      generalize hu : (if wr = true then _ else s : State) = u
      have hu : MemoryWf u.memory := by
        rw [← hu]
        refine State.memoryWf_ite (State.memoryWf_foldl (fun t l ht => ?_) _ h) h
        split <;> simp [ht]
      split
      · exact Res.sound_ite (by simp [hu]) (by simp [hu])
      · simp [hu]
  · trivial

theorem State.sound_bkptRes (g r f crew) : (s.bkptRes g r f crew).Sound := by
  unfold State.bkptRes; dsimp only
  exact Res.sound_ite trivial (by simp [h])

theorem State.sound_hstepRes (g r f lane limit) : (s.hstepRes g r f lane limit).Sound := by
  unfold State.hstepRes
  split
  · split
    · simp [h]
    · exact Res.sound_ite (by simp [h]) (Res.sound_ite (by simp [h]) trivial)
  · refine Res.sound_ite trivial ?_
    split
    · simp [h]
    · split <;> simp [h]

theorem State.sound_hresRes (g r f scope) : (s.hresRes g r f scope).Sound := by
  unfold State.hresRes; dsimp only
  exact Res.sound_ite trivial (by simp [h])

end

/-! ### Group instructions: the operations they share -/

section

variable {s t : State}

theorem State.memory_futReturn {g r f ls} : ∀ t ∈ s.futReturn g r f ls, t.memory = s.memory := by
  unfold State.futReturn; dsimp only; split <;> simp

theorem State.memory_unitRead {g r a acc got seen got' seen'} (ht : s.unitRead g r a acc got seen = .ok t got' seen') :
    t.memory = s.memory := by
  unfold State.unitRead at ht; dsimp only at ht
  split at ht
  · cases ht
  · split at ht
    · cases ht
    · generalize r.outbox.any _ = met at ht
      cases met with
      | true => cases ht
      | false =>
        cases ht
        rw [State.memory_readHome]
        split <;> simp

theorem State.memory_hrd {tg x v} (ht : s.hrd tg x = .ok t v) : t.memory = s.memory := by
  unfold State.hrd at ht
  split at ht
  · cases ht
  · split at ht
    · cases ht
    · split at ht <;> cases ht
      rfl

theorem State.memory_alter {tg x v} : ∀ t ∈ s.alter tg x v, t.memory = s.memory := by
  unfold State.alter; dsimp only
  split
  all_goals (try split)
  all_goals simp

theorem State.memory_hwr {tg x v w} (ht : s.hwr tg x v = .ok t w) : t.memory = s.memory := by
  unfold State.hwr at ht
  split at ht
  · cases ht
  · split at ht
    · cases ht
    · split at ht
      · cases ht
      · split at ht <;> cases ht
        next hu => exact State.memory_alter _ hu

variable (h : MemoryWf s.memory)
include h

variable (ha : s.HasGroup)
include ha

theorem proceeds_intOp (f sh w signed res cc) : Proceeds (intOp f sh s w signed res cc) :=
  proceeds_issue h ha fun _ _ _ hu => by simp [hu]

theorem proceeds_logicOp (f op) : Proceeds (logicOp f s op) := by
  unfold logicOp; exact proceeds_intOp h ha ..

theorem proceeds_execBtab (f) : Proceeds (execBtab f s) := by
  unfold execBtab; exact proceeds_intOp h ha ..

theorem proceeds_carryOp (f sum cin out cc) : Proceeds (carryOp f s sum cin out cc) :=
  proceeds_issue h ha fun _ _ _ hu => by dsimp only; split <;> simp [hu]

theorem proceeds_laneOp (f sh res) : Proceeds (laneOp f sh s res) :=
  proceeds_issue h ha fun _ _ _ hu => by simp [hu]

theorem proceeds_floatOp (f sh res) : Proceeds (floatOp f sh s res) :=
  proceeds_issue h ha fun _ _ _ hu => State.sound_raiseFlags (by simp [hu]) ..

theorem proceeds_execQblk (f) : Proceeds (execQblk f s) :=
  proceeds_issue h ha fun _ _ _ hu => Res.sound_ite trivial (State.sound_raiseFlags (by simp [hu]) ..)

theorem proceeds_execDqblk (f) : Proceeds (execDqblk f s) :=
  proceeds_issue h ha fun _ _ _ hu => Res.sound_ite trivial (State.sound_raiseFlags (by simp [hu]) ..)

theorem proceeds_execRedg (f) : Proceeds (execRedg f s) :=
  proceeds_issue h ha fun _ _ _ hu => State.sound_raiseFlags (by simp [hu]) ..

theorem proceeds_execLjoin (f) : Proceeds (execLjoin f s) :=
  proceeds_issue h ha fun _ _ _ hu => State.sound_raiseFlags (by simp [hu]) ..

theorem proceeds_execLcmp (f) : Proceeds (execLcmp f s) :=
  proceeds_issue h ha fun _ _ _ hu => State.sound_raiseFlags (by simp [hu]) ..

/-! Barriers -/

theorem proceeds_execBarv (f) : Proceeds (execBarv f s) :=
  proceeds_thenBar (proceeds_issue h ha fun _ _ _ hu => by dsimp only; split <;> simp [hu]) ..

theorem proceeds_execBarw (f) : Proceeds (execBarw f s) :=
  proceeds_thenBar (proceeds_issue h ha fun _ _ _ hu => by dsimp only; split <;> simp [hu]) ..

theorem proceeds_execBexp (f) : Proceeds (execBexp f s) := by
  refine proceeds_thenBar (proceeds_issue h ha fun _ _ _ hu => ?_) ..
  exact Res.sound_ite trivial (by simp [hu])

theorem proceeds_execRepack (f) : Proceeds (execRepack f s) := by
  refine proceeds_thenBar (proceeds_issue h ha fun _ _ _ hu => ?_) ..
  exact Res.sound_ite trivial (by split <;> simp [hu])

theorem proceeds_execUnpack (f) : Proceeds (execUnpack f s) := by
  refine proceeds_thenBar (proceeds_issue h ha fun _ _ _ hu => ?_) ..
  dsimp only
  split
  · exact Res.sound_ite trivial (Res.sound_ite trivial (by split <;> simp [hu]))
  · trivial

theorem proceeds_execSqrel (f) : Proceeds (execSqrel f s) := by
  refine proceeds_thenBar (proceeds_issue h ha fun _ _ _ hu => ?_) ..
  refine Res.sound_ite trivial ?_
  dsimp only
  split <;> simp [hu]

/-! Memory -/

theorem proceeds_execLd (f) : Proceeds (execLd f s) :=
  proceeds_issue h ha fun _ _ _ hu => State.sound_loadRes hu ..

theorem proceeds_execLds (f) : Proceeds (execLds f s) :=
  proceeds_issue h ha fun _ _ _ hu => State.sound_loadRes hu ..

theorem proceeds_execLdc (f) : Proceeds (execLdc f s) := by
  refine proceeds_issue h ha fun _ _ _ hu => Res.sound_ite (Res.sound_ite trivial ?_) (State.sound_loadRes hu ..)
  split
  · next hx => exact Res.sound_at_ (by simp [hu]) (State.sound_gate hx)
  · exact Res.sound_ite (by simp [hu]) (Res.sound_ite (by simp [hu]) (by simp [hu]))

theorem proceeds_execSt (f) : Proceeds (execSt f s) :=
  proceeds_issue h ha fun _ _ _ hu => State.sound_storeRes hu ..

theorem proceeds_execSts (f) : Proceeds (execSts f s) :=
  proceeds_issue h ha fun _ _ _ hu => State.sound_storeRes hu ..

theorem proceeds_execLdb (f) : Proceeds (execLdb f s) := by
  refine proceeds_issue h ha fun _ _ _ hu => Res.sound_ite trivial ?_
  split
  · next hx => exact Res.sound_at_ (by simp [hu]) (State.sound_gate hx)
  · exact Res.sound_ite (by simp [hu]) (by simp [hu])

theorem proceeds_execStb (f) : Proceeds (execStb f s) := by
  refine proceeds_issue h ha fun _ _ _ hu => ?_
  dsimp only
  split
  · next hx => exact Res.sound_at_ (by simp [hu]) (State.sound_gate hx)
  · simp [hu]

theorem proceeds_execSpill (f) : Proceeds (execSpill f s) := by
  refine proceeds_issue h ha fun _ _ _ hu => ?_
  dsimp only
  split
  · next hx => exact State.sound_frameFault hx
  · split
    · next hx => exact State.sound_frameGate hu hx
    · simp [hu]

theorem proceeds_execFill (f) : Proceeds (execFill f s) := by
  refine proceeds_issue h ha fun _ _ _ hu => ?_
  dsimp only
  split
  · next hx => exact State.sound_frameFault hx
  · refine Res.sound_ite trivial ?_
    split
    · trivial
    · split
      · next hx => exact State.sound_frameFault hx
      · refine Res.sound_ite trivial ?_
        split
        · next hx => exact State.sound_frameGate hu hx
        · exact Res.sound_ite (by simp [hu]) (by simp [hu])

theorem proceeds_execAtom (f) : Proceeds (execAtom f s) :=
  proceeds_issue h ha fun _ _ _ hu => State.sound_atomRes hu ..

theorem proceeds_execAtoms (f) : Proceeds (execAtoms f s) :=
  proceeds_issue h ha fun _ _ _ hu => State.sound_atomRes hu ..

/-! Futures, queues, copies, spawns -/

theorem proceeds_execFreg (f) : Proceeds (execFreg f s) :=
  proceeds_issue h ha fun _ _ _ hu => State.sound_futRun hu (fun hv ht => State.memoryWf_futReg hv ht) ..

theorem proceeds_execFregWait (f) : Proceeds (execFregWait f s) := by
  refine proceeds_issue h ha fun _ _ _ hu => ?_
  dsimp only
  split
  · next hx => exact Res.sound_at_ (by simp [hu]) (sound_checkLanes hx)
  · split
    · next hx => exact Res.sound_at_ (by simp [hu]) (State.sound_pcGate hx)
    · split
      · next ht => simp [State.memory_futReturn _ ht, hu]
      · simp [hu]

theorem proceeds_execQpush (f) : Proceeds (execQpush f s) :=
  proceeds_issue h ha fun _ _ _ hu => State.sound_pushRes hu (fun _ _ => by split <;> simp) ..

theorem proceeds_execTsub (f) : Proceeds (execTsub f s) := by
  refine proceeds_issue h ha fun _ _ _ hu => Res.sound_ite trivial (Res.sound_ite hu ?_)
  split
  · refine Res.sound_ite (State.sound_pushRes hu (by simp) ..) ?_
    split
    · next ht => simp [State.memory_unitRead ht, hu]
    · exact sound_qFault _
    · trivial
  · exact State.sound_pushRes hu (by simp) ..

theorem proceeds_execQpop (f) : Proceeds (execQpop f s) := by
  refine proceeds_issue h ha fun _ _ _ hu => ?_
  have fault : ∀ fr v, MemoryWf v.memory → (if FRec.busy fr then Res.retry else (qFault fr).at_ v).Sound :=
    fun fr v hv => Res.sound_ite trivial (Res.sound_at_ hv (sound_qFault fr))
  dsimp only
  split
  · split
    · trivial
    · split
      · next ht => simp [(State.sound_qEmpty (by simp [hu]) ..).done ht]
      · exact fault _ _ (by simp [hu])
      · exact Res.sound_ite trivial (by simp [hu])
  · refine Res.sound_ite hu (Res.sound_ite trivial ?_)
    split
    · trivial
    · split
      · next ht => exact (State.sound_qTake (by simp [hu]) ..).took ht
      · exact fault _ _ (by simp [hu])
      · exact Res.sound_ite (by simp [hu]) (by simp [hu])

theorem proceeds_execCpyo (f) : Proceeds (execCpyo f s) := by
  refine proceeds_issue h ha fun _ _ _ hu => ?_
  dsimp only
  split
  · trivial
  · exact State.sound_copyRes hu ..

theorem proceeds_execCpyb (f) : Proceeds (execCpyb f s) := by
  refine proceeds_issue h ha fun _ _ _ hu => ?_
  dsimp only
  split
  · trivial
  · exact State.sound_copyRes hu ..

theorem proceeds_execCpyt (f) : Proceeds (execCpyt f s) := by
  refine proceeds_issue h ha fun _ _ _ hu => ?_
  dsimp only
  split
  · trivial
  · refine Res.sound_ite hu ?_
    split
    · next hx => exact State.sound_gate hx
    · split
      · trivial
      · trivial
      · next ht =>
        have ht : MemoryWf _ := State.memory_unitRead ht ▸ hu
        exact Res.sound_ite ht (Res.sound_at_ ht (State.sound_copyRes ht ..))

theorem proceeds_execSpawn (f) : Proceeds (execSpawn f s) := by
  refine proceeds_issue h ha fun _ _ _ hu => Res.sound_ite trivial (Res.sound_ite trivial ?_)
  split
  · trivial
  · split
    · next ht => exact State.memoryWf_placeSpawn hu ht
    · exact Res.sound_ite trivial hu
    · exact sound_qFault _

/-! The Lattice -/

theorem proceeds_execLpeek (f) : Proceeds (execLpeek f s) := by
  refine proceeds_issue h ha fun _ _ _ hu => ?_
  dsimp only
  split
  · next hx => exact State.sound_gate hx
  · exact Res.sound_ite hu (by simp [hu])

/-! Handlers and debuggers -/

theorem proceeds_execDump (f) : Proceeds (execDump f s) := by
  refine proceeds_issue h ha fun _ _ _ hu => ?_
  dsimp only
  split
  · split
    · trivial
    · next ht => exact (State.sound_dump hu ..).hold ht
    · next ht => simp [(State.sound_dump hu ..).done ht]
  · simp [hu]

theorem proceeds_execErrinj (f) : Proceeds (execErrinj f s) := by
  refine proceeds_issue h ha fun _ _ _ hu => ?_
  dsimp only
  split
  · next ht => simp [State.memory_errInject _ ht, hu]
  · exact hu

theorem proceeds_execHrd (f) : Proceeds (execHrd f s) := by
  refine proceeds_issue h ha fun _ _ _ hu => Res.sound_ite trivial ?_
  split
  · trivial
  · simp [hu]
  · next ht => simp [State.memory_hrd ht, hu]

theorem proceeds_execHwr (f) : Proceeds (execHwr f s) := by
  refine proceeds_issue h ha fun _ _ _ hu => Res.sound_ite trivial ?_
  split
  · trivial
  · exact hu
  · next ht => simp [State.memory_hwr ht, hu]

end

/-! ### Sequencer instructions -/

section

variable {s : State} (h : MemoryWf s.memory) (ha : s.HasSeq)

theorem SRes.sound_ite {c : Prop} [Decidable c] {x y : SRes} (hx : x.Sound) (hy : y.Sound) : (if c then x else y).Sound := by
  split <;> assumption

include h

theorem State.sound_postPass (core slot c f kind) : (s.postPass core slot c f kind).Sound := by
  unfold State.postPass; dsimp only
  refine SRes.sound_ite trivial (SRes.sound_ite trivial (SRes.sound_ite trivial (SRes.sound_ite trivial ?_)))
  exact SRes.sound_ite trivial (by simp [h])

theorem State.sound_postSilo (core slot c f kind) : (s.postSilo core slot c f kind).Sound := by
  unfold State.postSilo; dsimp only
  refine SRes.sound_ite trivial (SRes.sound_ite trivial (SRes.sound_ite trivial ?_))
  exact SRes.sound_ite trivial (by simp [h])

include ha

theorem proceeds_execMbarArv (f) : Proceeds (execMbarArv f s) := by
  refine proceeds_thenBar (proceeds_issueSeq h ha fun _ _ _ => ?_) ..
  refine SRes.sound_ite trivial ?_
  split
  · trivial
  · simp [h]

end

/-! ### Device events

Most of them leave memory alone in every branch, or apply one operation whose rule stands above: the case split says
which branches there are, and the rules close each. -/

section

variable {s : State} (h : MemoryWf s.memory)
include h

theorem proceeds_execFullTestEnd (core) : Proceeds (execFullTestEnd core s) := by
  unfold execFullTestEnd; dsimp only; (repeat' split) <;> simp [h]

theorem proceeds_execEvict (core line) : Proceeds (execEvict core line s) := by
  simp [execEvict, h]

theorem proceeds_execBackInvalidate : Proceeds (execBackInvalidate s) := by
  simp [execBackInvalidate, h]

theorem proceeds_execQueueEntryReceipt (n full) : Proceeds (execQueueEntryReceipt n full s) := by
  unfold execQueueEntryReceipt; dsimp only; (repeat' split) <;> simp [h]

theorem proceeds_execAcknowledgement (n) : Proceeds (execAcknowledgement n s) := by
  unfold execAcknowledgement; dsimp only; split <;> simp [h]

theorem proceeds_execNegativeAcknowledgement (n) : Proceeds (execNegativeAcknowledgement n s) := by
  unfold execNegativeAcknowledgement; dsimp only; split <;> simp [h]

theorem proceeds_execBackoffExpiry (n) : Proceeds (execBackoffExpiry n s) := by
  unfold execBackoffExpiry; dsimp only; split <;> simp [h]

theorem proceeds_execAdmissionCommit (die) : Proceeds (execAdmissionCommit die s) := by
  unfold execAdmissionCommit; dsimp only; (repeat' split) <;> simp [h]

theorem proceeds_execAdmissionRelease (die) : Proceeds (execAdmissionRelease die s) := by
  unfold execAdmissionRelease; dsimp only; (repeat' split) <;> simp [h]

theorem proceeds_execTaskRecordValidation (die) : Proceeds (execTaskRecordValidation die s) := by
  unfold execTaskRecordValidation; dsimp only; (repeat' split) <;> simp [h]

theorem proceeds_execOverflowRingMove (core) : Proceeds (execOverflowRingMove core s) := by
  unfold execOverflowRingMove; dsimp only; (repeat' split) <;> simp [h]

theorem proceeds_execSpawnRecordStart (core k) : Proceeds (execSpawnRecordStart core k s) := by
  unfold execSpawnRecordStart; dsimp only; (repeat' split) <;> simp [h]

theorem proceeds_execCrewRetire (core slot) : Proceeds (execCrewRetire core slot s) := by
  unfold execCrewRetire; (repeat' split) <;> simp [h]

theorem proceeds_execExchange (desc src line) : Proceeds (execExchange desc src line s) := by
  unfold execExchange; dsimp only; (repeat' split) <;> simp [h]

theorem proceeds_execRegionRegistration (desc w) : Proceeds (execRegionRegistration desc w s) := by
  unfold execRegionRegistration; dsimp only; (repeat' split) <;> simp [h]

theorem proceeds_execRegionDeregistration (desc w) : Proceeds (execRegionDeregistration desc w s) := by
  unfold execRegionDeregistration; (repeat' split) <;> simp [h]

theorem proceeds_execPhaseEnd (desc stretched) : Proceeds (execPhaseEnd desc stretched s) := by
  unfold execPhaseEnd; (repeat' split) <;> simp [h]

theorem proceeds_execPreemptionRequest (core slot) : Proceeds (execPreemptionRequest core slot s) := by
  unfold execPreemptionRequest; dsimp only; (repeat' split) <;> simp [h]

theorem proceeds_execFwaitExpiry (g) : Proceeds (execFwaitExpiry g s) := by
  unfold execFwaitExpiry; (repeat' split) <;> simp [h]

theorem proceeds_execCoreReservation (die) : Proceeds (execCoreReservation die s) := by
  unfold execCoreReservation; dsimp only; (repeat' split) <;> simp [h]

theorem proceeds_execDispatchDecision (die) : Proceeds (execDispatchDecision die s) := by
  unfold execDispatchDecision; dsimp only; (repeat' split) <;> simp [h]

theorem proceeds_execFatalHandlerStart (core slot) : Proceeds (execFatalHandlerStart core slot s) := by
  unfold execFatalHandlerStart; dsimp only; (repeat' split) <;> simp [h]

theorem proceeds_execSheafHaltArrival (core slot) : Proceeds (execSheafHaltArrival core slot s) := by
  unfold execSheafHaltArrival; split <;> simp [h]

theorem proceeds_execSnapshotTrigger : Proceeds (execSnapshotTrigger s) := by
  simp [execSnapshotTrigger, h]

theorem proceeds_execHostTrigger : Proceeds (execHostTrigger s) := by
  simp [execHostTrigger, h]

theorem proceeds_execSnapshotRelease : Proceeds (execSnapshotRelease s) := by
  simp [execSnapshotRelease, h]

theorem proceeds_execTick : Proceeds (execTick s) := by
  simp [execTick, h]

theorem proceeds_execArbiterGrant (engine) : Proceeds (execArbiterGrant engine s) := by
  unfold execArbiterGrant; dsimp only; (repeat' split) <;> simp [h]

theorem proceeds_execPassSegment (id) : Proceeds (execPassSegment id s) := by
  unfold execPassSegment; dsimp only; (repeat' split) <;> simp [h]

theorem proceeds_execPassCompletion (id) : Proceeds (execPassCompletion id s) := by
  unfold execPassCompletion; (repeat' split) <;> simp [h]

theorem proceeds_execBeat (id k) : Proceeds (execBeat id k s) := by
  unfold execBeat; (repeat' split) <;> simp [h]

theorem proceeds_execSiloOperationCompletion (id) : Proceeds (execSiloOperationCompletion id s) := by
  unfold execSiloOperationCompletion; (repeat' split) <;> simp [h]

theorem proceeds_execEngineWatchdogExpiry : Proceeds (execEngineWatchdogExpiry s) := by
  unfold execEngineWatchdogExpiry; split <;> simp [h]

theorem proceeds_execEngineResume (engine failed) : Proceeds (execEngineResume engine failed s) := by
  unfold execEngineResume; dsimp only; split <;> simp [h]

theorem proceeds_execPartitionEnable (part w) : Proceeds (execPartitionEnable part w s) := by
  unfold execPartitionEnable; split <;> simp [h]

theorem proceeds_execAsidDisable (asid w) : Proceeds (execAsidDisable asid w s) := by
  unfold execAsidDisable; split <;> simp [h]

theorem proceeds_execHeatSample (core frame) : Proceeds (execHeatSample core frame s) := by
  unfold execHeatSample; dsimp only; (repeat' split) <;> simp [h]

theorem proceeds_execFreplay (part w) : Proceeds (execFreplay part w s) := by
  unfold execFreplay; split <;> simp [h]

theorem proceeds_execPteInvalidate (die) : Proceeds (execPteInvalidate die s) := by
  unfold execPteInvalidate; dsimp only; split <;> simp [h]

theorem proceeds_execShootdownComplete (die) : Proceeds (execShootdownComplete die s) := by
  unfold execShootdownComplete; (repeat' split) <;> simp [h]

theorem proceeds_execQueuePoll (lane) : Proceeds (execQueuePoll lane s) := by
  unfold execQueuePoll; (repeat' split) <;> simp [h]

theorem proceeds_execThresherRound : Proceeds (execThresherRound s) := by
  unfold execThresherRound; dsimp only; split <;> simp [h]

theorem proceeds_execQueueRestart (lane) : Proceeds (execQueueRestart lane s) := by
  unfold execQueueRestart; split <;> simp [h]

theorem proceeds_execSnapshotLatch : Proceeds (execSnapshotLatch s) := by
  unfold execSnapshotLatch; dsimp only; split <;> simp [h]

theorem proceeds_execRegisterWrite (who off w) : Proceeds (execRegisterWrite who off w s) := by
  unfold execRegisterWrite; (repeat' split) <;> simp [h]

theorem proceeds_execPoolWindowEnable (port win w trained) : Proceeds (execPoolWindowEnable port win w trained s) := by
  unfold execPoolWindowEnable; split <;> simp [h]

theorem proceeds_execPoolWindowDisable (port win w) : Proceeds (execPoolWindowDisable port win w s) := by
  unfold execPoolWindowDisable; dsimp only; (repeat' split) <;> simp [h]

theorem proceeds_execBar2Read (off size) : Proceeds (execBar2Read off size s) := by
  unfold execBar2Read; (repeat' split) <;> simp [h]

theorem proceeds_execBar2Write (off size val) : Proceeds (execBar2Write off size val s) := by
  unfold execBar2Write; (repeat' split) <;> simp [h]

theorem proceeds_execMsixUnmask (vec) : Proceeds (execMsixUnmask vec s) := by
  unfold execMsixUnmask; split <;> simp [h]

theorem proceeds_execMailboxCommandCompletion : Proceeds (execMailboxCommandCompletion s) := by
  unfold execMailboxCommandCompletion; (repeat' split) <;> simp [h]

theorem proceeds_execPowerOnReset (imageOk failed domId) : Proceeds (execPowerOnReset imageOk failed domId s) := by
  simp [execPowerOnReset, h]

theorem proceeds_execPowerLoss : Proceeds (execPowerLoss s) := by
  simp [execPowerLoss, h]

theorem proceeds_execPeerLinkChange : Proceeds (execPeerLinkChange s) := by
  unfold execPeerLinkChange; dsimp only; split <;> simp [h]

theorem proceeds_execSensorSample : Proceeds (execSensorSample s) := by
  simp [execSensorSample, h]

theorem proceeds_execLinkRetryFailure (link who) : Proceeds (execLinkRetryFailure link who s) := by
  unfold execLinkRetryFailure; dsimp only; (repeat' split) <;> simp [h]

theorem proceeds_execCoolPeriodExpiry : Proceeds (execCoolPeriodExpiry s) := by
  unfold execCoolPeriodExpiry; split <;> simp [h]

/-! What ends a wait of a group -/

theorem proceeds_execSleepExpiry (g) : Proceeds (execSleepExpiry g s) :=
  proceeds_onWait h fun _ => by split <;> simp

theorem proceeds_execYieldEnd (g) : Proceeds (execYieldEnd g s) :=
  proceeds_onWait h fun _ => by split <;> simp

theorem proceeds_execLsyncDone (g) : Proceeds (execLsyncDone g s) := by
  refine proceeds_onWait h fun _ => ?_
  split
  · split <;> simp
  · rfl

theorem proceeds_execThresholdLoad (g) : Proceeds (execThresholdLoad g s) := by
  refine proceeds_onWait h fun _ => ?_
  split
  · split <;> simp
  · rfl

theorem proceeds_execTldtTimeout (g) : Proceeds (execTldtTimeout g s) :=
  proceeds_onWait h fun _ => by split <;> simp

theorem proceeds_execRemoteReply (g) : Proceeds (execRemoteReply g s) :=
  proceeds_onWait h fun _ => State.memory_remoteReply ..

theorem proceeds_execCctlCompletion (g) : Proceeds (execCctlCompletion g s) := by
  refine proceeds_onWait h fun _ => ?_
  split
  · refine State.memory_waitDone ?_ ..
    split
    · exact State.memory_foldl (fun _ _ => State.memory_modCore ..) ..
    · split <;> simp
  · rfl

theorem proceeds_execFutureWaitReturn (g) : Proceeds (execFutureWaitReturn g s) := by
  refine proceeds_onWait h fun _ => ?_
  split
  · split
    · next ht => exact State.memory_waitDone (State.memory_futReturn _ ht) ..
    · rfl
  · rfl

theorem proceeds_execCopyIssue (g) : Proceeds (execCopyIssue g s) := by
  refine proceeds_onWait h fun _ => ?_
  split
  · dsimp only
    split
    · rfl
    · split <;> simp
  · rfl

/-! Queues, copies, launches -/

theorem proceeds_execPush (k) : Proceeds (execPush k s) := by
  unfold execPush
  split
  · exact .next h
  · next p _ =>
    have fault : ∀ fr : FRec, MemoryWf (if fr.replayable = true then
        (({ s with pushes := tput s.pushes k { p with stall := some (p.asid, fr.va.toNat / 4096), capf := fr.capfPage p.asid } } :
          State).raise (s.partOf p.asid) { fr with asid := p.asid, acc := Acc.push })
      else if fr.busy = true then s
      else { s.taskInv (s.partOf p.asid) p.asid 6 p.task with
        pushes := tdel (s.taskInv (s.partOf p.asid) p.asid 6 p.task).pushes k }).memory :=
      fun fr => State.memoryWf_ite (by simp [h]) (State.memoryWf_ite h (by simp [h]))
    refine .ite (.next h) (.ite (by simp [h]) (.ite (by simp [h]) ?_))
    split
    · exact .next (fault _)
    · split
      · split
        · next ht => simp [(State.sound_qReserve h ..).took ht]
        · exact .next (fault _)
        · exact .next h
      · split
        · next ht => simp [(State.sound_qFill h ..).done ht]
        · exact .next (fault _)
        · exact .next h

theorem proceeds_execCopyCompletion (id) : Proceeds (execCopyCompletion id s) := by
  unfold execCopyCompletion
  split
  · exact .next h
  · next c _ =>
    refine .ite (.next h) ?_
    dsimp only
    generalize hu : (if c.arrived = true then s else _ : State) = u
    have hu : MemoryWf u.memory := by
      rw [← hu]
      refine State.memoryWf_ite h ?_
      split <;> simp [h]
    split
    · simp [hu]
    · split
      · next ht => simp [State.memoryWf_workResolve hu ht]
      · simp [hu]

theorem proceeds_execDeviceLaunchQueueTake (lane) : Proceeds (execDeviceLaunchQueueTake lane s) := by
  unfold execDeviceLaunchQueueTake; dsimp only
  refine .ite (.next h) ?_
  split
  · split
    · next ht => simp [(State.sound_qTake (by simp [h]) ..).took ht]
    · simp [h]
    · exact .next h
  · split
    · next ht => simp [(State.sound_qEmpty (by simp [h]) ..).done ht]
    · simp [h]
    · exact .next h

/-! Saved crews, handlers, records of faults, page tables -/

theorem proceeds_execCrewEviction (core slot) : Proceeds (execCrewEviction core slot s) := by
  unfold execCrewEviction
  split
  · exact .next h
  · refine .ite (.next h) (.ite ?_ (.ite ?_ ?_))
    · exact .next (State.memoryWf_ite (by simp [h]) h)
    · exact .next (State.memoryWf_ite (by simp [h]) h)
    · refine .next (State.memoryWf_foldl (fun _ _ hs => by simp [hs]) _ (State.memoryWf_writeSheaf ?_ _))
      exact State.memoryWf_foldl (fun _ _ hs => State.memoryWf_saveCrew hs _) _ h

theorem proceeds_execCrewRestore (id core) : Proceeds (execCrewRestore id core s) := by
  unfold execCrewRestore
  split
  · exact .next h
  · dsimp only
    split
    · exact .next h
    · refine .ite (.next h) ?_
      split
      · exact .next h
      · next ht =>
        have ht := State.memoryWf_foldl_option (fun _ => rfl) (fun _ _ hu => State.memoryWf_restoreCrew hu) _ h _ ht
        simp [ht]

theorem proceeds_execTrapCompaction (core slot) : Proceeds (execTrapCompaction core slot s) := by
  unfold execTrapCompaction
  split
  · exact .next h
  · next c _ =>
    refine .ite (.next h) ?_
    dsimp only
    have hu : MemoryWf (if c.saving = true then s.dropSave c else s).memory := State.memoryWf_ite (by simp [h]) h
    refine .ite (.next hu) (.next ?_)
    rw [State.memory_stampWaiting]
    refine State.memoryWf_foldl (fun _ _ hs => State.memoryWf_ite hs ?_) _ hu
    split
    · simp [hs]
    · exact hs

theorem proceeds_execFaultRecordWrite (part) : Proceeds (execFaultRecordWrite part s) := by
  unfold execFaultRecordWrite
  split
  · exact .next h
  · dsimp only
    refine .ite (by simpa using h) ?_
    split
    · refine .ite (.ite (.next h) ?_) ?_
      · split
        · exact .next (State.memoryWf_getD (by simpa using h) (State.memoryWf_ringWrite (by simpa using h) _ _ _ _))
        · simpa using h
      · split
        · simpa using h
        · next ht =>
          have ht := State.memoryWf_ringWrite (by simpa using h) _ _ _ _ _ ht
          have hd := fun va bs => State.memoryWf_getD ht (State.memoryWf_ringWrite ht noCore (s.fasid part) va bs)
          exact .next (State.memoryWf_ite (by simp [hd]) (hd ..))
    · simpa using h

theorem proceeds_execPteUpdate (die) : Proceeds (execPteUpdate die s) := by
  unfold execPteUpdate
  dsimp only
  refine .ite (.next h) (.ite (by simp [h]) ?_)
  split
  · simp [h]
  · next ht =>
    have ht := State.memoryWf_reach (by simp [h]) ht
    refine .ite (by simp [ht]) (.next ?_)
    rw [State.memory_shoot]
    refine State.memoryWf_ite ?_ ?_
    · rw [State.memory_dropCode]
      exact State.memoryWf_ite (by simp [ht]) (by simp [ht])
    · exact State.memoryWf_ite (by simp [ht]) (by simp [ht])

/-! Packets of the Thresher -/

theorem proceeds_serve {t} {k : State → Nat → List Byte → State}
    (hk : ∀ u n p, MemoryWf u.memory → MemoryWf (k u n p).memory) : Proceeds (s.serve t k) := by
  unfold State.serve
  split
  · exact .next h
  · exact .ite (.next h) (.next (hk _ _ _ h))

theorem proceeds_execNopPacket : Proceeds (execNopPacket s) :=
  proceeds_serve h fun _ _ _ hu => State.memoryWf_packetTaken hu _

theorem proceeds_execLaunch : Proceeds (execLaunch s) :=
  proceeds_serve h fun _ _ _ hu => by simp [hu]

theorem proceeds_execIbCall : Proceeds (execIbCall s) :=
  proceeds_serve h fun _ _ _ hu => State.memoryWf_ite (by simp [hu])
    (State.memoryWf_ite (by simp [hu]) (State.memoryWf_ite (by simp [hu]) (by simp [hu])))

theorem proceeds_execWaitValue : Proceeds (execWaitValue s) := by
  refine proceeds_serve h fun _ _ _ hu => State.memoryWf_ite (by simp [hu]) ?_
  split
  · simp [hu]
  · exact State.memoryWf_ite (by simp [hu]) (by simp [hu])

theorem proceeds_execWriteValue : Proceeds (execWriteValue s) :=
  proceeds_serve h fun _ _ _ hu => by simp [hu]

theorem proceeds_execTimestamp : Proceeds (execTimestamp s) :=
  proceeds_serve h fun _ _ _ hu => by simp [hu]

theorem proceeds_execFencePacket : Proceeds (execFencePacket s) :=
  proceeds_serve h fun _ _ _ hu => State.memoryWf_ite (by simp [hu]) hu

/-! Commands of the mailbox -/

theorem proceeds_mailbox {code} {k : State → State × Nat} (hk : MemoryWf (k s).1.memory) : Proceeds (s.mailbox code k) := by
  unfold State.mailbox
  exact .ite (.next h) (.ite (by simp [h]) (by simp [hk]))

theorem proceeds_execReadEventLog : Proceeds (execReadEventLog s) :=
  proceeds_mailbox h (by dsimp only; split <;> simp [h])

theorem proceeds_execUpdateBegin : Proceeds (execUpdateBegin s) :=
  proceeds_mailbox h (by dsimp only; split <;> simp [h])

theorem proceeds_execUpdateData : Proceeds (execUpdateData s) := by
  refine proceeds_mailbox h ?_
  dsimp only
  split
  · exact h
  · split <;> simp [h]

theorem proceeds_execUpdateCommit : Proceeds (execUpdateCommit s) := by
  refine proceeds_mailbox h ?_
  split
  · exact h
  · split <;> simp [h]

theorem proceeds_execGranaryHalt : Proceeds (execGranaryHalt s) := by
  refine proceeds_mailbox h ?_
  split
  · exact h
  · split <;> simp [h]

theorem proceeds_execGranaryHrd : Proceeds (execGranaryHrd s) := by
  refine .ite (.next h) (proceeds_mailbox h ?_)
  split
  · exact h
  · split
    · next ht => simp [State.memory_hrd ht, h]
    · simp [h]

theorem proceeds_execGranaryHwr : Proceeds (execGranaryHwr s) := by
  refine .ite (.next h) (proceeds_mailbox h ?_)
  split
  · exact h
  · split
    · next ht => simp [State.memory_hwr ht, h]
    · simp [h]

theorem proceeds_execGranaryHstep : Proceeds (execGranaryHstep s) := by
  refine proceeds_mailbox h ?_
  dsimp only
  split
  · simp [h]
  · split <;> simp [h]

theorem proceeds_execGranaryHres : Proceeds (execGranaryHres s) :=
  proceeds_mailbox h (by dsimp only; split <;> simp [h])

theorem proceeds_execKillAsid : Proceeds (execKillAsid s) :=
  proceeds_mailbox h (by dsimp only; split <;> simp [h])

theorem proceeds_execPreemptAsid : Proceeds (execPreemptAsid s) := by
  refine proceeds_mailbox h ?_
  dsimp only
  split
  · exact h
  · refine State.memoryWf_foldl (fun _ _ hs => ?_) _ h
    split <;> simp [hs]

theorem proceeds_execSnapshotCommand : Proceeds (execSnapshotCommand s) :=
  proceeds_mailbox h (by simp [h])

theorem proceeds_command (code) : Proceeds (s.command code) := by
  unfold State.command
  split
  · exact proceeds_execReadEventLog h
  · exact proceeds_execUpdateBegin h
  · exact proceeds_execUpdateData h
  · exact proceeds_execUpdateCommit h
  · exact proceeds_execGranaryHalt h
  · exact proceeds_execGranaryHrd h
  · exact proceeds_execGranaryHwr h
  · exact proceeds_execGranaryHstep h
  · exact proceeds_execGranaryHres h
  · exact proceeds_execKillAsid h
  · exact proceeds_execPreemptAsid h
  · exact proceeds_execSnapshotCommand h

/-! The control block as crews write it, by an entry of their outbox -/

theorem proceeds_blockWord (off w) : Proceeds (s.blockWord off w) := by
  unfold State.blockWord
  split
  · have hr : Proceeds (if bitOf w 62 then execSnapshotRelease s else .next s) := .ite (proceeds_execSnapshotRelease h) (.next h)
    obtain ⟨t, ht, hw⟩ := hr.exists_next
    dsimp only
    rw [ht]
    exact .ite (proceeds_execHostTrigger hw) (.next hw)
  · refine .ite (proceeds_execRegisterWrite h ..) (.ite (proceeds_execPartitionEnable h ..) ?_)
    refine .ite (proceeds_execFreplay h ..) ?_
    refine .ite (.ite (proceeds_execRegionRegistration h ..) (proceeds_execRegionDeregistration h ..)) ?_
    refine .ite (.ite (proceeds_execPteUpdate h ..) (.ite (proceeds_execPteInvalidate h ..) (.next h))) ?_
    refine .ite (.ite (proceeds_execPoolWindowEnable (by simp [h]) ..) (proceeds_execPoolWindowDisable (by simp [h]) ..)) ?_
    exact .ite (proceeds_command h _) (proceeds_execAsidDisable h ..)

theorem proceeds_blockStore (cs) : Proceeds (s.blockStore cs) := by
  unfold State.blockStore
  refine List.foldlRecOn (motive := Proceeds) _ _ (.next h) fun o ho off _ => ?_
  obtain ⟨t, rfl, ht⟩ := ho.exists_next
  exact proceeds_blockWord ht ..

theorem proceeds_execDrain (g k) : Proceeds (execDrain g k s) :=
  .ite (by simp [h]) (proceeds_blockStore (by simp [h]) _)

end

/-! ### Every instruction goes on

The stream an instruction belongs to says who must act: a group, a sequencer, or nobody at all. -/

section

variable {s : State} (h : MemoryWf s.memory) {i : Instr}
include h

theorem proceeds_exec_group (ha : s.HasGroup) (hi : i.matrix? = some false) : Proceeds (exec i s) := by
  cases i with unfold exec
  | nop f | bra f | brx f | call f | callI f | ret f | yield f | sleep f | movsw f | leader f | bcastg f | plop f
  | qlop f | pref f | cctlView f | cctlWb f | fence f | clqry f | helperOn f | helperOff f | helperRd f | trap f
  | trapHset f | trapFset f | wprd f | snap f | probe f | heatrd f
    => exact proceeds_issue h ha fun _ _ _ hu => by simp [hu]
  | exit f | setfmt f | bwait f | sqwait f | claim f | release f | rgsur f | rgclm f
    => exact proceeds_issue h ha fun _ _ _ hu => by dsimp only; (repeat' split) <;> simp [hu]
  | loop f | binit f | btest f | sqcfg f | lsync f | wpset f | wpclr f | trace f
    => exact proceeds_issue h ha fun _ _ _ hu => by dsimp only; split <;> simp [hu]
  | dpush f | delse f | dpop f | movs f | icmp f | pcoll f | pmov f | cctlIc f | fsc f
    => exact proceeds_issue h ha fun _ _ _ hu => by split <;> simp [hu]
  | repack f => exact proceeds_execRepack h ha ..
  | unpack f => exact proceeds_execUnpack h ha ..
  | mov f | movi f | sel f | iadd f | isub f | imul f | imulh f | imad f | imadw f | iabs f | ineg f | imin f
  | imax f | lea f | not f | shl f | shr f | sha f | rot f | bfx f | bfi f | popc f | clz f | brev f | bysel f
  | dot4 f => exact proceeds_intOp h ha ..
  | iaddc f | isubb f => exact proceeds_carryOp h ha ..
  | and f | or f | xor f => exact proceeds_logicOp h ha ..
  | btab f => exact proceeds_execBtab h ha ..
  | fadd f | fsub f | fmul f | ffma f | fmin f | fmax f | fdiv f | fsqrt f | frcp f | frsq f | fexp2 f | flog2 f
  | frnd f | fclass f | pfma f | f2f f | i2f f | qdiff f | scang f => exact proceeds_floatOp h ha ..
  | fcmp f | f2i f => exact proceeds_issue h ha fun _ _ _ hu => State.sound_raiseFlags (by simp [hu]) ..
  | qblk f => exact proceeds_execQblk h ha ..
  | dqblk f => exact proceeds_execDqblk h ha ..
  | lxch f | qswz f | qbcast f | matchg f => exact proceeds_laneOp h ha ..
  | redg f => exact proceeds_execRedg h ha ..
  | ld f => exact proceeds_execLd h ha ..
  | st f => exact proceeds_execSt h ha ..
  | lds f => exact proceeds_execLds h ha ..
  | sts f => exact proceeds_execSts h ha ..
  | ldc f => exact proceeds_execLdc h ha ..
  | ldb f => exact proceeds_execLdb h ha ..
  | stb f => exact proceeds_execStb h ha ..
  | spill f => exact proceeds_execSpill h ha ..
  | fill f => exact proceeds_execFill h ha ..
  | atom f => exact proceeds_execAtom h ha ..
  | atoms f => exact proceeds_execAtoms h ha ..
  | cpyt f => exact proceeds_execCpyt h ha ..
  | cpyo f => exact proceeds_execCpyo h ha ..
  | cpyb f => exact proceeds_execCpyb h ha ..
  | barv f => exact proceeds_execBarv h ha ..
  | barw f => exact proceeds_execBarw h ha ..
  | bexp f => exact proceeds_execBexp h ha ..
  | sqrel f => exact proceeds_execSqrel h ha ..
  | jst f | mst f => exact proceeds_issue h ha fun _ _ _ hu => State.sound_joinRes hu ..
  | tld f | tldt f => exact proceeds_issue h ha fun _ _ _ hu => State.sound_threshRes hu ..
  | lpeek f => exact proceeds_execLpeek h ha ..
  | ljoin f => exact proceeds_execLjoin h ha ..
  | lcmp f => exact proceeds_execLcmp h ha ..
  | freg f => exact proceeds_execFreg h ha ..
  | fregWait f => exact proceeds_execFregWait h ha ..
  | fres f | fpois f => exact proceeds_issue h ha fun _ _ _ hu => State.sound_resolveRes hu ..
  | spawn f => exact proceeds_execSpawn h ha ..
  | tsub f => exact proceeds_execTsub h ha ..
  | qpop f => exact proceeds_execQpop h ha ..
  | qpush f => exact proceeds_execQpush h ha ..
  | tret f | tretWr f => exact proceeds_issue h ha fun _ _ _ hu => State.sound_tretRes hu ..
  | bkpt f | bkptCrew f => exact proceeds_issue h ha fun _ _ _ hu => State.sound_bkptRes hu ..
  | dump f => exact proceeds_execDump h ha ..
  | errinj f => exact proceeds_execErrinj h ha ..
  | hrd f => exact proceeds_execHrd h ha ..
  | hwr f => exact proceeds_execHwr h ha ..
  | hstep f | hstepLane f => exact proceeds_issue h ha fun _ _ _ hu => State.sound_hstepRes hu ..
  | hres f | hresCrew f | hresSheaf f => exact proceeds_issue h ha fun _ _ _ hu => State.sound_hresRes hu ..
  | _ => cases hi

theorem proceeds_exec_seq (ha : s.HasSeq) (hi : i.matrix? = some true) : Proceeds (exec i s) := by
  cases i with unfold exec
  | mma f | mmas f => exact proceeds_issueSeq h ha fun _ _ _ => State.sound_postPass h ..
  | mzero f | mfill f | mdrain f | mcpyOut f | mcpyIn f
    => exact proceeds_issueSeq h ha fun _ _ _ => State.sound_postSilo h ..
  | mtld f => exact proceeds_issueSeq h ha fun _ _ _ => by dsimp only; (repeat' split) <;> simp [h]
  | mcfgFmt f | mcfgGrp f | mstat f | seqMovi f | seqIadd f | seqIsub f | seqIcmp f | seqBra f | seqExit f
    => exact proceeds_issueSeq h ha fun _ _ _ => by simp [h]
  | mcfgFmtm f | mbarWait f | seqLoop f => exact proceeds_issueSeq h ha fun _ _ _ => by dsimp only; split <;> simp [h]
  | msync f => exact proceeds_issueSeq h ha fun _ _ _ => by split <;> simp [h]
  | mbarArv f => exact proceeds_execMbarArv h ha ..
  | _ => cases hi

theorem proceeds_exec_event (hi : i.matrix? = none) : Proceeds (exec i s) := by
  cases i with unfold exec
  | powerOnReset imageOk failed domId => exact proceeds_execPowerOnReset h ..
  | linkRetryFailure link who => exact proceeds_execLinkRetryFailure h ..
  | drain g k => exact proceeds_execDrain h ..
  | evict core line => exact proceeds_execEvict h ..
  | remoteReply g => exact proceeds_execRemoteReply h ..
  | taskRecordValidation die => exact proceeds_execTaskRecordValidation h ..
  | dispatchDecision die => exact proceeds_execDispatchDecision h ..
  | admissionCommit die => exact proceeds_execAdmissionCommit h ..
  | admissionRelease die => exact proceeds_execAdmissionRelease h ..
  | coreReservation die => exact proceeds_execCoreReservation h ..
  | preemptionRequest core slot => exact proceeds_execPreemptionRequest h ..
  | crewEviction core slot => exact proceeds_execCrewEviction h ..
  | crewRestore id core => exact proceeds_execCrewRestore h ..
  | fullTestEnd core => exact proceeds_execFullTestEnd h ..
  | spawnRecordStart core k => exact proceeds_execSpawnRecordStart h ..
  | overflowRingMove core => exact proceeds_execOverflowRingMove h ..
  | crewRetire core slot => exact proceeds_execCrewRetire h ..
  | queueEntryReceipt link full => exact proceeds_execQueueEntryReceipt h ..
  | acknowledgement link => exact proceeds_execAcknowledgement h ..
  | negativeAcknowledgement link => exact proceeds_execNegativeAcknowledgement h ..
  | backoffExpiry link => exact proceeds_execBackoffExpiry h ..
  | sleepExpiry g => exact proceeds_execSleepExpiry h ..
  | yieldEnd g => exact proceeds_execYieldEnd h ..
  | copyIssue g => exact proceeds_execCopyIssue h ..
  | beat id k => exact proceeds_execBeat h ..
  | copyCompletion id => exact proceeds_execCopyCompletion h ..
  | arbiterGrant engine => exact proceeds_execArbiterGrant h ..
  | passSegment id => exact proceeds_execPassSegment h ..
  | passCompletion id => exact proceeds_execPassCompletion h ..
  | siloOperationCompletion id => exact proceeds_execSiloOperationCompletion h ..
  | engineResume engine failed => exact proceeds_execEngineResume h ..
  | push k => exact proceeds_execPush h ..
  | exchange desc src line => exact proceeds_execExchange h ..
  | phaseEnd desc stretched => exact proceeds_execPhaseEnd h ..
  | thresholdLoad g => exact proceeds_execThresholdLoad h ..
  | tldtTimeout g => exact proceeds_execTldtTimeout h ..
  | lsyncDone g => exact proceeds_execLsyncDone h ..
  | futureWaitReturn g => exact proceeds_execFutureWaitReturn h ..
  | fwaitExpiry g => exact proceeds_execFwaitExpiry h ..
  | faultRecordWrite part => exact proceeds_execFaultRecordWrite h ..
  | heatSample core frame => exact proceeds_execHeatSample h ..
  | trapCompaction core slot => exact proceeds_execTrapCompaction h ..
  | sheafHaltArrival core slot => exact proceeds_execSheafHaltArrival h ..
  | fatalHandlerStart core slot => exact proceeds_execFatalHandlerStart h ..
  | queuePoll lane => exact proceeds_execQueuePoll h ..
  | deviceLaunchQueueTake lane => exact proceeds_execDeviceLaunchQueueTake h ..
  | queueRestart lane => exact proceeds_execQueueRestart h ..
  | regionRegistration desc w => exact proceeds_execRegionRegistration h ..
  | regionDeregistration desc w => exact proceeds_execRegionDeregistration h ..
  | partitionEnable part w => exact proceeds_execPartitionEnable h ..
  | asidDisable asid w => exact proceeds_execAsidDisable h ..
  | poolWindowEnable port win w trained => exact proceeds_execPoolWindowEnable h ..
  | poolWindowDisable port win w => exact proceeds_execPoolWindowDisable h ..
  | freplay part w => exact proceeds_execFreplay h ..
  | pteUpdate die => exact proceeds_execPteUpdate h ..
  | pteInvalidate die => exact proceeds_execPteInvalidate h ..
  | shootdownComplete die => exact proceeds_execShootdownComplete h ..
  | bar2Read off size => exact proceeds_execBar2Read h ..
  | bar2Write off size val => exact proceeds_execBar2Write h ..
  | registerWrite who off w => exact proceeds_execRegisterWrite h ..
  | cctlCompletion g => exact proceeds_execCctlCompletion h ..
  | msixUnmask vec => exact proceeds_execMsixUnmask h ..
  | peerLinkChange => exact proceeds_execPeerLinkChange h
  | backInvalidate => exact proceeds_execBackInvalidate h
  | tick => exact proceeds_execTick h
  | sensorSample => exact proceeds_execSensorSample h
  | coolPeriodExpiry => exact proceeds_execCoolPeriodExpiry h
  | engineWatchdogExpiry => exact proceeds_execEngineWatchdogExpiry h
  | snapshotTrigger => exact proceeds_execSnapshotTrigger h
  | snapshotLatch => exact proceeds_execSnapshotLatch h
  | thresherRound => exact proceeds_execThresherRound h
  | nopPacket => exact proceeds_execNopPacket h
  | launch => exact proceeds_execLaunch h
  | ibCall => exact proceeds_execIbCall h
  | waitValue => exact proceeds_execWaitValue h
  | writeValue => exact proceeds_execWriteValue h
  | fencePacket => exact proceeds_execFencePacket h
  | timestamp => exact proceeds_execTimestamp h
  | snapshotRelease => exact proceeds_execSnapshotRelease h
  | hostTrigger => exact proceeds_execHostTrigger h
  | readEventLog => exact proceeds_execReadEventLog h
  | updateBegin => exact proceeds_execUpdateBegin h
  | updateData => exact proceeds_execUpdateData h
  | updateCommit => exact proceeds_execUpdateCommit h
  | granaryHalt => exact proceeds_execGranaryHalt h
  | granaryHrd => exact proceeds_execGranaryHrd h
  | granaryHwr => exact proceeds_execGranaryHwr h
  | granaryHstep => exact proceeds_execGranaryHstep h
  | granaryHres => exact proceeds_execGranaryHres h
  | killAsid => exact proceeds_execKillAsid h
  | preemptAsid => exact proceeds_execPreemptAsid h
  | snapshotCommand => exact proceeds_execSnapshotCommand h
  | mailboxCommandCompletion => exact proceeds_execMailboxCommandCompletion h
  | powerLoss => exact proceeds_execPowerLoss h
  | _ => cases hi

end

/-- Whoever the instruction is one of acts, and is there. -/
inductive State.Hosts (s : State) (i : Instr) : Prop where
  | group (hi : i.matrix? = some false) (ha : s.HasGroup)
  | seq (hi : i.matrix? = some true) (ha : s.HasSeq)
  | event (hi : i.matrix? = none)

theorem proceeds_exec {s : State} {i : Instr} (h : MemoryWf s.memory) (hi : s.Hosts i) : Proceeds (exec i s) := by
  cases hi with
  | group hi ha => exact proceeds_exec_group h ha hi
  | seq hi ha => exact proceeds_exec_seq h ha hi
  | event hi => exact proceeds_exec_event h hi

/-! ### Fetching and turns -/

section

variable {s t : State}

@[simp] theorem State.crews_logEvent (code arg n) : (s.logEvent code arg n).crews = s.crews := by
  unfold State.logEvent; dsimp only; split <;> rfl

@[simp] theorem State.crews_correct (pa n) : (s.correct pa n).crews = s.crews := by
  unfold State.correct; dsimp only; split <;> rfl

@[simp] theorem State.crews_readElsewhere (pa n) : (s.readElsewhere pa n).crews = s.crews := by
  unfold State.readElsewhere; dsimp only; split <;> simp

@[simp] theorem State.crews_walkReads (asid va) : (s.walkReads asid va).crews = s.crews := by
  unfold State.walkReads
  split
  · rfl
  · exact List.foldlRecOn (motive := fun t : State => t.crews = s.crews) _ _ rfl fun t ht a _ => by simp [ht]

@[simp] theorem State.crews_lookedUp (count core asid va) : (s.lookedUp count core asid va).crews = s.crews := by
  unfold State.lookedUp
  split
  · rfl
  · split
    · rfl
    · simp only [State.putCore]
      split <;> split <;> simp

/-- A fetch changes neither memory nor the crews. -/
theorem State.memory_crews_fetchBlock {core asid b bs} (ht : s.fetchBlock core asid b = .ok (t, bs)) :
    t.memory = s.memory ∧ t.crews = s.crews := by
  unfold State.fetchBlock at ht
  split at ht
  · split at ht
    · cases ht; exact ⟨rfl, rfl⟩
    · split at ht
      · cases ht
      · cases ht; simp
  · cases ht
  · cases ht

theorem matrix?_decodeAt {matrix bs off i} (hi : decodeAt matrix bs off = .ok i) : i.matrix? = some matrix := by
  unfold decodeAt at hi; dsimp only at hi
  split at hi
  · cases hi
  · split at hi
    · cases hi
    · split at hi <;> cases hi
      next hd => exact matrix?_decode hd

theorem State.memory_fetch_fault {core asid matrix pc bad fr} (ht : s.fetch core asid matrix pc bad = .fault t fr) :
    t.memory = s.memory := by
  unfold State.fetch at ht; dsimp only at ht
  split at ht
  · cases ht; rfl
  · split at ht
    · cases ht; rfl
    · split at ht
      · cases ht; rfl
      · next hb =>
        split at ht <;> cases ht
        exact (State.memory_crews_fetchBlock hb).1

theorem State.fetch_ok {core asid matrix pc bad i} (ht : s.fetch core asid matrix pc bad = .ok t i) :
    t.memory = s.memory ∧ t.crews = s.crews ∧ i.matrix? = some matrix := by
  unfold State.fetch at ht; dsimp only at ht
  split at ht
  · cases ht
  · split at ht
    · cases ht
    · split at ht
      · cases ht
      · next hb =>
        split at ht <;> cases ht
        next hd =>
          obtain ⟨hm, hc⟩ := State.memory_crews_fetchBlock hb
          exact ⟨hm, hc, matrix?_decodeAt hd⟩

@[simp] theorem State.memory_stepped (s' : State) (g r act) : (s.stepped s' g r act).memory = s'.memory := by
  unfold State.stepped; dsimp only
  split
  · split
    · simp
    · split
      · simp
      · split <;> simp
  · simp
  · rfl

@[simp] theorem State.memory_endedFirst (s' : State) : (s.endedFirst s').memory = s'.memory := by
  unfold State.endedFirst; split <;> rfl

theorem State.memoryWf_finish {s1 s2 : State} (h1 : MemoryWf s1.memory) (h2 : MemoryWf s2.memory) (g r act) :
    MemoryWf (s.finish s1 s2 g r act).memory := by
  unfold State.finish
  refine State.memoryWf_ite (State.memoryWf_ite (by simp [h1]) (by simp [h2])) ?_
  split
  · exact State.memoryWf_ite (by simp [h2]) h2
  · exact h2

/-- A turn leaves memory in canonical form, and one that runs an instruction has the instruction's actor in place. -/
def Turn.Sound : Turn → Prop
  | .done t => MemoryWf t.memory
  | .run t i => MemoryWf t.memory ∧ t.Hosts i

theorem State.hasGroup_groupRun (g r i) : (s.groupRun g r i).HasGroup :=
  ⟨g, r.begin_ i, rfl, tfind_tput_self ..⟩

theorem State.sound_groupTurn (h : MemoryWf s.memory) (g) : (s.groupTurn g).Sound := by
  unfold State.groupTurn
  split
  · exact h
  · next r _ =>
    split
    · exact h
    · split
      · exact State.memoryWf_firmware h ..
      · split
        · split
          · next hf => exact ⟨by simp [h], .group (Instr.matrix?_of_any hf) (State.hasGroup_groupRun ..)⟩
          · exact h
        · split
          · next ht =>
            have ht : MemoryWf _ := State.memory_fetch_fault ht ▸ h
            exact State.memoryWf_finish ht (by simp [ht]) ..
          · next ht =>
            obtain ⟨hm, -, hi⟩ := State.fetch_ok ht
            split
            · exact State.memoryWf_finish h (by simp [h]) ..
            · exact ⟨by simp [hm, h], .group hi (State.hasGroup_groupRun ..)⟩

theorem State.sound_seqTurn (h : MemoryWf s.memory) (core slot) : (s.seqTurn core slot).Sound := by
  unfold State.seqTurn
  split
  · exact h
  · next c hc =>
    split
    · exact h
    · split
      · next ht =>
        obtain ⟨hm, hcr, hi⟩ := State.fetch_ok ht
        exact ⟨by simp [hm, h], .seq hi ⟨core, slot, c, rfl, by simpa [State.crew?, hcr] using hc⟩⟩
      · next ht =>
        simp [Turn.Sound, State.memory_fetch_fault ht, h]

/-! ### The step -/

theorem Proceeds.afterwards {o : Host.Outcome State Fault Refusal} (ho : Proceeds o) {k : State → State}
    (hk : ∀ u, MemoryWf u.memory → MemoryWf (k u).memory) : Proceeds (afterwards o k) := by
  obtain ⟨t, rfl, ht⟩ := ho.exists_next
  exact .next (hk t ht)

variable (h : MemoryWf s.memory)
include h

theorem State.proceeds_move (m) : Proceeds (s.move m) := by
  unfold State.move
  refine .ite (.next h) ?_
  cases m with
  | issue g rf =>
    have hturn := State.sound_groupTurn (s := { s with refetch := rf }) h g
    dsimp only
    split
    · next ht => rw [ht] at hturn; exact .next hturn
    · next ht =>
      rw [ht] at hturn
      obtain ⟨h1, hi⟩ := hturn
      refine (proceeds_exec h1 hi).afterwards fun u hu => ?_
      split
      · exact State.memoryWf_finish h1 hu ..
      · exact hu
  | seq core slot rf =>
    have hturn := State.sound_seqTurn (s := { s with refetch := rf }) h core slot
    dsimp only
    split
    · next ht => rw [ht] at hturn; exact .next hturn
    · next ht =>
      rw [ht] at hturn
      obtain ⟨h1, hi⟩ := hturn
      exact proceeds_exec h1 hi
  | stop g => simp [h]
  | event i rf =>
    dsimp only
    split
    · exact .next h
    · next hf => exact proceeds_exec (by simp [h]) (.event (by simpa [Instr.matrix?] using hf))
  | memError pa bad => simp [h]
  | crewError core slot bad => simp [h]
  | peek g k => simp [h]

theorem State.proceeds_make (m) : Proceeds (s.make m) :=
  (State.proceeds_move h m).afterwards fun u hu => by simp [hu]

theorem proceeds_step : Proceeds (step s) := by
  have hs : MemoryWf s.nextMove.2.memory := by
    unfold State.nextMove; split <;> exact h
  unfold step
  split
  · next hm => rw [hm] at hs; exact .next hs
  · next hm => rw [hm] at hs; exact State.proceeds_make hs _

end

/-- Settles O56: memory changes by stores alone, each of which keeps the canonical form, and the fault of an
instruction whose actor is missing cannot arise, since a turn puts its actor in place. -/
theorem stepKeepsMemory : Obligations.StepKeepsMemory := by
  intro s h
  obtain ⟨t, ht, hm⟩ := (proceeds_step (s.memWf_iff.mp h)).exists_next
  exact ⟨t, ht, t.memWf_iff.mpr hm⟩

end Sys2Proof.Machine

/-! ## The device at reset (R31, R91, R211, R290, R297, R340, R354, R355) -/

namespace Sys2Proof.Machine

@[simp] theorem State.reset_core (n : Nat) : State.reset.core n = {} := rfl
@[simp] theorem State.reset_ctlw (off : Nat) : State.reset.ctlw off = ctlReset off := rfl

/-- Outside QBACKOFF's words (R91) and word 2 of a partition's descriptor (R290) a control-block word resets to 0. -/
theorem ctlReset_eq_zero {off : Nat} (hq : ¬(0x4900 ≤ off ∧ off < 0x4E00))
    (hp : ¬(0x2000 ≤ off ∧ off < 0x2800 ∧ off % 32 = 16)) : ctlReset off = 0 := by
  have h1 : off ≠ 0x4910 := by omega
  have h2 : ¬(0x4900 ≤ off ∧ off < 0x4910 ∨ 0x4A00 ≤ off ∧ off < 0x4E00) := by omega
  have h3 : ¬((0x2000 ≤ off ∧ off < 0x2800) ∧ off % 32 = 16) := by omega
  simp [ctlReset, h1, h2, h3]

/-- Word 2 of a partition's descriptor resets to FWAIT's default (R290). -/
theorem ctlReset_partd {p : Nat} (h : p < 64) : ctlReset (0x2000 + 32 * p + 16) = 0x10000000 := by
  have h1 : 0x2000 + 32 * p + 16 ≠ 0x4910 := by omega
  have h2 : ¬(0x4900 ≤ 0x2000 + 32 * p + 16 ∧ 0x2000 + 32 * p + 16 < 0x4910 ∨
    0x4A00 ≤ 0x2000 + 32 * p + 16 ∧ 0x2000 + 32 * p + 16 < 0x4E00) := by omega
  have h3 : (0x2000 ≤ 0x2000 + 32 * p + 16 ∧ 0x2000 + 32 * p + 16 < 0x2800) ∧ (0x2000 + 32 * p + 16) % 32 = 16 := by omega
  simp only [ctlReset, h1, Bool.or_eq_true, Bool.and_eq_true, decide_eq_true_eq, h2, h3, if_false, if_true, and_self]

/-- A core as reset leaves it: nothing viewed or sampled, every counter and every watch word zero. -/
theorem core_as_reset : let c : Core := {}
    c.view = [] ∧ c.sample = 0 ∧ c.samples = [] ∧ (∀ l < 16, c.leaf.getD l 1 = 0) ∧
    ∀ w ∈ c.watch, w.ctl = 0 ∧ w.opa = 0 ∧ w.opb = 0 ∧ w.stat = 0 := by
  refine ⟨rfl, rfl, rfl, by decide, fun w hw => ?_⟩
  obtain rfl := List.eq_of_mem_replicate hw
  exact ⟨rfl, rfl, rfl, rfl⟩

/-- Settles O57: each table of the reset state is empty, so what is read from it is the value of an unlisted key. -/
theorem resetState : Obligations.ResetState := by
  refine ⟨reset_memWf, rfl, rfl, rfl, fun _ => rfl, fun _ _ => rfl, fun n => ?_, rfl, rfl, fun _ => rfl, rfl, rfl, rfl, rfl,
    fun off hq hp => (State.reset_ctlw off).trans (ctlReset_eq_zero hq hp),
    fun p hp => (State.reset_ctlw _).trans (ctlReset_partd hp), rfl, rfl⟩
  rw [State.reset_core]
  exact core_as_reset

end Sys2Proof.Machine

/-! ## Snapshots, probes and traces (R32, R354 to R358) -/

namespace Sys2Proof.Machine

/-! ### The snapshot's trigger and latch -/

section
variable (s : State)

/-- A trigger, once the source's effect on the snapshot is told apart: missed while one is held, else pending. -/
theorem State.trigger_eq (src : Nat) (who : List W32) : s.trigger src who =
    { s with dev := { s.dev with snap := if s.dev.snap.held
        then { s.dev.snap with missed := min (s.dev.snap.missed + 1) 65535 }
        else { s.dev.snap with
          pending := setBit s.dev.snap.pending src true, pendWho := s.dev.snap.pendWho ++ who } } } := rfl

/-- SNAPSHOT_TRIGGER: the sources that the free value names are missed, or pending together. -/
theorem exec_snapshotTrigger_eq :
    let from_ : BitVec 4 := (Config.freeValue s.freeCtr).setWidth 4 &&& 0xC
    exec .snapshotTrigger s = .next { s with freeCtr := s.freeCtr + 1, dev := { s.dev with snap :=
      if from_ = 0 then s.dev.snap
      else if s.dev.snap.held then { s.dev.snap with missed := min (s.dev.snap.missed + 1) 65535 }
      else { s.dev.snap with pending := s.dev.snap.pending ||| from_ } } } := by
  intro from_
  rw [exec_snapshotTrigger]
  change Host.Outcome.next (State.triggerBoth { s with freeCtr := s.freeCtr + 1 } from_) = _
  unfold State.triggerBoth
  by_cases h : from_ = 0 <;> simp only [h, if_true, if_false]

/-- A vector that is not masked is sent. -/
theorem State.vector_sent {v : Nat} (h : bitOf s.dev.msix.mask v = false) :
    (s.vector v).dev.msix.sent = s.dev.msix.sent ++ [v] := by
  simp [State.vector, h]

/-- The latch: the sources, the heartbeat and every unit's block are taken, and vector 1 is raised. -/
theorem exec_snapshotLatch_eq (hp : s.dev.snap.pending ≠ 0) (hh : s.dev.snap.held = false) :
    exec .snapshotLatch s = .next (State.vector { s with
      freeCtr := s.freeCtr + 6144
      dev := { s.dev with
        snap := { s.dev.snap with
          held := true, pending := 0, src := s.dev.snap.pending, hb := s.dev.hb
          who := snapWho s.dev.snap.pendWho, pendWho := [], blocks := s.snapBlocks } } } 1) := by
  have : ¬(decide (s.dev.snap.pending = 0) || s.dev.snap.held) = true := by simpa [hh] using hp
  rw [exec_snapshotLatch, execSnapshotLatch]
  exact if_neg this

end

/-- SNAP: source 1 of the trigger, with the group's WHO word. -/
theorem exec_snap_issues {f : Fields} {x : Form} {s : State} {g : Gid} {r : Group} (h : Issues (.snap f) x s g r) :
    exec (.snap f) s = .next (((s.countIssue g (s.useful r f)).trigger 1 [whoOf g r.crew 0]).putGroup g
      { r.next f with wskip := false }) := by
  obtain rfl := h.form_eq (i := .snap f) rfl
  rw [exec_snap]
  exact issue_ok h (Nat.zero_le _) (s' := (s.countIssue g _).trigger 1 _) rfl (.inl rfl) rfl

/-! ### TRACE's record -/

/-- `t` is `s` in everything but the bytes at home. -/
def OnlyMem (s t : State) : Prop := t = { s with mem := t.mem }

theorem OnlyMem.refl (s : State) : OnlyMem s s := rfl
theorem OnlyMem.trans {s t u : State} (h : OnlyMem s t) (h' : OnlyMem t u) : OnlyMem s u := by
  unfold OnlyMem at *; rw [h', h]
theorem OnlyMem.store (s : State) (pa : Nat) (bs : List Byte) : OnlyMem s (s.store pa bs) := rfl
theorem OnlyMem.groups {s t : State} (h : OnlyMem s t) : t.groups = s.groups := by rw [h]

theorem OnlyMem.getD {s : State} {o : Option State} (h : ∀ t ∈ o, OnlyMem s t) : OnlyMem s (o.getD s) := by
  cases o with
  | none => exact .refl s
  | some t => exact h t rfl

/-- A run over a list that may break off changes memory alone where each turn does. -/
theorem OnlyMem.foldl_option {α : Type*} {s : State} {f : Option State → α → Option State} (hn : ∀ x, f none x = none)
    (hf : ∀ t x, ∀ u ∈ f (some t) x, OnlyMem t u) (l : List α) : ∀ t ∈ l.foldl f (some s), OnlyMem s t := by
  refine List.foldlRecOn (motive := fun o => ∀ t ∈ o, OnlyMem s t) l f (fun t ht => Option.mem_some_iff.mp ht ▸ .refl s)
    fun o ho x _ => ?_
  cases o with
  | none => simp [hn]
  | some t => exact fun u hu => (ho t rfl).trans (hf t x u hu)

theorem State.ringWrite_onlyMem (s : State) (core asid va : Nat) (bs : List Byte) :
    ∀ t ∈ s.ringWrite core asid va bs, OnlyMem s t := by
  refine OnlyMem.foldl_option (fun _ => rfl) (fun u i t ht => ?_) _
  obtain ⟨pa, -, rfl⟩ := Option.map_eq_some_iff.mp ht
  exact .store u _ _

/-- A trace record, written or dropped, changes memory alone. -/
theorem State.traceUnits_onlyMem (s : State) (core asid : Nat) (bs : List Byte) :
    OnlyMem s (s.traceUnits core asid bs) := by
  unfold State.traceUnits; dsimp only
  split
  · split
    · -- the ring is full: its count of dropped records rises
      split
      · exact .getD (s.ringWrite_onlyMem _ _ _ _)
      · exact .refl s
    · -- the units, then the write index
      split
      · next u hu =>
        have hu : OnlyMem s u := OnlyMem.foldl_option (fun _ => rfl) (fun t i => t.ringWrite_onlyMem _ _ _ _) _ u hu
        exact .getD fun t ht => hu.trans (u.ringWrite_onlyMem _ _ _ _ t ht)
      · exact .refl s
  · exact .refl s

/-- TRACE: the record goes to the ring where the group's partition traces. -/
theorem exec_trace_issues {f : Fields} {x : Form} {s : State} {g : Gid} {r : Group} (h : Issues (.trace f) x s g r) :
    let c := s.crewOf g r
    let record := traceRec 2 0xDE (whoOf g r.crew 0).toNat r.pc.toNat (s.dev.hb.toNat % 65536) r.exec.toNat
      (s.gr r f.a.toNat) f.i32.toInt []
    exec (.trace f) s = .next (State.putGroup
      (if bitOf (s.trctl c.asid) 63 then (s.countIssue g (s.useful r f)).traceUnits g.core c.asid record
       else s.countIssue g (s.useful r f)) g { r.next f with wskip := false }) := by
  obtain rfl := h.form_eq (i := .trace f) rfl
  intro c record
  rw [exec_trace]
  refine issue_ok h (Nat.zero_le _) (pre := none) (post := []) ?_ (.inl rfl) ?_
  · change (if !bitOf (s.trctl c.asid) 63 then _ else _) = _
    cases bitOf (s.trctl c.asid) 63 <;> rfl
  · split
    · exact (State.traceUnits_onlyMem ..).groups
    · rfl

/-! ### PROBE's result at the tick -/

theorem gidKey_keyGid (k : Nat) : gidKey (keyGid k) = k := by
  have : k % 2 = 0 ∨ k % 2 = 1 := by omega
  rcases this with h | h <;> simp [gidKey, keyGid, h] <;> omega

theorem keyGid_gidKey {g : Gid} (h : g.slot < 32) : keyGid (gidKey g) = g := by
  obtain ⟨core, slot, hnd⟩ := g
  cases hnd <;> simp [gidKey, keyGid] at h ⊢ <;> omega

theorem State.group?_keyGid (s : State) (k : Nat) : s.group? (keyGid k) = tfind s.groups k := by
  rw [State.group?, gidKey_keyGid]

/-- A run over a list whose every turn leaves the state leaves it. -/
theorem foldl_eq_self {α β : Type*} {f : β → α → β} {s : β} {l : List α} (h : ∀ x ∈ l, f s x = s) : l.foldl f s = s := by
  induction l with
  | nil => rfl
  | cons x l ih =>
    rw [List.foldl_cons, h x (by simp)]
    exact ih fun y hy => h y (by simp [hy])

theorem mem_keys_of_tfind {α : Type} {t : Tab α} {k : Nat} {v : α} (h : tfind t k = some v) : k ∈ t.map (·.1) := by
  induction t with
  | nil => cases h
  | cons e t ih => grind [tfind]

/-- A tick leaves a group that neither probes nor waits for it. -/
theorem State.tickGroup_idle {s : State} {k : Nat}
    (h : ∀ r, tfind s.groups k = some r → r.wait ≠ .fsc ∧ r.probes = []) : s.tickGroup k = s := by
  unfold State.tickGroup
  rw [State.group?_keyGid]
  cases hr : tfind s.groups k with
  | none => rfl
  | some r =>
    obtain ⟨hw, hp⟩ := h r hr
    simp [hw, hp]

/-- A tick leaves a crew of whose parked participants none probes. -/
theorem State.tickParts_idle {s : State} {k : Nat}
    (h : ∀ c, tfind s.crews k = some c → ∀ x ∈ c.parts, x.2.probes = []) : s.tickParts k = s := by
  unfold State.tickParts
  cases hc : tfind s.crews k with
  | none => rfl
  | some c =>
    have : (c.parts.all fun e => e.2.probes.isEmpty) = true := by
      simpa using h c hc
    simp [this]

/-- The state once the one probe of the group `r` at `g` is written. -/
def State.probed (s : State) (g : Gid) (r : Group) (e red d : Nat) : State :=
  let x := s.probe (s.crewOf g r).asid (s.levelOf g r) e red
  (x.2.setG r d x.1).putGroup g { r with probes := [] }

theorem State.tickGroup_probe {s : State} {g : Gid} {r : Group} {e red d : Nat} (hg : s.group? g = some r)
    (hs : g.slot < 32) (hp : r.probes = [(e, red, d)]) (hw : r.wait ≠ .fsc) :
    s.tickGroup (gidKey g) = s.probed g r e red d := by
  unfold State.tickGroup
  rw [keyGid_gidKey hs, hg]
  simp [hp, hw, State.probes, State.probed, State.levelOf]

section
variable {s : State} {g : Gid} {r : Group} {e red d : Nat}

/-- Of the groups that a tick goes through, one whose probe is due is no longer idle; the others are. -/
theorem State.tickGroups_probe (hg : s.group? g = some r) (hs : g.slot < 32) (hp : r.probes = [(e, red, d)])
    (hw : r.wait ≠ .fsc)
    (hother : ∀ k, k ≠ gidKey g → ∀ h, tfind s.groups k = some h → h.wait ≠ .fsc ∧ h.probes = []) :
    (s.groups.map fun e => e.1).foldl State.tickGroup s = s.probed g r e red d := by
  obtain ⟨as, bs, hks, has⟩ := List.eq_append_cons_of_mem (mem_keys_of_tfind hg)
  have before : as.foldl State.tickGroup s = s :=
    foldl_eq_self fun k hk => State.tickGroup_idle (hother k fun e => has (e ▸ hk))
  have after : bs.foldl State.tickGroup (s.probed g r e red d) = s.probed g r e red d := by
    refine foldl_eq_self fun k _ => State.tickGroup_idle fun x hx => ?_
    by_cases hk : k = gidKey g
    · simp only [State.probed, State.putGroup_groups, hk, tfind_tput_self, Option.some.injEq] at hx
      subst hx
      exact ⟨hw, rfl⟩
    · exact hother k hk x ((tfind_tput_ne _ _ hk).symm.trans hx)
  rw [hks, List.foldl_append, before, List.foldl_cons, State.tickGroup_probe hg hs hp hw, after]

/-- A tick in which one group's one probe is due writes that probe's result, and the heartbeat rises. -/
theorem execTick_probe (hg : s.group? g = some r) (hs : g.slot < 32) (hp : r.probes = [(e, red, d)]) (hw : r.wait ≠ .fsc)
    (hother : ∀ k, k ≠ gidKey g → ∀ h, tfind s.groups k = some h → h.wait ≠ .fsc ∧ h.probes = [])
    (hparts : ∀ k c, tfind s.crews k = some c → ∀ x ∈ c.parts, x.2.probes = []) :
    execTick s = .next (State.probed { s with dev := { s.dev with hb := s.dev.hb + 1 } } g r e red d) := by
  unfold execTick
  dsimp only
  rw [State.tickGroups_probe (s := { s with dev := { s.dev with hb := s.dev.hb + 1 } }) hg hs hp hw hother]
  exact congrArg _ (foldl_eq_self fun k _ => State.tickParts_idle (hparts k))

end

/-- Settles O48: each instruction and event by the equation of what it does to the snapshot, the ring or the pending
probes; the tick by what it does to each group in turn, of which only one is not idle. -/
theorem snapshotsProbesTraces : Obligations.SnapshotsProbesTraces := by
  refine ⟨fun f s g r => ⟨fun x h => ?snap, ?host, exec_snapshotTrigger_eq s, exec_snapshotRelease s, fun hp hh => ?latch,
    ?probe, fun x h => exec_trace_issues h⟩, ?tick⟩
  case snap =>
    rw [exec_snap_issues h, State.trigger_eq]
    simp only [whoOf, Nat.zero_mul, Nat.add_zero]
    rfl
  case host => rw [exec_hostTrigger, execHostTrigger, State.trigger_eq, List.append_nil]
  case latch => exact ⟨_, s.snapBlocks, snapWho s.dev.snap.pendWho, exec_snapshotLatch_eq s hp hh, rfl, State.vector_sent _, rfl⟩
  case probe => exact Does.plain rfl (exec_probe f s) (Nat.zero_le _) fun _ _ => rfl
  case tick =>
    intro s g r e red d hg hs hp hw _ hother hparts ticked
    have tick := (exec_tick s).trans (execTick_probe hg hs hp hw hother hparts)
    exact ⟨_, tick, by simp [State.group?, State.probed], rfl, rfl, rfl, .one rfl⟩

end Sys2Proof.Machine

/-! ## Moves that may not be made (R372, R384, R388), and a table of groups that lists a place twice -/

namespace Sys2Proof.Machine

/-- A move that may not be made changes nothing itself; what is left of the step is what every step ends with (R349). -/
theorem step_of_not_allowed {s : State} {m : Move} {rest : List Move} (ha : s.agenda = m :: rest)
    (hm : ({ s with agenda := rest } : State).allows m = false) :
    step s = .next (({ s with agenda := rest } : State).endedFirst { s with agenda := rest }) := by
  simp [step, State.nextMove, ha, State.make, State.move, hm, afterwards]

/-- Without power only a reset may come. -/
theorem State.allows_powerless {s : State} {m : Move} (hp : s.dev.power = false)
    (hm : ∀ a b c rf, m ≠ .event (.powerOnReset a b c) rf) : s.allows m = false := by
  cases m with
  | event i rf =>
    have : isReset i = false := by
      cases i with
      | powerOnReset a b c => exact absurd rfl (hm a b c rf)
      | _ => rfl
    simp [State.allows, hp, this]
  | _ => simp [State.allows, hp]

/-- In a table whose keys rise, the first key is below the others. -/
theorem tsorted_cons {α : Type} {e : Nat × α} {t : Tab α} (h : tsorted (e :: t) = true) :
    (∀ a ∈ t, e.1 < a.1) ∧ tsorted t = true := by
  induction t generalizing e with
  | nil => exact ⟨by simp, rfl⟩
  | cons c t ih =>
    simp only [tsorted, Bool.and_eq_true, decide_eq_true_eq] at h
    obtain ⟨hlt, ht⟩ := h
    exact ⟨List.forall_mem_cons.mpr ⟨hlt, fun a ha => hlt.trans ((ih ht).1 a ha)⟩, ht⟩

/-- In a table whose keys rise, each entry is the one found at its key. -/
theorem tfind_of_mem {α : Type} {t : Tab α} (h : tsorted t = true) {e : Nat × α} (he : e ∈ t) :
    tfind t e.1 = some e.2 := by
  induction t with
  | nil => cases he
  | cons c t ih =>
    obtain ⟨hlt, ht⟩ := tsorted_cons h
    rcases List.mem_cons.mp he with rfl | he
    · simp [tfind]
    · rw [tfind, if_neg (hlt e he).ne, ih ht he]

/-- Where each place is listed once, what moves nothing brings no halt, so nothing is added after it. -/
theorem State.endedFirst_self {s : State} (h : tsorted s.groups = true) : s.endedFirst s = s := by
  have none : ∀ e ∈ s.groups, s.haltedEarly e.1 e.2 = false := by
    intro e he
    rw [State.haltedEarly, s.group?_keyGid, tfind_of_mem h he]
    by_cases hc : e.2.halt.cause = 0 <;> simp [hc]
  unfold State.endedFirst
  rw [if_neg]
  simpa using none

/-- What the clauses of O52 about moves that may not be made come to where each place is listed once: the move is
dropped, and nothing else changes. -/
theorem step_of_not_allowed_sorted {s : State} {m : Move} {rest : List Move} (ha : s.agenda = m :: rest)
    (hm : ({ s with agenda := rest } : State).allows m = false) (hs : tsorted s.groups = true) :
    step s = .next { s with agenda := rest } :=
  (step_of_not_allowed ha hm).trans (congrArg _ (State.endedFirst_self hs))

/-- A device without power whose table lists the place of slot 0 on core 0 twice: first a group that runs on, its
wait for a grant over, then one that a halt stopped in such a wait. -/
def twiceListed : State :=
  let r : Group := { crew := 0, uid := 1, wait := .grant }
  { State.reset with
    agenda := [.issue { core := 0, slot := 0 } false]
    groups := [(0, r), (0, { r with halt := { cause := 1, waiting := true } })]
    dev := { power := false } }

/-- The step drops the move, and takes the second entry for a halt that has just reached the first: it lifts it. -/
theorem twiceListed_step :
    ∃ u, step twiceListed = .next u ∧ u.groups.map (fun e => e.2.halt.cause) = [0, 0] :=
  ⟨_, step_of_not_allowed rfl (State.allows_powerless rfl fun _ _ _ _ => Move.noConfusion), by decide⟩

/-- Refutes O52: "without power only a reset acts" (and the three clauses like it) is stated of every state, also of one
whose table of groups lists a place twice. A halt that lands where a wait had ended is moved past the instruction at
the end of every step (R349), and `State.endedFirst` finds the group before the move by its place: of `twiceListed` it
compares the halted second entry with the first, which is not halted, and changes it, though the move itself is dropped.
Where `tsorted s.groups` holds these clauses hold (`step_of_not_allowed_sorted`). -/
theorem not_powerAndClocks : ¬ Obligations.PowerAndClocks := by
  rintro ⟨-, -, powerless, -⟩
  obtain ⟨u, hu, lifted⟩ := twiceListed_step
  have unchanged := powerless twiceListed rfl (.issue { core := 0, slot := 0 } false) [] rfl fun _ _ _ _ => Move.noConfusion
  obtain rfl := Host.Outcome.next.inj (hu.symm.trans unchanged)
  exact absurd lifted (by decide : twiceListed.groups.map (fun e => e.2.halt.cause) ≠ [0, 0])

end Sys2Proof.Machine

/-! ## Decoding and encoding agree (R35, R39 to R48)

A word is a number cut into parts of fixed widths: `cut_wordWidths_eq_parts` says which bits each part is, and the decoder's
`lenOf`, `guardOf` and `fieldsOf` are read off from it in both directions. -/

namespace Sys2Proof.Laws.Chosen

/-- The decoder's tables choose each legal instruction from its own form. -/
theorem statement (i : Instr) : Statement i := by
  cases i with
  | nop f => exact nop f | exit f => exact exit f | bra f => exact bra f | brx f => exact brx f
  | call f => exact call f | callI f => exact callI f | ret f => exact ret f | loop f => exact loop f
  | dpush f => exact dpush f | delse f => exact delse f | dpop f => exact dpop f | repack f => exact repack f
  | unpack f => exact unpack f | setfmt f => exact setfmt f | yield f => exact yield f | sleep f => exact sleep f
  | movs f => exact movs f | movsw f => exact movsw f | leader f => exact leader f | mov f => exact mov f
  | movi f => exact movi f | sel f => exact sel f | iadd f => exact iadd f | iaddc f => exact iaddc f
  | isub f => exact isub f | isubb f => exact isubb f | imul f => exact imul f | imulh f => exact imulh f
  | imad f => exact imad f | imadw f => exact imadw f | iabs f => exact iabs f | ineg f => exact ineg f
  | imin f => exact imin f | imax f => exact imax f | icmp f => exact icmp f | lea f => exact lea f
  | and f => exact and f | or f => exact or f | xor f => exact xor f | not f => exact not f | btab f => exact btab f
  | shl f => exact shl f | shr f => exact shr f | sha f => exact sha f | rot f => exact rot f | bfx f => exact bfx f
  | bfi f => exact bfi f | popc f => exact popc f | clz f => exact clz f | brev f => exact brev f
  | bysel f => exact bysel f | dot4 f => exact dot4 f | fadd f => exact fadd f | fsub f => exact fsub f
  | fmul f => exact fmul f | ffma f => exact ffma f | fmin f => exact fmin f | fmax f => exact fmax f
  | fcmp f => exact fcmp f | fdiv f => exact fdiv f | fsqrt f => exact fsqrt f | frcp f => exact frcp f
  | frsq f => exact frsq f | fexp2 f => exact fexp2 f | flog2 f => exact flog2 f | frnd f => exact frnd f
  | fclass f => exact fclass f | pfma f => exact pfma f | f2f f => exact f2f f | f2i f => exact f2i f
  | i2f f => exact i2f f | qblk f => exact qblk f | dqblk f => exact dqblk f | lxch f => exact lxch f
  | qswz f => exact qswz f | qbcast f => exact qbcast f | qdiff f => exact qdiff f | pcoll f => exact pcoll f
  | redg f => exact redg f | scang f => exact scang f | bcastg f => exact bcastg f | matchg f => exact matchg f
  | plop f => exact plop f | pmov f => exact pmov f | qlop f => exact qlop f | ld f => exact ld f
  | st f => exact st f | lds f => exact lds f | sts f => exact sts f | ldc f => exact ldc f | ldb f => exact ldb f
  | stb f => exact stb f | spill f => exact spill f | fill f => exact fill f | pref f => exact pref f
  | cctlIc f => exact cctlIc f | cctlView f => exact cctlView f | cctlWb f => exact cctlWb f | atom f => exact atom f
  | atoms f => exact atoms f | fence f => exact fence f | fsc f => exact fsc f | cpyt f => exact cpyt f
  | cpyo f => exact cpyo f | cpyb f => exact cpyb f | binit f => exact binit f | barv f => exact barv f
  | bwait f => exact bwait f | barw f => exact barw f | bexp f => exact bexp f | btest f => exact btest f
  | sqcfg f => exact sqcfg f | sqwait f => exact sqwait f | sqrel f => exact sqrel f | jst f => exact jst f
  | mst f => exact mst f | tld f => exact tld f | tldt f => exact tldt f | lpeek f => exact lpeek f
  | ljoin f => exact ljoin f | lcmp f => exact lcmp f | lsync f => exact lsync f | freg f => exact freg f
  | fregWait f => exact fregWait f | fres f => exact fres f | fpois f => exact fpois f | spawn f => exact spawn f
  | tsub f => exact tsub f | qpop f => exact qpop f | qpush f => exact qpush f | claim f => exact claim f
  | release f => exact release f | rgsur f => exact rgsur f | rgclm f => exact rgclm f | clqry f => exact clqry f
  | helperOn f => exact helperOn f | helperOff f => exact helperOff f | helperRd f => exact helperRd f
  | mma f => exact mma f | mmas f => exact mmas f | mzero f => exact mzero f | mfill f => exact mfill f
  | mdrain f => exact mdrain f | mcpyOut f => exact mcpyOut f | mcpyIn f => exact mcpyIn f | mtld f => exact mtld f
  | mcfgFmt f => exact mcfgFmt f | mcfgFmtm f => exact mcfgFmtm f | mcfgGrp f => exact mcfgGrp f
  | msync f => exact msync f | mbarArv f => exact mbarArv f | mbarWait f => exact mbarWait f
  | mstat f => exact mstat f | seqMovi f => exact seqMovi f | seqIadd f => exact seqIadd f
  | seqIsub f => exact seqIsub f | seqIcmp f => exact seqIcmp f | seqBra f => exact seqBra f
  | seqLoop f => exact seqLoop f | seqExit f => exact seqExit f | trap f => exact trap f
  | trapHset f => exact trapHset f | trapFset f => exact trapFset f | tret f => exact tret f
  | tretWr f => exact tretWr f | bkpt f => exact bkpt f | bkptCrew f => exact bkptCrew f | dump f => exact dump f
  | errinj f => exact errinj f | wpset f => exact wpset f | wpclr f => exact wpclr f | wprd f => exact wprd f
  | hrd f => exact hrd f | hwr f => exact hwr f | hstep f => exact hstep f | hstepLane f => exact hstepLane f
  | hres f => exact hres f | hresCrew f => exact hresCrew f | hresSheaf f => exact hresSheaf f
  | snap f => exact snap f | probe f => exact probe f | trace f => exact trace f | heatrd f => exact heatrd f
  | _ => exact fun _ h => nomatch h

end Sys2Proof.Laws.Chosen

namespace Sys2Proof

/-! ### Bytes and the number they hold (R2) -/

theorem natOfBytes_lt (bs : List Byte) : natOfBytes bs < 256 ^ bs.length := by
  induction bs with
  | nil => simp [natOfBytes]
  | cons b bs ih =>
    have hb := b.isLt
    simp only [natOfBytes, List.length_cons, pow_succ]
    omega

@[simp] theorem length_bytesOfNat (n x : Nat) : (bytesOfNat n x).length = n := by
  induction n generalizing x with
  | zero => rfl
  | succ n ih => simp [bytesOfNat, ih]

theorem natOfBytes_bytesOfNat (n x : Nat) : natOfBytes (bytesOfNat n x) = x % 256 ^ n := by
  induction n generalizing x with
  | zero => simp [bytesOfNat, natOfBytes, Nat.mod_one]
  | succ n ih => simp [bytesOfNat, natOfBytes, ih, pow_succ', Nat.mod_mul]

theorem bytesOfNat_natOfBytes (bs : List Byte) : bytesOfNat bs.length (natOfBytes bs) = bs := by
  induction bs with
  | nil => rfl
  | cons b bs ih =>
    have hb := b.isLt
    have hlow : BitVec.ofNat 8 (b.toNat + 256 * natOfBytes bs) = b := BitVec.eq_of_toNat_eq (by simp; omega)
    have hhigh : (b.toNat + 256 * natOfBytes bs) / 256 = natOfBytes bs := by omega
    simp only [List.length_cons, bytesOfNat, natOfBytes, hlow, hhigh, ih]

/-- A bit read as a Boolean. -/
theorem toNat_mod_two_beq_one (n : Nat) : (n % 2 == 1).toNat = n % 2 := by
  rcases Nat.mod_two_eq_zero_or_one n with h | h <;> rw [h] <;> rfl

/-! ### The fields of a word (R35, R39, R41, R44, R45) -/

theorem lenOf_eq_some {w : Nat} {len : Len} : lenOf w = some len ↔ w % 4 = len.code := by
  unfold lenOf
  have : w % 4 < 4 := Nat.mod_lt _ (by decide)
  cases len <;> split <;> simp_all [Len.code]

theorem Guard.code_lt (g : Guard) : g.code < 2 ^ 9 := by
  cases g with
  | always => decide
  | on neg idx => have := idx.isLt; have := neg.toNat_lt; simp only [Guard.code]; omega

theorem guardOf_of_code {w : Nat} {g : Guard} (h : w / 2 ^ 11 % 2 ^ 9 = g.code) : guardOf w = some g := by
  cases g with
  | always =>
    simp only [Guard.code] at h
    rw [guardOf, if_neg (by omega), if_pos (by omega)]
  | on neg idx =>
    have := idx.isLt
    have := neg.toNat_lt
    simp only [Guard.code] at h
    have hneg : w / 2 ^ 12 % 2 = neg.toNat := by omega
    have hidx : w / 2 ^ 13 % 2 ^ 7 = idx.toNat := by omega
    rw [guardOf, if_pos (by omega), hneg, hidx]
    cases neg <;> simp

theorem code_of_guardOf {w : Nat} {g : Guard} (h : guardOf w = some g) : g.code = w / 2 ^ 11 % 2 ^ 9 := by
  unfold guardOf at h
  split at h
  · cases h
    simp only [Guard.code, toNat_mod_two_beq_one, BitVec.toNat_ofNat]
    omega
  · split at h <;> cases h
    simp only [Guard.code]
    omega

/-! ### A number cut into parts of given widths, the lowest first -/

/-- The number whose parts, of the widths given, are these. -/
def pack : List Nat → List Nat → Nat
  | w :: ws, v :: vs => v + 2 ^ w * pack ws vs
  | _, _ => 0

/-- The parts of a number, of the widths given. -/
def cut : List Nat → Nat → List Nat
  | [], _ => []
  | w :: ws, x => x % 2 ^ w :: cut ws (x / 2 ^ w)

theorem cut_pack {ws vs : List Nat} (h : List.Forall₂ (fun w v => v < 2 ^ w) ws vs) : cut ws (pack ws vs) = vs := by
  induction h with
  | nil => rfl
  | @cons w v ws vs hv _ ih =>
    have hlow : (v + 2 ^ w * pack ws vs) % 2 ^ w = v := by rw [Nat.add_mul_mod_self_left, Nat.mod_eq_of_lt hv]
    have hhigh : (v + 2 ^ w * pack ws vs) / 2 ^ w = pack ws vs := by
      rw [Nat.add_mul_div_left _ _ (by positivity), Nat.div_eq_of_lt hv, Nat.zero_add]
    simp only [pack, cut, hlow, hhigh, ih]

theorem pack_cut (ws : List Nat) (x : Nat) : pack ws (cut ws x) = x % 2 ^ ws.sum := by
  induction ws generalizing x with
  | nil => simp [pack, Nat.mod_one]
  | cons w ws ih => rw [cut, pack, ih, List.sum_cons, pow_add, Nat.mod_mul]

/-! ### The parts of a word -/

/-- The widths of LEN, U, OP, the guard, D, A, B, C, F.fn, the kind bits and the word above them (R39, R44, R45). -/
def wordWidths : List Nat := [2, 1, 8, 9, 8, 8, 8, 8, 9, 1, 1, 1, 64]

/-- The parts of the word of an instruction. -/
def Fields.parts (f : Fields) (op : Nat) : List Nat :=
  [f.len.code, f.u.toNat, op, f.guard.code, f.d.toNat, f.a.toNat, f.b.toNat, f.c.toNat, f.fn.toNat, f.ka.toNat, f.kb.toNat,
    f.kc.toNat, f.imm.toNat]

theorem Form.word_eq_pack (x : Form) : x.word = pack wordWidths (x.f.parts x.op) := by
  simp only [Form.word, Fields.base, pack, wordWidths, Fields.parts]
  ring

theorem Len.code_lt (len : Len) : len.code < 2 ^ 2 := by cases len <;> decide

theorem Fields.parts_lt (f : Fields) {op : Nat} (hop : op < 2 ^ 8) :
    List.Forall₂ (fun w v => v < 2 ^ w) wordWidths (f.parts op) := by
  simp only [wordWidths, Fields.parts, List.forall₂_cons, List.forall₂_nil_left_iff, and_true, pow_one]
  exact ⟨f.len.code_lt, f.u.toNat_lt, hop, f.guard.code_lt, f.d.isLt, f.a.isLt, f.b.isLt, f.c.isLt, f.fn.isLt, f.ka.toNat_lt,
    f.kb.toNat_lt, f.kc.toNat_lt, f.imm.isLt⟩

/-- The parts of a word, each by its place. -/
theorem cut_wordWidths_eq_parts {w op : Nat} {f : Fields} : cut wordWidths w = f.parts op ↔
    w % 4 = f.len.code ∧ w / 2 ^ 2 % 2 = f.u.toNat ∧ w / 2 ^ 3 % 2 ^ 8 = op ∧ w / 2 ^ 11 % 2 ^ 9 = f.guard.code ∧
    w / 2 ^ 20 % 2 ^ 8 = f.d.toNat ∧ w / 2 ^ 28 % 2 ^ 8 = f.a.toNat ∧ w / 2 ^ 36 % 2 ^ 8 = f.b.toNat ∧
    w / 2 ^ 44 % 2 ^ 8 = f.c.toNat ∧ w / 2 ^ 52 % 2 ^ 9 = f.fn.toNat ∧ w / 2 ^ 61 % 2 = f.ka.toNat ∧
    w / 2 ^ 62 % 2 = f.kb.toNat ∧ w / 2 ^ 63 % 2 = f.kc.toNat ∧ w / 2 ^ 64 % 2 ^ 64 = f.imm.toNat := by
  simp [cut, wordWidths, Fields.parts, Nat.div_div_eq_div_mul]

/-- A word of these parts has these fields. -/
theorem fieldsOf_of_parts {w op : Nat} {f : Fields} (h : cut wordWidths w = f.parts op) (hf : f.immFits = true) :
    fieldsOf w f.len f.guard = f := by
  obtain ⟨hlen, hu, -, hg, hd, ha, hb, hc, hfn, hka, hkb, hkc, himm⟩ := cut_wordWidths_eq_parts.mp h
  have imm : immOf w f.len = f.imm := by
    cases hl : f.len with
    | w64 => simp only [Fields.immFits, hl, beq_iff_eq] at hf; rw [immOf, hf]
    | w96 =>
      have : f.imm.toNat < 2 ^ 32 := by simpa [Fields.immFits, hl] using hf
      exact BitVec.eq_of_toNat_eq (by simp only [immOf, BitVec.toNat_ofNat]; omega)
    | w128 => rw [immOf, himm, BitVec.ofNat_toNat, BitVec.setWidth_eq]
  simp only [fieldsOf, hu, hd, ha, hb, hc, hfn, hka, hkb, hkc, imm, BitVec.ofNat_toNat, BitVec.setWidth_eq]
  simp

/-- A word that fits its length has the parts of its fields. -/
theorem parts_fieldsOf {w : Nat} {len : Len} {g : Guard} (hl : lenOf w = some len) (hg : guardOf w = some g)
    (hw : w < 256 ^ len.bytes) : cut wordWidths w = (fieldsOf w len g).parts (w / 2 ^ 3 % 2 ^ 8) := by
  have imm : w / 2 ^ 64 % 2 ^ 64 = (immOf w len).toNat := by
    cases len <;> simp only [Len.bytes] at hw <;> simp only [immOf, BitVec.ofNat_eq_ofNat, BitVec.toNat_ofNat] <;> omega
  simp only [cut_wordWidths_eq_parts, fieldsOf, lenOf_eq_some.mp hl, code_of_guardOf hg, toNat_mod_two_beq_one,
    BitVec.toNat_ofNat, imm, Nat.mod_mod, and_self]

/-! ### Decoding a word (R46, R48) -/

/-- The row an OP stands in, of its stream. -/
theorem form_groupInstr {op : Nat} {f : Fields} : ∀ i ∈ groupInstr op f, ∃ sh, i.form = some ⟨false, op, f, sh⟩ := by
  unfold groupInstr
  split
  all_goals (repeat' split)
  all_goals rintro i ⟨⟩
  all_goals exact ⟨_, rfl⟩

theorem form_matrixInstr {op : Nat} {f : Fields} : ∀ i ∈ matrixInstr op f, ∃ sh, i.form = some ⟨true, op, f, sh⟩ := by
  unfold matrixInstr
  split
  all_goals (repeat' split)
  all_goals rintro i ⟨⟩
  all_goals exact ⟨_, rfl⟩

/-- OP is a byte. -/
theorem Instr.op_lt {i : Instr} {x : Form} (h : i.form = some x) : x.op < 2 ^ 8 := by
  cases i
  all_goals cases h
  all_goals exact Nat.le_of_ble_eq_true rfl

theorem Fields.base_lt {f : Fields} {op : Nat} (hop : op < 2 ^ 8) : f.base op < 2 ^ 64 := by
  have hlen := f.len.code_lt
  have hg := f.guard.code_lt
  have hu := f.u.toNat_lt
  have hka := f.ka.toNat_lt
  have hkb := f.kb.toNat_lt
  have hkc := f.kc.toNat_lt
  unfold Fields.base
  omega

/-- The word of an instruction is no longer than its LEN says. -/
theorem Form.word_lt {x : Form} (hop : x.op < 2 ^ 8) (hf : x.f.immFits = true) : x.word < 256 ^ x.f.len.bytes := by
  have low := x.f.base_lt hop
  have high := x.f.imm.isLt
  unfold Form.word
  cases hl : x.f.len with
  | w64 =>
    have : x.f.imm = 0 := by simpa [Fields.immFits, hl] using hf
    simpa [this, Len.bytes] using low
  | w96 =>
    have : x.f.imm.toNat < 2 ^ 32 := by simpa [Fields.immFits, hl] using hf
    simp only [Len.bytes]
    omega
  | w128 =>
    simp only [Len.bytes]
    omega

theorem Form.cut_word {x : Form} (hop : x.op < 2 ^ 8) : cut wordWidths x.word = x.f.parts x.op := by
  rw [x.word_eq_pack, cut_pack (x.f.parts_lt hop)]

theorem Form.lenOf_word {x : Form} (hop : x.op < 2 ^ 8) : lenOf x.word = some x.f.len :=
  lenOf_eq_some.mpr (cut_wordWidths_eq_parts.mp (Form.cut_word hop)).1

theorem Form.immFits_of_legal {x : Form} (h : x.legal = true) : x.f.immFits = true := ((Bool.and_eq_true ..).mp h).1

theorem Instr.legal_of_wf {i : Instr} {x : Form} (hx : i.form = some x) (hi : i.wf = true) : x.legal = true := by
  simpa only [Instr.wf, hx] using hi

/-- A word is decoded to the instruction whose word it is. -/
theorem decodeWord_word {i : Instr} {x : Form} (hx : i.form = some x) (hi : i.wf = true) : decodeWord x.matrix x.word = .ok i := by
  have legal := Instr.legal_of_wf hx hi
  have hcut := Form.cut_word (Instr.op_lt hx)
  obtain ⟨-, -, hop, hg, -⟩ := cut_wordWidths_eq_parts.mp hcut
  have choice := Laws.Chosen.statement i x hx legal
  simp only [decodeWord, Form.lenOf_word (Instr.op_lt hx), guardOf_of_code hg, hop,
    fieldsOf_of_parts hcut (Form.immFits_of_legal legal), choice, hi, if_true]

/-- A decoded word is the word of its instruction. -/
theorem word_decodeWord {matrix : Bool} {w : Nat} {len : Len} {i : Instr} (hlen : lenOf w = some len) (hw : w < 256 ^ len.bytes)
    (h : decodeWord matrix w = .ok i) :
    ∃ x, i.form = some x ∧ x.matrix = matrix ∧ x.f.len = len ∧ x.word = w ∧ i.wf = true := by
  unfold decodeWord at h
  rw [hlen] at h
  dsimp only at h
  split at h
  · cases h
  next g hg =>
  split at h
  · cases h
  next hi =>
  split at h <;> cases h
  next hwf =>
  have row : ∃ sh, i.form = some ⟨matrix, w / 2 ^ 3 % 2 ^ 8, fieldsOf w len g, sh⟩ := by
    cases matrix with
    | true => exact form_matrixInstr i hi
    | false => exact form_groupInstr i hi
  obtain ⟨sh, hx⟩ := row
  have small : w < 2 ^ 128 := hw.trans_le (by cases len <;> decide)
  refine ⟨_, hx, rfl, rfl, ?_, hwf⟩
  rw [Form.word_eq_pack, ← parts_fieldsOf hlen hg hw, pack_cut]
  exact Nat.mod_eq_of_lt small

/-! ### Decoding bytes -/

theorem lenOf_natOfBytes (b : Byte) (bs : List Byte) : lenOf (natOfBytes (b :: bs)) = lenOf b.toNat := by
  have : natOfBytes (b :: bs) % 4 = b.toNat % 4 := by simp only [natOfBytes]; omega
  simp only [lenOf, this]

theorem Len.bytes_pos (len : Len) : 0 < len.bytes := by cases len <;> decide

/-- Bytes as many as their LEN says are decoded as the word they hold, whatever follows them. -/
theorem decode_append {matrix : Bool} {bytes rest : List Byte} {len : Len} (hlen : lenOf (natOfBytes bytes) = some len)
    (hb : bytes.length = len.bytes) :
    decode matrix (bytes ++ rest) = (decodeWord matrix (natOfBytes bytes)).map fun i => (i, rest) := by
  cases bytes with
  | nil => exact absurd hb len.bytes_pos.ne
  | cons b bs =>
    rw [lenOf_natOfBytes] at hlen
    have htake : (b :: bs ++ rest).take len.bytes = b :: bs := by rw [← hb, List.take_left]
    have hdrop : (b :: bs ++ rest).drop len.bytes = rest := by rw [← hb, List.drop_left]
    have hlong : ¬ (b :: bs ++ rest).length < len.bytes := by simp only [← hb, List.length_append]; omega
    rw [List.cons_append] at htake hdrop hlong ⊢
    simp only [decode, hlen, hlong, htake, hdrop, if_false]
    cases decodeWord matrix (natOfBytes (b :: bs)) <;> rfl

/-- What is decoded is the word that the first bytes hold, as many as their LEN says. -/
theorem decode_ok {matrix : Bool} {bs rest : List Byte} {i : Instr} (h : decode matrix bs = .ok (i, rest)) :
    ∃ bytes len, bs = bytes ++ rest ∧ bytes.length = len.bytes ∧ lenOf (natOfBytes bytes) = some len ∧
      decodeWord matrix (natOfBytes bytes) = .ok i := by
  unfold decode at h
  split at h
  · cases h
  next b t =>
  split at h
  · cases h
  next len hlen =>
  split at h
  · cases h
  next hlong =>
  split at h <;> cases h
  next hw =>
  have htake : ((b :: t).take len.bytes).length = len.bytes := List.length_take_of_le (by omega)
  refine ⟨_, len, (List.take_append_drop len.bytes _).symm, htake, ?_, hw⟩
  obtain ⟨n, hn⟩ := Nat.exists_eq_add_one.mpr len.bytes_pos
  rw [hn, List.take_succ_cons, lenOf_natOfBytes, hlen]

/-- Settles O54: a word is cut into the parts that its instruction packs, the tables choose the instruction from OP and
fields, and bytes and the number they hold determine each other. -/
theorem decodeEncodeAgree : Obligations.DecodeEncodeAgree := by
  refine ⟨fun i x rest hx hi => ?_, fun matrix bs i rest h => ?_⟩
  · have hop := Instr.op_lt hx
    have fits := Form.word_lt hop (Form.immFits_of_legal (Instr.legal_of_wf hx hi))
    have hword : natOfBytes (encode i) = x.word := by
      simp only [encode, hx, natOfBytes_bytesOfNat, Nat.mod_eq_of_lt fits]
    rw [decode_append (hword ▸ Form.lenOf_word hop) (by simp [encode, hx]), hword, decodeWord_word hx hi]
    rfl
  · obtain ⟨bytes, len, rfl, hb, hlen, hw⟩ := decode_ok h
    obtain ⟨x, hx, hm, rfl, hword, hi⟩ := word_decodeWord hlen (hb ▸ natOfBytes_lt bytes) hw
    refine ⟨?_, x, hx, hm, hi⟩
    simp only [encode, hx, hword, ← hb, bytesOfNat_natOfBytes]

/-- Settles O55: each of the words is decoded, or refused, by evaluation. -/
theorem workedWordsDecode : Obligations.WorkedWordsDecode :=
  ⟨rfl, rfl, rfl, rfl, rfl, rfl, rfl, rfl, rfl, rfl, rfl, rfl, rfl, rfl⟩

end Sys2Proof

/-! ## Branches, formats, pacing and special registers (R36, R55, R96 to R98, R108 to R112) -/

namespace Sys2Proof.Machine

/-- Settles O2: each of them completes with the group's record given, and CALL and LOOP write one G register. -/
theorem branchesCallsLoops : Obligations.BranchesCallsLoops := by
  intro f s r
  refine ⟨.plain rfl (exec_nop f s) (Nat.zero_le _) fun _ _ => rfl, .plain rfl (exec_bra f s) (Nat.zero_le _) fun _ _ => rfl,
    .plain rfl (exec_brx f s) (Nat.zero_le _) fun _ _ => rfl, .writesG rfl (exec_call f s) (Nat.zero_le _) fun _ _ => rfl,
    .writesG rfl (exec_callI f s) (Nat.zero_le _) fun _ _ => rfl, .plain rfl (exec_ret f s) (Nat.zero_le _) fun _ _ => rfl, ?loop⟩
  split
  · next hn => exact .plain rfl (exec_loop f s) (Nat.zero_le _) fun _ _ => if_pos hn
  · next hn => exact .writesG rfl (exec_loop f s) (Nat.zero_le _) fun _ _ => if_neg hn

/-! ### Special registers (R55, R110) -/

section

variable {s : State} {g : Gid} {r : Group}

@[simp] theorem State.special_countIssue (h : Gid) (b u : Bool) (sel l : Nat) :
    (s.countIssue h b).special g r u sel l = s.special g r u sel l := rfl

/-- The special registers in the order of their selectors: `grp` is the %grp read, the lane's home one or the group's. -/
theorem State.special_eq_getD (u : Bool) (sel l : Nat) : s.special g r u sel l =
    BitVec.ofNat 64 ([l, l / 4, if u then r.grp else r.homeGrp l, (s.crewOf g r).index, (s.crewOf g r).sheaf, g.core,
      clusterOf g.core, dieOf g.core, s.dev.hb.toNat, (s.crewOf g r).asid].getD sel (s.fpxOf r l).toNat) := by
  match sel with
  | 0 | 1 | 2 | 3 | 4 | 5 | 6 | 7 | 9 => rfl
  | 8 => exact ((BitVec.ofNat_toNat ..).trans (BitVec.setWidth_eq _)).symm
  | n + 10 => exact (BitVec.ofNat_toNat ..).symm

theorem Group.homeGrp_eq_getD (l : Nat) : r.homeGrp l = (r.homes.getD l (0, r.grp)).2 := by
  unfold Group.homeGrp
  split
  · next h => rw [h, List.getD_nil]
  · rfl

/-- A 64-bit value in two registers that follow one another. -/
theorem pieces_halves (d : Nat) (y : W64) : pieces d (halves y) = [(d, y.setWidth 32), (d + 1, y.extractLsb' 32 32)] := by
  have upper : (y >>> 32).setWidth 32 = y.extractLsb' 32 32 := by
    apply BitVec.eq_of_getLsbD_eq
    intro i hi
    simp [hi]
  simp [pieces, halves, upper, List.range_succ]

/-- MOVS group-wide: G[D] takes the special register (R110). -/
theorem exec_movs_group {f : Fields} {x : Form} (h : Issues (.movs f) x s g r) (hu : f.u = true) :
    Completes (.movs f) x s g r { after := r.next f, g := [(f.d.toNat, s.special g r true f.a.toNat 0)] } := by
  obtain rfl := h.form_eq rfl
  refine Completes.of_ok h (Nat.zero_le _) (exec_movs f s) (s' := (s.countIssue g (s.useful r f)).setG r f.d.toNat
    (s.special g r true f.a.toNat 0)) (if_pos hu) (.inl rfl) rfl (.none rfl) (.none rfl) (.one rfl)

/-- An instruction that writes V registers of the lanes listed, which may depend on the group's place. -/
theorem Completes.writesV {i : Instr} {x : Form} {r' : Group} {lvl : Nat} {k : State → Gid → Group → Res} {ls : List Nat}
    {ws : Nat → List (Nat × W32)} (h : Issues i x s g r) (he : exec i s = issue lvl x.f x.shape s k) (hl : lvl ≤ needsLevel i)
    (hk : ∀ b, k (s.countIssue g b) g r = .done ((s.countIssue g b).writeV r ls ws) r') (hd : ls.Nodup)
    (hn : ∀ l ∈ ls, l < 32) (hw : ∀ l ∈ ls, ((ws l).map Prod.fst).Nodup) :
    Completes i x s g r { after := r', ls := ls, v := ws } := by
  refine .of_ok h (hl.trans h.level) he (hk _) (.inl rfl) ?_
    (State.writeV_written s r hd hn hw (by rw [State.writeV_eq, State.writeV_eq]; rfl)) (.none ?_) (.none ?_)
  all_goals rw [State.writeV_eq]
  all_goals rfl

/-- What MOVS writes in lane `l`: D, and the register after it for the 64 bits of %hb (R110). -/
def State.movsWrites (s : State) (g : Gid) (r : Group) (f : Fields) (l : Nat) : List (Nat × W32) :=
  (f.d.toNat, (s.special g r false f.a.toNat l).setWidth 32) ::
    (if f.a = 8 then [(f.d.toNat + 1, (s.special g r false f.a.toNat l).extractLsb' 32 32)] else [])

theorem State.movsWrites_nodup (f : Fields) (l : Nat) : ((s.movsWrites g r f l).map Prod.fst).Nodup := by
  unfold State.movsWrites
  split <;> simp

theorem State.movsWrites_eq (f : Fields) : (fun l => if f.a.toNat = 8 then
    pieces f.d.toNat (halves (s.special g r false f.a.toNat l))
    else [(f.d.toNat, (s.special g r false f.a.toNat l).setWidth 32)]) = s.movsWrites g r f := by
  have selects : f.a = 8 ↔ f.a.toNat = 8 := BitVec.toNat_inj.symm
  funext l
  simp only [State.movsWrites, pieces_halves, selects]
  split <;> rfl

theorem exec_movs_lanes {f : Fields} {x : Form} (h : Issues (.movs f) x s g r) (hu : f.u = false) :
    Completes (.movs f) x s g r { after := r.next f, ls := s.activeLanes r f, v := s.movsWrites g r f } := by
  obtain rfl := h.form_eq rfl
  refine .writesV h (exec_movs f s) (Nat.zero_le _) (fun b => ?_) (State.activeLanes_nodup ..) (fun _ => State.activeLanes_lt)
    fun l _ => State.movsWrites_nodup f l
  rw [if_neg (by simp [hu]), ← State.movsWrites_eq]
  rfl

theorem Claims.formatsHelpersSpecials : Claims.FormatsHelpersSpecials := by
  intro f s r
  refine ⟨fun hf => .plain rfl (exec_setfmt f s) (Nat.zero_le _) fun _ _ => if_pos hf,
    fun hf hx => .plain rfl (exec_setfmt f s) (Nat.zero_le _) fun _ _ => by simp [hf, hx],
    fun hf hx => .of rfl (exec_setfmt f s) (Nat.zero_le _) fun _ _ => by simp [hf, hx],
    .writesP rfl (exec_leader f s) (Nat.zero_le _) (fun _ _ => rfl) (State.activeLanes_nodup ..) fun _ => State.activeLanes_lt,
    .plain rfl (exec_helperOn f s) (Nat.zero_le _) fun _ _ => rfl,
    .plain rfl (exec_helperOff f s) (Nat.zero_le _) fun _ _ => rfl,
    .writesP rfl (exec_helperRd f s) (Nat.zero_le _) (fun _ _ => rfl) (State.activeLanes_nodup ..) fun _ => State.activeLanes_lt,
    ?group, ?lanes⟩
  case group =>
    intro hu x g h
    have done := exec_movs_group h hu
    rw [State.special_eq_getD] at done
    exact done
  case lanes =>
    intro hu x g h
    convert exec_movs_lanes h hu using 3 with l
    rw [State.movsWrites, State.special_eq_getD, Group.homeGrp_eq_getD]
    rfl

end

/-! ### MOVSW (R9, R110, R131) -/

section

variable (s : State) (r : Group) (y : Nat → W32)

/-- The keys and values of the rows a write of %fpx goes to. -/
def fpxWrites (ls : List Nat) : List (Nat × W32) :=
  (ls.filter fun l => r.home l ≠ 0).map fun l => (r.home l * 32 + l, y l)

theorem State.foldl_setFpx_eq (ls : List Nat) :
    ls.foldl (fun t l => t.setFpx r l (y l)) s = { s with fpx := tsetMany 0 s.fpx (fpxWrites r y ls) } := by
  induction ls generalizing s with
  | nil => rfl
  | cons l ls ih =>
    rw [List.foldl_cons, ih]
    by_cases h : r.home l = 0 <;> simp [State.setFpx, fpxWrites, h]

variable {r y} {ls : List Nat}

theorem mem_fpxWrites {e : Nat × W32} :
    e ∈ fpxWrites r y ls ↔ ∃ l ∈ ls, r.home l ≠ 0 ∧ (r.home l * 32 + l, y l) = e := by
  simp [fpxWrites, and_assoc]

theorem fpxWrites_nodup (hd : ls.Nodup) (hl : ∀ l ∈ ls, l < 32) : ((fpxWrites r y ls).map Prod.fst).Nodup := by
  rw [fpxWrites, List.map_map]
  refine (hd.filter _).map_on fun a ha b hb hab => ?_
  have := hl a (List.mem_filter.mp ha).1
  have := hl b (List.mem_filter.mp hb).1
  simp only [Function.comp_apply] at hab
  omega

end

theorem Claims.movswWritesFpx : Claims.MovswWritesFpx := by
  intro f s r x g h
  obtain rfl := h.form_eq rfl
  have eq := State.foldl_setFpx_eq (s.countIssue g (s.useful r f)) r (fun l => s.a32 r f l &&& fpxMask) (s.activeLanes r f)
  refine ⟨_, (exec_movsw f s).trans (issue_ok h (Nat.zero_le _) (k := _) (congrArg (Res.done · (r.next f)) eq) (.inl rfl) rfl),
    rfl, fun l hl hh => ?_, fun k hk => ?_⟩
  · exact tget_tsetMany_mem _ (fpxWrites_nodup (State.activeLanes_nodup ..) fun _ => State.activeLanes_lt)
      (mem_fpxWrites.mpr ⟨l, hl, hh, rfl⟩)
  · refine tget_tsetMany_ne _ fun e he => ?_
    obtain ⟨l, hl, hh, rfl⟩ := mem_fpxWrites.mp he
    exact hk l hl hh

/-! ### The ends of YIELD and SLEEP (R109) -/

/-- A wait that ends without results: the group goes on past the instruction. -/
theorem State.waitDone_woken {s : State} {g : Gid} {r : Group} (h : WaitsAt s g r) :
    s.waitDone g r s r [] [] = s.putGroup g r.woken := by
  unfold State.waitDone
  rw [State.complete_unwatched h.unwatched _ _ _ _ _ _ _ _ (.inl rfl), State.keepHalt_same h.group, List.append_nil]
  rfl

theorem State.onWait_of_waitsAt {s : State} {g : Gid} {r : Group} (h : WaitsAt s g r) (k : Group → State) :
    s.onWait g k = .next (k r) := by
  simp [State.onWait, h.group, Group.waits, h.going, h.free]

theorem Claims.yieldAndSleep : Claims.YieldAndSleep := by
  refine ⟨fun f s r => ⟨.of rfl (exec_yield f s) (Nat.zero_le _) fun _ _ => rfl,
    .of rfl (exec_sleep f s) (Nat.zero_le _) fun _ _ => rfl⟩, fun s g r h => ⟨fun hw => ?_, fun hw => ?_⟩⟩
  · rw [exec_yieldEnd, execYieldEnd, State.onWait_of_waitsAt h, if_pos hw, State.waitDone_woken h]
  · rw [exec_sleepExpiry, execSleepExpiry, State.onWait_of_waitsAt h, if_pos hw, State.waitDone_woken h]

/-- Settles O4: register writes and group records by the equation of each instruction; the selectors of MOVS by
`State.special_eq_getD`, MOVSW's row by row, and the two waits by what ending one comes to. -/
theorem formatsPacingSpecials : Obligations.FormatsPacingSpecials :=
  ⟨Claims.formatsHelpersSpecials, Claims.movswWritesFpx, Claims.yieldAndSleep⟩

end Sys2Proof.Machine

/-! ## What every group instruction checks before its effect (R41, R49, R50, R182, R222, R292, R356) -/

namespace Sys2Proof.Machine

/-! ### The checks of `issue` -/

section

variable {s : State} {g : Gid} {r : Group} {lvl : Nat} {f : Fields} {sh : Shape} (k : State → Gid → Group → Res)
  (ha : s.actor = .grp g) (hg : s.group? g = some r)
include ha hg

/-- Below its privilege level an instruction is PRIVOP (R292). -/
theorem issue_privop (hl : s.levelOf g r < lvl) :
    issue lvl f sh s k = .next (s.crewFatal g r { code := Code.privop }) := by
  simp [issue, ha, hg, State.permits, hl]

variable (hl : lvl ≤ s.levelOf g r)
include hl

/-- Naming a V register outside the group's granules it is ILLREG (R50). -/
theorem issue_illreg (hx : 32 * r.gran < sh.extent f) :
    issue lvl f sh s k = .next (s.crewFatal g r { code := Code.illreg }) := by
  simp [issue, ha, hg, State.permits, hl, hx]

variable (hx : sh.extent f ≤ 32 * r.gran)
include hx

/-- A group-wide instruction whose guard is false moves the PC on (R41). -/
theorem issue_unguarded (hu : f.u = true) (hq : s.guard r f 0 = false) :
    issue lvl f sh s k = .next ((s.countIssue g false).putGroup g { r.next f with wskip := false }) := by
  simp [issue, ha, hg, State.permits, hl, hx.not_gt, hu, hq]

/-- One that must wait for a register, or for reads still owed, changes nothing (R182, R222, R356). -/
theorem issue_held (hq : f.u = true → s.guard r f 0 = true) (hw : s.writesHeld r (sh.writes f) = true ∨ r.owes f sh = true) :
    issue lvl f sh s k = .next s := by
  have pass : (f.u && !s.guard r f 0) = false := by
    cases hu : f.u
    · rfl
    · simp [hq hu]
  simp [issue, ha, hg, State.permits, hl, hx.not_gt, pass, hw]

end

/-! ### Every group instruction is issued -/

/-- The instructions on a barrier, whose phase may complete after them (R220). -/
def onBarrier : Instr → Bool
  | .barv _ | .barw _ | .bexp _ | .repack _ | .unpack _ | .sqrel _ => true
  | _ => false

/-- What an instruction issued at a level, with these fields and this shape, comes to. -/
def Issued (lvl : Nat) (f : Fields) (sh : Shape) (s : State) (o : Host.Outcome State Fault Refusal) : Prop :=
  ∃ k, o = issue lvl f sh s k

theorem Issued.of_eq {lvl : Nat} {f : Fields} {sh : Shape} {s : State} {o o' : Host.Outcome State Fault Refusal}
    (h : Issued lvl f sh s o) (he : o' = o) : Issued lvl f sh s o' := he ▸ h

section

variable {f : Fields} {sh : Shape} {s : State}

theorem issued_intOp {w signed res cc} : Issued 0 f sh s (intOp f sh s w signed res cc) := ⟨_, rfl⟩
theorem issued_logicOp {op} : Issued 0 f (shapeInt3 f false true) s (logicOp f s op) := issued_intOp
theorem issued_carryOp {sum cin out cc} : Issued 0 f (shapeCarry f) s (carryOp f s sum cin out cc) := ⟨_, rfl⟩
theorem issued_laneOp {res} : Issued 0 f sh s (laneOp f sh s res) := ⟨_, rfl⟩
theorem issued_floatOp {res} : Issued 0 f sh s (floatOp f sh s res) := ⟨_, rfl⟩

end

section

variable {i : Instr} {x : Form} (hi : i.form = some x) (hm : x.matrix = false) (s : State)
include hi hm

theorem issued_exec (hb : onBarrier i = false) : Issued (needsLevel i) x.f x.shape s (exec i s) := by
  cases i with
  | mov f => cases hi; exact issued_intOp.of_eq (exec_mov f s)
  | movi f => cases hi; exact issued_intOp.of_eq (exec_movi f s)
  | sel f => cases hi; exact issued_intOp.of_eq (exec_sel f s)
  | iadd f => cases hi; exact issued_intOp.of_eq (exec_iadd f s)
  | isub f => cases hi; exact issued_intOp.of_eq (exec_isub f s)
  | imul f => cases hi; exact issued_intOp.of_eq (exec_imul f s)
  | imulh f => cases hi; exact issued_intOp.of_eq (exec_imulh f s)
  | imad f => cases hi; exact issued_intOp.of_eq (exec_imad f s)
  | imadw f => cases hi; exact issued_intOp.of_eq (exec_imadw f s)
  | iabs f => cases hi; exact issued_intOp.of_eq (exec_iabs f s)
  | ineg f => cases hi; exact issued_intOp.of_eq (exec_ineg f s)
  | imin f => cases hi; exact issued_intOp.of_eq (exec_imin f s)
  | imax f => cases hi; exact issued_intOp.of_eq (exec_imax f s)
  | lea f => cases hi; exact issued_intOp.of_eq (exec_lea f s)
  | not f => cases hi; exact issued_intOp.of_eq (exec_not f s)
  | shl f => cases hi; exact issued_intOp.of_eq (exec_shl f s)
  | shr f => cases hi; exact issued_intOp.of_eq (exec_shr f s)
  | sha f => cases hi; exact issued_intOp.of_eq (exec_sha f s)
  | rot f => cases hi; exact issued_intOp.of_eq (exec_rot f s)
  | bfx f => cases hi; exact issued_intOp.of_eq (exec_bfx f s)
  | bfi f => cases hi; exact issued_intOp.of_eq (exec_bfi f s)
  | popc f => cases hi; exact issued_intOp.of_eq (exec_popc f s)
  | clz f => cases hi; exact issued_intOp.of_eq (exec_clz f s)
  | brev f => cases hi; exact issued_intOp.of_eq (exec_brev f s)
  | bysel f => cases hi; exact issued_intOp.of_eq (exec_bysel f s)
  | dot4 f => cases hi; exact issued_intOp.of_eq (exec_dot4 f s)
  | btab f => cases hi; rw [exec_btab, execBtab]; exact issued_intOp
  | and f => cases hi; exact issued_logicOp.of_eq (exec_and f s)
  | or f => cases hi; exact issued_logicOp.of_eq (exec_or f s)
  | xor f => cases hi; exact issued_logicOp.of_eq (exec_xor f s)
  | iaddc f => cases hi; exact issued_carryOp.of_eq (exec_iaddc f s)
  | isubb f => cases hi; exact issued_carryOp.of_eq (exec_isubb f s)
  | fadd f => cases hi; exact issued_floatOp.of_eq (exec_fadd f s)
  | fsub f => cases hi; exact issued_floatOp.of_eq (exec_fsub f s)
  | fmul f => cases hi; exact issued_floatOp.of_eq (exec_fmul f s)
  | ffma f => cases hi; exact issued_floatOp.of_eq (exec_ffma f s)
  | fmin f => cases hi; exact issued_floatOp.of_eq (exec_fmin f s)
  | fmax f => cases hi; exact issued_floatOp.of_eq (exec_fmax f s)
  | fdiv f => cases hi; exact issued_floatOp.of_eq (exec_fdiv f s)
  | fsqrt f => cases hi; exact issued_floatOp.of_eq (exec_fsqrt f s)
  | frcp f => cases hi; exact issued_floatOp.of_eq (exec_frcp f s)
  | frsq f => cases hi; exact issued_floatOp.of_eq (exec_frsq f s)
  | fexp2 f => cases hi; exact issued_floatOp.of_eq (exec_fexp2 f s)
  | flog2 f => cases hi; exact issued_floatOp.of_eq (exec_flog2 f s)
  | frnd f => cases hi; exact issued_floatOp.of_eq (exec_frnd f s)
  | fclass f => cases hi; exact issued_floatOp.of_eq (exec_fclass f s)
  | pfma f => cases hi; exact issued_floatOp.of_eq (exec_pfma f s)
  | f2f f => cases hi; exact issued_floatOp.of_eq (exec_f2f f s)
  | i2f f => cases hi; exact issued_floatOp.of_eq (exec_i2f f s)
  | qdiff f => cases hi; exact issued_floatOp.of_eq (exec_qdiff f s)
  | scang f => cases hi; exact issued_floatOp.of_eq (exec_scang f s)
  | lxch f => cases hi; exact issued_laneOp.of_eq (exec_lxch f s)
  | qswz f => cases hi; exact issued_laneOp.of_eq (exec_qswz f s)
  | qbcast f => cases hi; exact issued_laneOp.of_eq (exec_qbcast f s)
  | matchg f => cases hi; exact issued_laneOp.of_eq (exec_matchg f s)
  | barv f | barw f | bexp f | repack f | unpack f | sqrel f => cases hb
  | _ => cases hi <;> cases hm <;> unfold exec <;> exact ⟨_, rfl⟩

theorem exec_eq_thenBar (hb : onBarrier i = true) :
    ∃ core slot n k, exec i s = thenBar core slot n (issue (needsLevel i) x.f x.shape s k) := by
  cases i with
  | barv f | barw f | bexp f | repack f | unpack f | sqrel f => cases hi; unfold exec; exact ⟨_, _, _, _, rfl⟩
  | _ => cases hb

end

/-! ### Barriers of which none is complete (R220) -/

/-- No barrier stands complete with its phase unflipped. -/
def State.BarsIdle (s : State) : Prop :=
  ∀ core slot c, s.crew? core slot = some c → ∀ b ∈ c.bars, b.complete = false

section

variable {s t : State} (h : s.BarsIdle)
include h

theorem State.BarsIdle.of_crews (hc : t.crews = s.crews) : t.BarsIdle := by
  simpa only [State.BarsIdle, State.crew?, hc] using h

theorem State.BarsIdle.modCrew {core slot : Nat} {f : Crew → Crew} (hf : ∀ c, (f c).bars = c.bars) :
    (s.modCrew core slot f).BarsIdle := by
  intro core' slot' c hc
  rw [State.crew?, State.modCrew_crews, tfind_tmod] at hc
  split at hc
  · obtain ⟨c', hc', rfl⟩ := Option.map_eq_some_iff.mp hc
    rw [hf]
    exact h core' slot' c' hc'
  · exact h core' slot' c hc

omit h in
@[simp] theorem State.crews_cutWork (core slot uid : Nat) : (s.cutWork core slot uid).crews = s.crews := rfl

theorem State.BarsIdle.stopCrew {core slot : Nat} {but : Option Gid} {fr : FRec} : (s.stopCrew core slot but fr).BarsIdle := by
  unfold State.stopCrew
  split
  · exact h
  · split
    · exact h.modCrew fun _ => rfl
    · have heard : (s.broadcast core slot but 7).BarsIdle := (h.of_crews rfl).modCrew fun _ => rfl
      dsimp only
      refine State.BarsIdle.of_crews ?_ (State.crews_cutWork ..)
      exact heard.modCrew fun _ => rfl

theorem State.BarsIdle.crewFatal {g : Gid} {r : Group} {fr : FRec} : (s.crewFatal g r fr).BarsIdle := by
  unfold State.crewFatal
  dsimp only
  split
  · exact (h.of_crews rfl).modCrew fun _ => rfl
  · refine State.BarsIdle.stopCrew (h.of_crews ?_)
    rfl

/-- No phase is due. -/
theorem State.BarsIdle.barSettle (core slot n : Nat) : s.barSettle core slot n = s := by
  unfold State.barSettle
  split
  · rfl
  · next c hc =>
    have due : (c.bar n).complete = false := by
      rw [Crew.bar, List.getD_eq_getElem?_getD]
      cases hn : c.bars[n]? with
      | none => rfl
      | some b => exact h core slot c hc b (List.mem_of_getElem? hn)
    simp [due]

end

/-- What `issue` comes to at a check is what the instruction comes to, on a barrier too. -/
theorem exec_of_issue {i : Instr} {x : Form} {s t : State} (hi : i.form = some x) (hm : x.matrix = false) (ht : t.BarsIdle)
    (h : ∀ k, issue (needsLevel i) x.f x.shape s k = .next t) : exec i s = .next t := by
  cases hb : onBarrier i with
  | false =>
    obtain ⟨k, hk⟩ := issued_exec hi hm s hb
    rw [hk, h]
  | true =>
    obtain ⟨core, slot, n, k, hk⟩ := exec_eq_thenBar hi hm s hb
    rw [hk, h, thenBar, ht.barSettle]

/-- Settles O59: every group instruction is issued with its own level and shape, after which a barrier may complete, and
none does where the checks end the instruction. -/
theorem issueChecks : Obligations.IssueChecks := by
  intro i x s g r hi hm ha hg hb
  have idle : s.BarsIdle := hb
  refine ⟨fun hl => exec_of_issue hi hm idle.crewFatal fun k => issue_privop k ha hg hl, fun hl =>
    ⟨fun hx => ?_, fun hx => ⟨fun hu hq => ?_, fun hq hw => ?_⟩⟩⟩
  · exact exec_of_issue hi hm idle.crewFatal fun k => issue_illreg k ha hg hl hx
  · exact exec_of_issue hi hm (idle.of_crews rfl) fun k => issue_unguarded k ha hg hl hx hu hq
  · exact exec_of_issue hi hm idle fun k => issue_held k ha hg hl hx hq hw

end Sys2Proof.Machine

/-! ## Crew-fatal stops (R50, R292, R322, R324, R346) -/

namespace Sys2Proof.Machine

/-! ### The two faults before any effect -/

section

variable {i : Instr} {s : State} {g : Gid} {r : Group} (hm : i.matrix? = some false) (hb : onBarrier i = false)
  (ha : s.actor = .grp g) (hg : s.group? g = some r)
include hm hb ha hg

theorem exec_illreg (hl : needsLevel i = 0) {x : Form} (hi : i.form = some x) (hx : 32 * r.gran < x.shape.extent x.f) :
    exec i s = .next (s.crewFatal g r { code := Code.illreg }) := by
  have group : x.matrix = false := by simpa [Instr.matrix?, hi] using hm
  obtain ⟨k, hk⟩ := issued_exec hi group s hb
  rw [hk, issue_illreg k ha hg (hl ▸ Nat.zero_le _) hx]

theorem exec_privop (hl : s.levelOf g r < needsLevel i) : exec i s = .next (s.crewFatal g r { code := Code.privop }) := by
  obtain ⟨x, hi, group⟩ := Option.map_eq_some_iff.mp hm
  obtain ⟨k, hk⟩ := issued_exec hi group s hb
  rw [hk, issue_privop k ha hg hl]

end

/-! ### Who hears a broadcast (R324, R347) -/

theorem tfind_map_values {α : Type} {f : Nat × α → Nat × α} (hf : ∀ e, (f e).1 = e.1) (t : Tab α) (k : Nat) :
    tfind (t.map f) k = (tfind t k).map fun v => (f (k, v)).2 := by
  induction t with
  | nil => rfl
  | cons e t ih =>
    rw [List.map_cons]
    by_cases h : e.1 = k
    · subst h
      simp [tfind, hf]
    · simp [tfind, hf, h, ih]

theorem gidKey_inj {g h : Gid} (hg : g.slot < 32) (hh : h.slot < 32) : gidKey g = gidKey h ↔ g = h :=
  ⟨fun e => by rw [← keyGid_gidKey hg, e, keyGid_gidKey hh], congrArg gidKey⟩

/-- A broadcast reaches the crew's groups but one; whoever is stepped by a group that stops is stepped no further. -/
theorem State.group?_broadcast {s : State} {h : Gid} {x : Group} (hh : h.slot < 32) (hx : s.group? h = some x)
    (core slot : Nat) (but : Option Gid) (cause : Nat) :
    ∃ st, (st = none ∨ st = x.stepper) ∧ (s.broadcast core slot but cause).group? h =
      some (if h.core = core ∧ x.crew = slot ∧ some h ≠ but then ({ x with stepper := st } : Group).broadcast cause
        else { x with stepper := st }) := by
  obtain ⟨told, is⟩ : ∃ told : Group → Group, ∀ y, told y =
    if h.core = core ∧ x.crew = slot ∧ some h ≠ but then y.broadcast cause else y := ⟨_, fun _ => rfl⟩
  have hears (y : Group) : (if (h.core = core && x.crew = slot && some h != but) = true then
      (gidKey h, y.broadcast cause) else (gidKey h, y)).2 = told y := by
    rw [is]
    by_cases hears : h.core = core ∧ x.crew = slot ∧ some h ≠ but
    · rw [if_pos hears, if_pos (by simpa [and_assoc] using hears)]
    · rw [if_neg hears, if_neg (by simpa [and_assoc] using hears)]
  unfold State.group? at hx
  unfold State.broadcast State.group?
  dsimp only [State.modCrew_groups]
  rw [tfind_map_values (fun e => by split <;> rfl), hx]
  simp only [Option.map_some, keyGid_gidKey hh, hears, ← is]
  split
  · split
    · exact ⟨none, .inl rfl, rfl⟩
    · exact ⟨_, .inr rfl, rfl⟩
  · exact ⟨_, .inr rfl, rfl⟩

/-- What a crew-fatal halt does to a group that was not halted: one that waits, or is parked, stops at once unless it is
between two lanes' steps; any other has heard the halt (R324, R346). -/
theorem Group.broadcast_fatal {x : Group} (hx : x.halt.cause = 0) :
    (x.broadcast 7).pc = x.pc ∧
    if x.wait.midway = false ∧ (x.wait ≠ .none ∨ x.traps ≠ []) then
      (x.broadcast 7).halt.cause = 7 ∧ (x.broadcast 7).skid = 0
    else (x.broadcast 7).halt.cause = 0 ∧ ∃ n, (x.broadcast 7).bcast = some (n, 7) := by
  have runs : x.stopped = false := by simp [Group.stopped, hx]
  simp only [Group.broadcast, runs]
  by_cases h : x.wait.midway = false ∧ (x.wait ≠ .none ∨ x.traps ≠ [])
  · simp [h]
  · have goesOn : (!x.wait.midway && (x.wait != .none || !x.traps.isEmpty)) = false := by
      simpa using h
    simp only [goesOn, if_neg h]
    cases hb : x.bcast with
    | none => simp [hx]
    | some b =>
      obtain ⟨n, c⟩ := b
      by_cases hc : c = 7 <;> simp [hc, hx, hb]


theorem State.crew?_modCrew_self (s : State) (core slot : Nat) (f : Crew → Crew) :
    (s.modCrew core slot f).crew? core slot = (s.crew? core slot).map f := by
  rw [crew?, modCrew_crews, tfind_tmod, if_pos rfl, crew?]

theorem State.crew?_cutWork (s : State) (core slot uid a b : Nat) : (s.cutWork core slot uid).crew? a b = s.crew? a b := rfl

/-- A broadcast halts the crew's sequencer and the threads that wait to be regrouped; what the crew holds stays. -/
theorem State.crew?_broadcast (s : State) (core slot : Nat) (but : Option Gid) (cause : Nat) :
    ∃ told : Crew → Crew, (∀ c, (told c).hold = c.hold ∧ (told c).bars = c.bars) ∧
      (s.broadcast core slot but cause).crew? core slot = (s.crew? core slot).map told := by
  refine ⟨_, ?_, crew?_modCrew_self _ core slot _⟩
  exact fun _ => ⟨rfl, rfl⟩

/-- The first fault of a crew: the halt is broadcast, and the crew holds the fault's record. -/
theorem State.stopCrew_first {s : State} {core slot : Nat} {c : Crew} (hc : s.crew? core slot = some c)
    (first : c.stop = none) (but : Option Gid) (fr : FRec) :
    ∃ st : Crew → Stop, (∀ c', (st c').frec = { fr with asid := c.asid }) ∧ s.stopCrew core slot but fr =
      ((s.broadcast core slot but 7).modCrew core slot fun c => { c with stop := some (st c) }).cutWork core slot c.uid := by
  unfold State.stopCrew
  rw [hc]
  dsimp only
  rw [first]
  exact ⟨_, fun _ => rfl, rfl⟩

theorem State.group?_stopCrew_first {s : State} {core slot : Nat} {c : Crew} (hc : s.crew? core slot = some c)
    (first : c.stop = none) (but : Option Gid) (fr : FRec) (h : Gid) :
    (s.stopCrew core slot but fr).group? h = (s.broadcast core slot but 7).group? h := by
  obtain ⟨st, -, eq⟩ := stopCrew_first hc first but fr
  rw [eq]
  rfl

theorem State.crew?_stopCrew_first {s : State} {core slot : Nat} {c : Crew} (hc : s.crew? core slot = some c)
    (first : c.stop = none) (but : Option Gid) (fr : FRec) :
    ∃ c' st, (s.stopCrew core slot but fr).crew? core slot = some c' ∧ c'.stop = some st ∧
      st.frec = { fr with asid := c.asid } ∧ c'.hold = c.hold ∧ c'.bars = c.bars := by
  obtain ⟨st, recorded, eq⟩ := stopCrew_first hc first but fr
  obtain ⟨told, keeps, heard⟩ := State.crew?_broadcast s core slot but 7
  refine ⟨{ told c with stop := some (st (told c)) }, st (told c), ?_, rfl, recorded _, keeps c⟩
  rw [eq, crew?_cutWork, crew?_modCrew_self, heard, hc]
  rfl

/-- What a stop changes, it changes in the groups' and the crew's own records, and in the work that is given up. -/
theorem State.regs_stopCrew (s : State) (core slot : Nat) (but : Option Gid) (fr : FRec) :
    let t := s.stopCrew core slot but fr
    t.vreg = s.vreg ∧ t.preg = s.preg ∧ t.greg = s.greg ∧ t.mem = s.mem ∧ t.scratch = s.scratch := by
  unfold stopCrew
  split
  · exact ⟨rfl, rfl, rfl, rfl, rfl⟩
  · dsimp only
    split <;> exact ⟨rfl, rfl, rfl, rfl, rfl⟩

/-- The fault that ends the run of a group that is no fatal handler: it stops at its instruction, and its crew with it;
in a lane-level handler the code is HFAULT. -/
theorem State.crewFatal_stops (s : State) (g : Gid) {r : Group} (hr : r.inHandler = false ∨ ∃ d, r.kind = .handler d)
    (fr : FRec) : ∃ fr', fr'.pc = r.pc ∧ fr'.code = (if r.inHandler then Code.hfault else fr.code) ∧
      s.crewFatal g r fr =
        (s.putGroup g { r with halt := { cause := 7 }, skid := r.skidNow, bcast := none, stepper := none }).stopCrew
          g.core r.crew (some g) fr' := by
  unfold crewFatal Group.inHandler
  cases hk : r.kind with
  | fatal d => simp [Group.inHandler, hk] at hr
  | _ =>
    refine ⟨_, ?_, ?_, rfl⟩ <;> rfl

theorem State.group?_putGroup_ne (s : State) {g h : Gid} (hg : g.slot < 32) (hh : h.slot < 32) (ne : h ≠ g) (r : Group) :
    (s.putGroup g r).group? h = s.group? h :=
  tfind_tput_ne _ _ fun e => ne ((gidKey_inj hh hg).mp e)

theorem State.group?_putGroup_self (s : State) (g : Gid) (r : Group) : (s.putGroup g r).group? g = some r :=
  tfind_tput_self ..

/-- Settles O39: each instruction named is issued through the checks, which give the two faults; the stop of a crew with no
fault yet is its broadcast, of which `State.group?_broadcast` says what each group hears. -/
theorem crewFatalStop : Obligations.CrewFatalStop := by
  unfold Obligations.CrewFatalStop
  constructor
  · intro f s g r ha hg priv illreg privop
    have faults {i : Instr} (hm : i.matrix? = some false) (hb : onBarrier i = false) (hl : needsLevel i = 0) : illreg i :=
      fun _ => exec_illreg hm hb ha hg hl
    have denied {i : Instr} {n : Nat} (hm : i.matrix? = some false) (hb : onBarrier i = false) (hl : needsLevel i = n) :
        privop n i := fun below => exec_privop hm hb ha hg (hl ▸ below)
    exact ⟨faults rfl rfl rfl, faults rfl rfl rfl, faults rfl rfl rfl, faults rfl rfl rfl, faults rfl rfl rfl,
      faults rfl rfl rfl, faults rfl rfl rfl, faults rfl rfl rfl, faults rfl rfl rfl, faults rfl rfl rfl,
      denied rfl rfl rfl, denied rfl rfl rfl, denied rfl rfl rfl, denied rfl rfl rfl, denied rfl rfl rfl,
      denied rfl rfl rfl, denied rfl rfl rfl, denied rfl rfl rfl, denied rfl rfl rfl⟩
  · intro s g r c fr hg hc first hslot hr t
    obtain ⟨fr', pc, code, eq⟩ := s.crewFatal_stops g hr fr
    replace eq : t = _ := eq
    rw [eq]
    set me : Group := { r with halt := { cause := 7 }, skid := r.skidNow, bcast := none, stepper := none }
    replace hc : (s.putGroup g me).crew? g.core r.crew = some c := hc
    refine ⟨?_, ?_, ?_, State.regs_stopCrew _ _ _ _ _⟩
    · obtain ⟨st, -, stops⟩ := State.group?_broadcast hslot (s.group?_putGroup_self g me) g.core r.crew (some g) 7
      rw [if_neg (by simp)] at stops
      exact ⟨_, (State.group?_stopCrew_first hc first _ _ g).trans stops, rfl, rfl, rfl, rfl⟩
    · obtain ⟨c', st, there, stopped, frec, kept⟩ := State.crew?_stopCrew_first hc first (some g) fr'
      exact ⟨c', st, there, stopped, by rw [frec]; exact pc, by rw [frec], by rw [frec]; exact code, kept⟩
    · intro h rh ne core slot hrh crew running
      obtain ⟨st, -, hears⟩ := State.group?_broadcast slot ((s.group?_putGroup_ne hslot slot ne me).trans hrh)
        g.core r.crew (some g) 7
      rw [if_pos ⟨core, crew, by simpa using ne⟩] at hears
      exact ⟨_, (State.group?_stopCrew_first hc first _ _ h).trans hears,
        Group.broadcast_fatal (x := { rh with stepper := st }) running⟩

end Sys2Proof.Machine

/-! ## What a step runs (R37, R49, R174, R212, R216, R349) -/

namespace Sys2Proof.Machine

/-! ### Moves (R212) -/

theorem afterwards_afterwards (o : Host.Outcome State Fault Refusal) (k l : State → State) :
    afterwards (afterwards o k) l = afterwards o fun t => l (k t) := by
  cases o <;> rfl

theorem step_eq_make {s : State} {m : Move} {rest : List Move} (h : s.agenda = m :: rest) :
    step s = ({ s with agenda := rest } : State).make m := by
  simp [step, State.nextMove, h]

theorem step_of_agenda_nil {s : State} (h : s.agenda = []) :
    (∀ m, Config.schedule s.freeCtr = some m → step s = step { s with agenda := [m], freeCtr := s.freeCtr + 1 }) ∧
    (Config.schedule s.freeCtr = none → step s = .next { s with freeCtr := s.freeCtr + 1 }) := by
  constructor
  · intro m hm
    rw [step_eq_make (rest := []) (s := { s with agenda := [m], freeCtr := s.freeCtr + 1 }) rfl]
    simp [step, State.nextMove, h, hm]
  · intro hm
    simp [step, State.nextMove, h, hm]

theorem State.make_issue {s s1 : State} {g : Gid} {rf : Bool} {r : Group} {i : Instr} (hp : s.dev.power = true)
    (hh : s.dev.hold = false) (hg : s.group? g = some r)
    (ht : ({ s with refetch := rf } : State).groupTurn g = .run s1 i) :
    s.make (.issue g rf) = afterwards (exec i s1) fun t =>
      s.endedFirst (({ s with refetch := rf } : State).finish s1 t g r (({ s with refetch := rf } : State).stepLanes r i)) := by
  have allowed : s.allows (.issue g rf) = true := by simp [State.allows, hp, hh]
  unfold State.make State.move
  rw [if_neg (by simp [allowed])]
  dsimp only
  rw [ht]
  dsimp only
  rw [show State.group? { s with refetch := rf } g = some r from hg, afterwards_afterwards]

theorem State.make_seq {s s1 : State} {core slot : Nat} {rf : Bool} {i : Instr} (hp : s.dev.power = true)
    (hh : s.dev.hold = false) (ht : ({ s with refetch := rf } : State).seqTurn core slot = .run s1 i) :
    s.make (.seq core slot rf) = afterwards (exec i s1) s.endedFirst := by
  have allowed : s.allows (.seq core slot rf) = true := by simp [State.allows, hp, hh]
  unfold State.make State.move
  rw [if_neg (by simp [allowed])]
  dsimp only
  rw [ht]

theorem State.make_event {s : State} {i : Instr} {rf : Bool} (ha : s.allows (.event i rf) = true) (hi : i.form = none) :
    s.make (.event i rf) = afterwards (exec i { s with actor := .device, refetch := rf }) s.endedFirst := by
  unfold State.make State.move
  rw [if_neg (by simp [ha])]
  dsimp only
  rw [if_neg (by simp [hi])]

/-! ### Turns (R37, R49, R174, R216) -/

theorem decodeAt_ok {matrix : Bool} {bs more : List Byte} {off : Nat} {i : Instr} (hb : bs.length = 32)
    (hd : decode matrix (bs.drop off) = .ok (i, more)) : decodeAt matrix bs off = .ok i := by
  obtain ⟨bytes, len, split, hlen, hl, -⟩ := decode_ok hd
  have inside : off + len.bytes ≤ 32 := by
    have := congrArg List.length split
    have := len.bytes_pos
    simp only [List.length_drop, List.length_append] at *
    omega
  obtain ⟨b, t, rfl⟩ := List.exists_cons_of_length_pos (hlen ▸ len.bytes_pos)
  have head : ((bs.drop off).headD 0).toNat = b.toNat := by rw [split]; rfl
  rw [lenOf_natOfBytes] at hl
  unfold decodeAt
  dsimp only
  rw [head, hl, hd]
  exact if_neg (Nat.not_lt.mpr inside)

theorem State.fetch_eq_ok {s s1 : State} {core asid : Nat} {matrix : Bool} {pc : BitVec 48} {bs more : List Byte}
    {i : Instr} (aligned : pc.toNat % 4 = 0) (inBlock : pc.toNat % 32 ≠ 28)
    (hf : s.fetchBlock core asid (pc.toNat - pc.toNat % 32) = .ok (s1, bs)) (hb : bs.length = 32)
    (hd : decode matrix (bs.drop (pc.toNat % 32)) = .ok (i, more)) : s.fetch core asid matrix pc false = .ok s1 i := by
  simp [State.fetch, aligned, inBlock, hf, decodeAt_ok hb hd]

/-- Who may issue an instruction: a group that runs or is stepped, in no wait, with at most three issued under a broadcast. -/
theorem State.mayIssue_fetching {s : State} {g : Gid} {r : Group} (live : r.live ≠ 0) (hw : r.wait = .none)
    (untrapped : r.traps = []) (kept : (s.crewOf g r).saving = false)
    (goes : r.halt.cause = 0 ∨ r.stepper.isSome = true ∧ r.halt.cause ≠ 7)
    (skid : ∀ n k, r.bcast = some (n, k) → n < 4) : s.mayIssue g r = true := by
  cases hb : r.bcast with
  | none => simpa [State.mayIssue, hw, Wait.polled, untrapped, kept, hb] using ⟨live, goes⟩
  | some b => simpa [State.mayIssue, hw, Wait.polled, untrapped, kept, hb, skid b.1 b.2 hb] using ⟨live, goes⟩

theorem State.groupTurn_fetch {s s1 : State} {g : Gid} {r : Group} {i : Instr} (hg : s.group? g = some r)
    (hm : s.mayIssue g r = true) (hfw : r.firmware = false) (hw : r.wait = .none)
    (hf : s.fetch g.core (s.crewOf g r).asid false r.pc r.pcBad = .ok s1 i)
    (hl : r.linkBad = true → s.fetchLinked g.core (s.crewOf g r).asid r.pc = false) :
    s.groupTurn g = .run (s1.groupRun g r i) i := by
  have linked : ¬ ((r.linkBad && s.fetchLinked g.core (s.crewOf g r).asid r.pc) = true) := by simpa using hl
  simp only [State.groupTurn, hg, hm, hfw, hw, hf, if_neg linked]
  rfl

theorem State.groupTurn_wait {s : State} {g : Gid} {r : Group} {x : Form} (hg : s.group? g = some r)
    (hm : s.mayIssue g r = true) (hfw : r.firmware = false) (hw : r.wait ≠ .none) (hx : r.cur.form = some x)
    (group : x.matrix = false) : s.groupTurn g = .run (s.groupRun g r r.cur) r.cur := by
  simp [State.groupTurn, hg, hm, hfw, hw, hx, group]

theorem State.seqTurn_fetch {s s1 : State} {core slot : Nat} {c : Crew} {i : Instr} (hc : s.crew? core slot = some c)
    (there : c.seqr.exists_ = true) (runs : c.seqr.running = true) (free : c.seqr.halted = false)
    (placed : c.tentative = false) (kept : c.saving = false)
    (hf : s.fetch core c.asid true c.seqr.mpc false = .ok s1 i) :
    s.seqTurn core slot = .run { s1 with actor := .seq core slot } i := by
  simp [State.seqTurn, hc, there, runs, free, placed, kept, hf]

theorem State.finish_plain {s s1 t : State} {g : Gid} {r : Group} {act : W32} (hs : r.stepper = none)
    (hb : r.bcast = none) : s.finish s1 t g r act = t := by
  simp [State.finish, hs, hb]

theorem State.groupRun_plain {s : State} {g : Gid} {r : Group} {i : Instr} (hs : r.stepper = none) :
    s.groupRun g r i = ({ s with actor := .grp g } : State).putGroup g { r with cur := i, capf := none } := by
  simp [State.groupRun, Group.begin_, hs]

theorem mem_of_tfind {α : Type} {t : Tab α} {k : Nat} {v : α} (h : tfind t k = some v) : (k, v) ∈ t := by
  induction t with
  | nil => cases h
  | cons e t ih =>
    obtain ⟨k', w⟩ := e
    by_cases hk : k' = k
    · subst hk
      obtain rfl : w = v := by simpa [tfind] using h
      exact List.mem_cons_self
    · exact List.mem_cons_of_mem _ (ih (by simpa [tfind, hk] using h))

/-! ### Halts past a wait that had ended (R349) -/

theorem State.endedFirst_of_running {s u : State} (h : ∀ e ∈ u.groups, e.2.halt.cause = 0) : s.endedFirst u = u := by
  refine if_neg ?_
  simp only [List.any_eq_true, not_exists, not_and]
  intro e he
  simp [State.haltedEarly, h e he]

theorem State.group?_endedFirst {s u : State} {g : Gid} {x : Group} (hx : u.group? g = some x)
    (early : s.haltedEarly (gidKey g) x = true) :
    (s.endedFirst u).group? g = some { x with halt := {}, bcast := some (0, x.halt.cause), before := 0 } := by
  have some_early : (u.groups.any fun e => s.haltedEarly e.1 e.2) = true :=
    List.any_eq_true.mpr ⟨(gidKey g, x), mem_of_tfind hx, early⟩
  unfold State.group? at hx ⊢
  rw [State.endedFirst, if_pos some_early]
  dsimp only
  rw [tfind_map_values (fun e => by split <;> rfl), hx]
  simp [early]

/-! ### A block of code (R37) -/

theorem State.lookedUp_of_no_error {s : State} (h : s.softErr = []) (count : Bool) (core asid va : Nat) :
    s.lookedUp count core asid va =
      { s with cores := (s.lookedUp count core asid va).cores, dies := (s.lookedUp count core asid va).dies } := by
  have correct (pa n : Nat) : s.correct pa n = s := by simp [State.correct, h]
  have walkReads : s.walkReads asid va = s := by simp [State.walkReads, h]
  unfold State.lookedUp
  split
  · rfl
  · split
    · rfl
    · simp only [walkReads, correct, ite_self]
      rfl

theorem State.fetchBlock_read {s : State} {core asid b pa : Nat} {n : W64}
    (miss : s.refetch = true ∨ tfind (s.core core).icache (asid * 2 ^ 48 + b) = none)
    (ht : s.translate core asid b Acc.fetch false true = .ok pa n) (h : s.softErr = []) :
    ∃ s1, s.fetchBlock core asid b = .ok (s1, s.bytes pa 32) ∧ s1 = { s with cores := s1.cores, dies := s1.dies } := by
  have missed : (if s.refetch then none else tfind (s.core core).icache (asid * 2 ^ 48 + b)) = none := by
    rcases miss with skipped | absent
    · rw [if_pos skipped]
    · rw [absent, ite_self]
  have sound : s.uncorrectable pa 32 = false := by simp [State.uncorrectable, h]
  have correct : s.correct pa 32 = s := by simp [State.correct, h]
  unfold State.fetchBlock
  simp only [ht, missed, sound, correct]
  refine ⟨_, rfl, ?_⟩
  rw [s.lookedUp_of_no_error h]
  rfl

theorem State.fetchBlock_cached {s : State} {core asid b : Nat} {bs : List Byte} (h : s.refetch = false)
    (hit : tfind (s.core core).icache (asid * 2 ^ 48 + b) = some bs) :
    (∀ pa n, s.translate core asid b Acc.fetch false true = .ok pa n → s.fetchBlock core asid b = .ok (s, bs)) ∧
    ∀ fr, s.translate core asid b Acc.fetch false true = .fault fr →
      s.fetchBlock core asid b = .error { fr with code := Code.addrv } := by
  constructor
  · intro pa n ht
    simp only [State.fetchBlock, ht, h, hit]
    rfl
  · intro fr ht
    simp [State.fetchBlock, ht]

/-- Settles O58: a move is a turn; a turn's fetch reads the block and decodes what stands at the PC; the instruction runs, and
what surrounds it is added by `State.finish` and `State.endedFirst`. -/
theorem stepRunsDecoded : Obligations.StepRunsDecoded := by
  unfold Obligations.StepRunsDecoded
  refine ⟨?group, ?sequencer, ?event, fun s u => ⟨State.endedFirst_of_running, ?halt⟩, ?read, ?cached,
    fun _ => step_of_agenda_nil⟩
  case group =>
    intro s g rf rest r s0 c off ended ha hp hh hg live untrapped kept own
    have runs {s1 : State} {i : Instr} (ht : s0.groupTurn g = .run s1 i) :
        step s = afterwards (exec i s1) fun t => ended (s0.finish s1 t g r (s0.stepLanes r i)) :=
      (step_eq_make ha).trans (State.make_issue hp hh hg ht)
    constructor
    · intro s1 bs i more hw inReach linked aligned inBlock hf hb hd
      have turn (hm : s0.mayIssue g r = true) : s0.groupTurn g = .run (s1.groupRun g r i) i :=
        State.groupTurn_fetch hg hm own hw (inReach ▸ State.fetch_eq_ok aligned inBlock hf hb hd) linked
      have may := State.mayIssue_fetching (s := s0) (g := g) live hw untrapped kept
      refine ⟨fun hc hs hbc => ?_, fun hc skid => runs (turn (may hc skid))⟩
      rw [runs (turn (may (.inl hc) (by simp [hbc])))]
      simp only [State.finish_plain hs hbc, State.groupRun_plain hs]
    · intro x hx group polled hc hs hbc
      have waits : r.wait ≠ .none := by
        intro hw
        simp [hw, Wait.polled] at polled
      have may : s0.mayIssue g r = true := by simpa [State.mayIssue, polled, hc, hbc] using live
      rw [runs (State.groupTurn_wait hg may own waits hx group)]
      simp only [State.finish_plain hs hbc, State.groupRun_plain hs]
  case sequencer =>
    intro s s1 core slot rf rest c bs i more off ha hp hh hc there running free placed kept aligned inBlock hf hb hd
    exact (step_eq_make ha).trans (State.make_seq hp hh
      (State.seqTurn_fetch hc there running free placed kept (State.fetch_eq_ok aligned inBlock hf hb hd)))
  case event =>
    intro s i rf rest ha allowed hi
    exact (step_eq_make ha).trans (State.make_event allowed hi)
  case halt =>
    intro g r x hslot hr hx running unheard wait ends halted waiting
    refine State.group?_endedFirst hx ?_
    simp [State.haltedEarly, halted, waiting, keyGid_gidKey hslot, hr, running, unheard, wait, ends]
  case read => exact fun s core asid b pa n => State.fetchBlock_read
  case cached => exact fun s core asid b bs => State.fetchBlock_cached

end Sys2Proof.Machine

/-! ## A grant on the fast path (R75, R76) -/

namespace Sys2Proof.Machine

/-! ### Vectors over the claim classes (R26, R75) -/

theorem Claim.le_iff {x y : Claim} : x.le y = true ↔ x.rg ≤ y.rg ∧ x.sg ≤ y.sg ∧ x.ch ≤ y.ch ∧ x.ms ≤ y.ms := by
  simp [Claim.le, and_assoc]

theorem Claim.le_trans {x y z : Claim} (hxy : x.le y = true) (hyz : y.le z = true) : x.le z = true := by
  rw [Claim.le_iff] at *
  omega

theorem Claim.le_add_right (x y : Claim) : x.le (x.add y) = true := by
  simp [Claim.le_iff, Claim.add]

theorem Claim.add_assoc (x y z : Claim) : (x.add y).add z = x.add (y.add z) := by
  simp [Claim.add, Nat.add_assoc]

theorem Claim.add_left_comm (x y z : Claim) : x.add (y.add z) = y.add (x.add z) := by
  simp [Claim.add, Nat.add_left_comm]

theorem Claim.sub_sub (x y z : Claim) : (x.sub y).sub z = x.sub (y.add z) := by
  simp [Claim.sub, Claim.add, Nat.sub_sub]

theorem foldl_claim_add {α : Type} (hold : α → Claim) (l : List α) (x : Claim) :
    l.foldl (fun a e => a.add (hold e)) x = x.add (l.foldl (fun a e => a.add (hold e)) {}) := by
  induction l generalizing x with
  | nil => simp [Claim.add]
  | cons e l ih =>
    rw [List.foldl_cons, List.foldl_cons, ih, ih (({} : Claim).add _)]
    simp [Claim.add, Nat.add_assoc]

@[simp] theorem holdSum_cons (e : Nat × Crew) (cs : List (Nat × Crew)) : holdSum (e :: cs) = e.2.hold.add (holdSum cs) := by
  unfold holdSum
  rw [List.foldl_cons, foldl_claim_add]
  simp [Claim.add]

/-! ### The full test as the absence of a deadlocked set (R76) -/

/-- Of every set of slots with a crew in it some crew can be served once all crews outside the set are done: no set of
crews is deadlocked. -/
def Unlocked (work : Claim) (cs : List (Nat × Crew)) : Prop :=
  ∀ p : Nat → Bool, (∃ e ∈ cs, p e.1 = true) →
    ∃ e ∈ cs, p e.1 = true ∧ e.2.need.le (work.add (holdSum (cs.filter fun e => !p e.1))) = true

/-- A crew outside the set is done first or last, with the same sum. -/
theorem holdSum_filter_ne {cs : List (Nat × Crew)} (nodup : (cs.map (·.1)).Nodup) {x : Nat × Crew} (hx : x ∈ cs)
    {p : Nat → Bool} (out : p x.1 = false) :
    holdSum (cs.filter fun e => !p e.1) = x.2.hold.add (holdSum ((cs.filter fun e => e.1 != x.1).filter fun e => !p e.1)) := by
  induction cs with
  | nil => cases hx
  | cons e cs ih =>
    obtain ⟨fresh, nodup⟩ := List.nodup_cons.mp nodup
    rcases List.mem_cons.mp hx with rfl | hx
    · have others : cs.filter (fun e => e.1 != x.1) = cs :=
        List.filter_eq_self.mpr fun e he => bne_iff_ne.mpr fun h => fresh (List.mem_map.mpr ⟨e, he, h⟩)
      simp [out, others]
    · have ne : e.1 ≠ x.1 := fun h => fresh (List.mem_map.mpr ⟨x, hx, h.symm⟩)
      cases hp : p e.1 <;> simp [hp, ne, ih nodup hx, Claim.add_left_comm]

theorem unlocked_of_served {work : Claim} {cs : List (Nat × Crew)} (nodup : (cs.map (·.1)).Nodup) {x : Nat × Crew}
    (hx : x ∈ cs) (fits : x.2.need.le work = true)
    (rest : Unlocked (work.add x.2.hold) (cs.filter fun e => e.1 != x.1)) : Unlocked work cs := by
  intro p ⟨e, he, hp⟩
  cases hpx : p x.1
  · have ne : e.1 ≠ x.1 := fun h => by simp [h, hpx] at hp
    obtain ⟨y, hy, py, fy⟩ := rest p ⟨e, List.mem_filter.mpr ⟨he, bne_iff_ne.mpr ne⟩, hp⟩
    exact ⟨y, (List.mem_filter.mp hy).1, py, by rwa [holdSum_filter_ne nodup hx hpx, ← Claim.add_assoc]⟩
  · exact ⟨x, hx, hpx, Claim.le_trans fits (Claim.le_add_right ..)⟩

theorem unlocked_after_served {work : Claim} {cs : List (Nat × Crew)} (nodup : (cs.map (·.1)).Nodup) {x : Nat × Crew}
    (hx : x ∈ cs) (h : Unlocked work cs) : Unlocked (work.add x.2.hold) (cs.filter fun e => e.1 != x.1) := by
  intro p ⟨e, he, hp⟩
  obtain ⟨he, ne⟩ := List.mem_filter.mp he
  -- the same set without the crew that is done
  let q : Nat → Bool := fun k => p k && k != x.1
  have qx : q x.1 = false := by simp [q]
  obtain ⟨y, hy, qy, fy⟩ := h q ⟨e, he, by simp only [q, hp, ne, Bool.and_self]⟩
  obtain ⟨py, ney⟩ := (Bool.and_eq_true ..).mp qy
  refine ⟨y, List.mem_filter.mpr ⟨hy, ney⟩, py, ?_⟩
  rw [holdSum_filter_ne nodup hx qx, ← Claim.add_assoc] at fy
  convert fy using 4
  refine List.filter_congr fun a ha => ?_
  simp [q, (List.mem_filter.mp ha).2]

/-- R76's rounds find every crew done exactly when no set of crews is deadlocked. -/
theorem safeRounds_iff {n : Nat} {work : Claim} {cs : List (Nat × Crew)} (nodup : (cs.map (·.1)).Nodup) (len : cs.length ≤ n) :
    safeRounds n work cs = true ↔ Unlocked work cs := by
  induction n generalizing work cs with
  | zero =>
    obtain rfl := List.length_eq_zero_iff.mp (Nat.le_zero.mp len)
    simp [safeRounds, Unlocked]
  | succ n ih =>
    unfold safeRounds
    split
    next none_fits =>
      cases cs with
      | nil => simp [Unlocked]
      | cons e cs =>
        suffices ¬ Unlocked work (e :: cs) by simpa using this
        intro h
        obtain ⟨y, hy, _, fy⟩ := h (fun _ => true) ⟨e, by simp⟩
        have : y.2.need.le work = true := by simpa [holdSum, Claim.add] using fy
        exact List.find?_eq_none.mp none_fits y hy this
    next x found =>
      have hx := List.mem_of_find?_eq_some found
      have fits : x.2.need.le work = true := by simpa using List.find?_some found
      have shorter : (cs.filter fun e => e.1 != x.1).length < cs.length :=
        List.length_filter_lt_length_iff_exists.mpr ⟨x, hx, by simp⟩
      rw [ih (nodup.sublist ((List.filter_sublist).map _)) (by omega)]
      exact ⟨unlocked_of_served nodup hx fits, unlocked_after_served nodup hx⟩

/-! ### A grant (R76) -/

theorem granted_map_fst (cs : List (Nat × Crew)) (slot : Nat) (req : Claim) : (granted cs slot req).map (·.1) = cs.map (·.1) := by
  rw [granted, List.map_map]
  exact List.map_congr_left fun e _ => by simp only [Function.comp_apply]; split <;> rfl

theorem granted_of_absent {cs : List (Nat × Crew)} {slot : Nat} {req : Claim} (absent : slot ∉ cs.map (·.1)) :
    granted cs slot req = cs := by
  refine List.map_congr_left (g := id) (fun e he => if_neg ?_) |>.trans (List.map_id cs)
  exact fun h => absent (List.mem_map.mpr ⟨e, he, h⟩)

theorem filter_granted (cs : List (Nat × Crew)) (slot : Nat) (req : Claim) (q : Nat → Bool) :
    (granted cs slot req).filter (fun e => q e.1) = granted (cs.filter fun e => q e.1) slot req := by
  unfold granted
  rw [List.filter_map]
  congr 1
  exact List.filter_congr fun e _ => by simp only [Function.comp_apply]; split <;> rfl

theorem holdSum_granted {cs : List (Nat × Crew)} (nodup : (cs.map (·.1)).Nodup) {slot : Nat} {c : Crew} (hc : (slot, c) ∈ cs)
    (req : Claim) : holdSum (granted cs slot req) = (holdSum cs).add req := by
  induction cs with
  | nil => cases hc
  | cons e cs ih =>
    obtain ⟨fresh, nodup⟩ := List.nodup_cons.mp nodup
    rcases List.mem_cons.mp hc with rfl | hc
    · have : granted ((slot, c) :: cs) slot req = (slot, { c with hold := c.hold.add req }) :: cs := by
        rw [granted, List.map_cons, if_pos rfl]
        exact congrArg _ (granted_of_absent fresh)
      simp [this, Claim.add, Nat.add_right_comm]
    · have ne : e.1 ≠ slot := fun h => fresh (List.mem_map.mpr ⟨_, hc, h.symm⟩)
      have : granted (e :: cs) slot req = e :: granted cs slot req := by simp [granted, ne]
      rw [this, holdSum_cons, holdSum_cons, ih nodup hc, Claim.add_assoc]

/-- A grant on the fast path deadlocks no set of crews: one with the crew that has the grant has that crew, which can be
served at once; another finds what was granted among what is returned. -/
theorem unlocked_granted {work : Claim} {cs : List (Nat × Crew)} {slot : Nat} {c : Crew} {req : Claim}
    (nodup : (cs.map (·.1)).Nodup) (hc : (slot, c) ∈ cs) (within : req.le work = true)
    (rest : (c.need.sub req).le (work.sub req) = true) (h : Unlocked work cs) :
    Unlocked (work.sub req) (granted cs slot req) := by
  intro p ⟨e, he, hp⟩
  cases hps : p slot
  · obtain ⟨d, hd, rfl⟩ := List.mem_map.mp he
    obtain ⟨y, hy, py, fy⟩ := h p ⟨d, hd, by split at hp <;> exact hp⟩
    have ne : y.1 ≠ slot := fun h => by simp [h, hps] at py
    refine ⟨y, List.mem_map.mpr ⟨y, hy, if_neg ne⟩, py, ?_⟩
    rw [filter_granted cs slot req (fun k => !p k), holdSum_granted (nodup.sublist (List.filter_sublist.map _))
      (List.mem_filter.mpr ⟨hc, by simp [hps]⟩)]
    simp only [Claim.le_iff, Claim.add, Claim.sub] at *
    omega
  · refine ⟨_, List.mem_map.mpr ⟨_, hc, if_pos rfl⟩, hps, Claim.le_trans ?_ (Claim.le_add_right ..)⟩
    have : Crew.need { c with hold := c.hold.add req } = c.need.sub req := by
      simp only [Crew.need, Claim.sub, Claim.add, Claim.mk.injEq]
      omega
    rwa [this]

/-- Settles O27: a safe state is one without a deadlocked set of crews, and a grant on the fast path makes none. -/
theorem fastPathIsSafe : Obligations.FastPathIsSafe := by
  intro cs slot c req nodup len _ hc safe fast
  obtain ⟨within, rest⟩ := (Bool.and_eq_true ..).mp fast
  obtain ⟨fits, done⟩ := (Bool.and_eq_true ..).mp safe
  have sum := holdSum_granted nodup hc req
  have nodup' : ((granted cs slot req).map (·.1)).Nodup := by rwa [granted_map_fst]
  have len' : (granted cs slot req).length ≤ 16 := by simpa [granted] using len
  refine (Bool.and_eq_true ..).mpr ⟨?_, (safeRounds_iff nodup' len').mpr ?_⟩
  · rw [sum]
    simp only [Claim.le_iff, Claim.add, Claim.sub] at *
    omega
  · rw [sum, ← Claim.sub_sub]
    exact unlocked_granted nodup hc within rest ((safeRounds_iff nodup len).mp done)

end Sys2Proof.Machine

/-! ## How a remote access ends (R83, R214, R234, R370, R371) -/

namespace Sys2Proof.Machine

/-! ### The reply -/

/-- A wait whose effect is in the state `s'`: the group goes on past the instruction. -/
theorem State.waitDone_unwatched {s s' : State} {g : Gid} {r : Group} (h : WaitsAt s g r) (there : s'.group? g = some r)
    (r' : Group) (post : List WSrc) :
    s.waitDone g r s' r' post [] =
      s'.putGroup g { r' with wait := .none, pc := nextPc r.pc r.ins.len, wskip := false } := by
  unfold State.waitDone
  rw [State.complete_unwatched h.unwatched _ _ _ _ _ _ _ _ (.inl rfl), State.keepHalt_same there]
  simp only [List.append_nil]

/-- What each pending lane of a remote access is given: its values, or those of the register it reads. -/
def State.repliedTo (s : State) (r : Group) (p : Pending) : List (Nat × W32) := (s.regPending r.ins p).dst

theorem State.repliedTo_eq (s : State) (r : Group) {p : Pending} (hp : p.lane < 32) :
    s.repliedTo r p = match p.reg with
      | none => p.dst
      | some off => pieces r.ins.d.toNat (widen r.ins.ty ((List.range (tyBytes r.ins.ty)).map fun i =>
          (leBytes 8 (s.regRead ((off + i) / 8 * 8)).toNat).getD ((off + i) % 8) 0)) := by
  unfold State.repliedTo State.regPending
  cases p.reg with
  | none => rfl
  | some off => exact if_neg (by omega)

@[simp] theorem State.regPending_lane (s : State) (f : Fields) (p : Pending) : (s.regPending f p).lane = p.lane := by
  unfold State.regPending
  split <;> rfl

/-- Of the lanes of a list, which differ, each finds its own entry. -/
theorem find?_lane {pend : List Pending} (nodup : (pend.map (·.lane)).Nodup) {p : Pending} (hp : p ∈ pend) :
    (pend.find? fun q => q.lane = p.lane) = some p := by
  refine (List.find?_eq_some_iff_append.mpr ⟨by simp, ?_⟩)
  obtain ⟨before, after, rfl⟩ := List.append_of_mem hp
  refine ⟨before, after, rfl, fun q hq => ?_⟩
  simp only [List.map_append, List.map_cons, List.nodup_append] at nodup
  simpa using nodup.2.2 q.lane (List.mem_map_of_mem hq) p.lane (by simp)

/-- The reply writes V registers, lane by lane. -/
theorem State.foldl_reply_eq_writeV (s : State) (r : Group) {pend : List Pending} (lanes : ∀ p ∈ pend, p.lane < 32)
    (nodup : (pend.map (·.lane)).Nodup) :
    (pend.map (s.regPending r.ins)).foldl (fun (u : State) (p : Pending) => if p.lane = 32 then
        u.setG r ((p.dst.headD (0, 0)).1) ((p.dst.getLastD (0, 0)).2 ++ (p.dst.headD (0, 0)).2)
      else p.dst.foldl (fun t w => t.setV r w.1 p.lane w.2) u) s =
    s.writeV r (pend.map (·.lane)) fun l => ((pend.find? fun p => p.lane = l).map (s.repliedTo r)).getD [] := by
  unfold State.writeV
  rw [List.foldl_map, List.foldl_map]
  refine List.foldl_ext _ _ _ fun u p hp => ?_
  have := lanes p hp
  rw [State.regPending_lane, if_neg (by omega)]
  dsimp only
  rw [find?_lane nodup hp]
  rfl

/-- A reply none of whose lanes is a G register's: its lanes' registers are written, and an acquire empties the view. -/
theorem State.remoteReply_eq {s : State} {g : Gid} {r : Group} (h : WaitsAt s g r) {pend : List Pending} {kind width : Nat}
    {acq : Bool} {offers : List (Nat × W64 × Nat)} (wait : r.wait = .remote pend kind acq width offers)
    (lanes : ∀ p ∈ pend, p.lane < 32) (nodup : (pend.map (·.lane)).Nodup) :
    let written := s.writeV r (pend.map (·.lane)) fun l => ((pend.find? fun p => p.lane = l).map (s.repliedTo r)).getD []
    exec (.remoteReply g) s = .next ((if acq then written.emptyView g.core else written).putGroup g r.woken) := by
  intro written
  have groups : (if acq then written.emptyView g.core else written).groups = s.groups := by
    simp only [written, State.writeV_eq]
    split <;> rfl
  rw [exec_remoteReply, execRemoteReply, State.onWait_of_waitsAt h, wait]
  simp only [State.regWait, State.remoteReply, s.foldl_reply_eq_writeV r lanes nodup]
  rw [State.waitDone_unwatched h (by rw [State.group?, groups]; exact h.group)]
  rfl

/-! ### A link's failure -/

/-- What a record of the event log leaves. -/
theorem State.logEvent_eq (s : State) (code : Nat) (source count : Option Nat) :
    ∃ log first msix, s.logEvent code source count = { s with
      freeCtr := s.freeCtr + 3
      dev := { s.dev with msix := msix, granary := { s.dev.granary with log := log, logFirst := first } } } := by
  unfold State.logEvent
  dsimp only [State.free]
  split <;> split <;> exact ⟨_, _, _, rfl⟩

/-- A link's error counter has risen, and the failure is logged. -/
theorem State.linkFailed_eq (s : State) (link : Nat) :
    ∃ dev, (s.putGranary { s.granary with linkErrs := s.granary.linkErrs.set link (s.granary.linkErrs.getD link 0 + 1) }).logEvent
        LogCode.linkRetry (some link) (some (s.granary.linkErrs.getD link 0 + 1)) =
      { s with dev := dev, freeCtr := s.freeCtr + 3 } ∧
      ∀ n, s.dev.granary.linkErrs[link]? = some n → dev.granary.linkErrs[link]? = some (n + 1) := by
  obtain ⟨log, first, msix, eq⟩ := State.logEvent_eq (s.putGranary { s.granary with
    linkErrs := s.granary.linkErrs.set link (s.granary.linkErrs.getD link 0 + 1) }) LogCode.linkRetry (some link)
      (some (s.granary.linkErrs.getD link 0 + 1))
  refine ⟨_, eq, fun n hn => ?_⟩
  obtain ⟨there, rfl⟩ := List.getElem?_eq_some_iff.mp hn
  simp [State.putGranary, State.granary, there]

/-- A group that has stopped for good stays so while its crew stops. -/
theorem State.group?_stopCrew_stopped {s : State} {g : Gid} {x : Group} (hx : s.group? g = some x) (stopped : x.halt.cause = 7)
    (steady : x.wait.midway = false) (core slot : Nat) (but : Option Gid) (fr : FRec) :
    ∃ y, (s.stopCrew core slot but fr).group? g = some y ∧ y.halt.cause = 7 ∧ y.pc = x.pc := by
  have told (st : Option Nat) : (({ x with stepper := st } : Group).broadcast 7).halt.cause = 7 ∧
      (({ x with stepper := st } : Group).broadcast 7).pc = x.pc := by
    simp [Group.broadcast, Group.stopped, stopped, steady]
  have heard : ∃ y, (s.broadcast core slot but 7).group? g = some y ∧ y.halt.cause = 7 ∧ y.pc = x.pc := by
    unfold State.group? at hx
    unfold State.broadcast State.group?
    dsimp only [State.modCrew_groups]
    rw [tfind_map_values (fun e => by split <;> rfl), hx]
    refine ⟨_, rfl, ?_⟩
    dsimp only
    split
    · split
      · split
        · exact told _
        · exact told x.stepper
      · exact told x.stepper
    · split
      · split
        · exact ⟨stopped, rfl⟩
        · exact ⟨stopped, rfl⟩
      · exact ⟨stopped, rfl⟩
  unfold State.stopCrew
  split
  · exact ⟨x, hx, stopped, rfl⟩
  · dsimp only
    split
    · exact ⟨x, hx, stopped, rfl⟩
    · exact heard

theorem State.dev_stopCrew (s : State) (core slot : Nat) (but : Option Gid) (fr : FRec) :
    (s.stopCrew core slot but fr).dev = s.dev := by
  unfold State.stopCrew
  split
  · rfl
  · dsimp only
    split <;> rfl

/-- An own group whose remote access meets the failure stops where it is, crew-fatally. -/
theorem State.groupLink_stops {s : State} (g : Gid) {r : Group} {pend : List Pending} {kind width : Nat} {acq : Bool}
    {offers : List (Nat × W64 × Nat)} (wait : r.wait = .remote pend kind acq width offers) (own : r.kind = .own) :
    (∃ r', (s.groupLink g r).group? g = some r' ∧ r'.halt.cause = 7 ∧ r'.pc = r.pc) ∧
      (s.groupLink g r).mem = s.mem ∧ (s.groupLink g r).vreg = s.vreg ∧ (s.groupLink g r).dev = s.dev := by
  obtain ⟨fr, eq⟩ : ∃ fr, s.groupLink g r = s.crewFatal g r fr := by
    unfold State.groupLink
    rw [wait]
    exact ⟨_, rfl⟩
  obtain ⟨fr', -, -, stops⟩ := s.crewFatal_stops g (r := r) (.inl (by simp [Group.inHandler, own])) fr
  obtain ⟨vreg, -, -, mem, -⟩ := State.regs_stopCrew (s.putGroup g
    { r with halt := { cause := 7 }, skid := r.skidNow, bcast := none, stepper := none }) g.core r.crew (some g) fr'
  rw [eq, stops]
  exact ⟨State.group?_stopCrew_stopped (s.group?_putGroup_self g _) rfl (by simp [wait, Wait.midway]) _ _ _ _, mem, vreg,
    State.dev_stopCrew ..⟩

/-- Settles O16: the reply's writes are those of `State.writeV`; a failed link's group stops as any crew-fatal fault stops it. -/
theorem remoteAccessEnds : Obligations.RemoteAccessEnds := by
  intro s g r pend kind width acq offers dst wait
  refine ⟨fun h ok nodup => ?reply, fun link hg own => ?own, fun link => ?other⟩
  case reply =>
    have lanes : ∀ p ∈ pend, p.lane < 32 := fun p hp => (ok p hp).1
    have dst_eq : ∀ l, (pend.find? fun p => p.lane = l).map (s.repliedTo r) = (pend.find? fun p => p.lane = l).map dst := by
      intro l
      cases found : pend.find? fun p => p.lane = l with
      | none => rfl
      | some p => exact congrArg some (s.repliedTo_eq r (lanes p (List.mem_of_find?_eq_some found)))
    have writes := State.remoteReply_eq h wait lanes nodup
    simp only [dst_eq] at writes
    refine ⟨_, writes, State.group?_putGroup_self .., ?_, ?_, ?_⟩
    · rw [State.writeV_eq]
      split <;> rfl
    · rw [State.writeV_eq]
      split
      · simp [State.emptyView, State.modCore, State.putCore, State.core]
      · rfl
    · refine State.writeV_written s r nodup ?_ ?_ (by split <;> rfl)
      · simpa using lanes
      · intro l hl
        obtain ⟨p, hp, rfl⟩ := List.mem_map.mp hl
        rw [find?_lane nodup hp]
        exact (ok p hp).2
  case own =>
    obtain ⟨dev, eq, counted⟩ := s.linkFailed_eq link
    obtain ⟨stopped, mem, vreg, dev'⟩ := State.groupLink_stops (s := { s with dev := dev, freeCtr := s.freeCtr + 3 }) g wait own
    have runs : exec (.linkRetryFailure link (.group g)) s =
        .next (({ s with dev := dev, freeCtr := s.freeCtr + 3 } : State).groupLink g r) := by
      rw [exec_linkRetryFailure, execLinkRetryFailure, eq]
      simp only [show ({ s with dev := dev, freeCtr := s.freeCtr + 3 } : State).group? g = some r from hg]
    obtain ⟨r', hr', cause, pc⟩ := stopped
    exact ⟨_, runs, fun n hn => by rw [dev']; exact counted n hn, r', hr', cause, pc, mem, vreg⟩
  case other =>
    obtain ⟨dev, eq, counted⟩ := s.linkFailed_eq link
    have runs : exec (.linkRetryFailure link .other) s = .next { s with dev := dev, freeCtr := s.freeCtr + 3 } := by
      rw [exec_linkRetryFailure, execLinkRetryFailure, eq]
    exact ⟨_, runs, rfl, counted⟩

end Sys2Proof.Machine

/-! ## Grants: CLAIM, RELEASE, FULL_TEST_END, RGSUR, RGCLM, CLQRY (R73, R76, R77, R121 to R124) -/

namespace Sys2Proof.Machine

/-! ### Reads after the grant unit's updates -/

section

variable (s : State)

@[simp] theorem State.core_putCore_self (n : Nat) (c : Core) : (s.putCore n c).core n = c := by
  simp [State.core, State.putCore]

@[simp] theorem State.core_modCore_self (n : Nat) (f : Core → Core) : (s.modCore n f).core n = f (s.core n) :=
  s.core_putCore_self ..

@[simp] theorem State.core_modCrew (core slot : Nat) (f : Crew → Crew) (n : Nat) : (s.modCrew core slot f).core n = s.core n := rfl

@[simp] theorem State.crew?_putCrew_self (core slot : Nat) (c : Crew) : (s.putCrew core slot c).crew? core slot = some c :=
  tfind_tput_self ..

theorem State.crewOf_of_crew? {s : State} {g : Gid} {r : Group} {c : Crew} (hc : s.crew? g.core r.crew = some c) :
    s.crewOf g r = c := by
  simp [State.crewOf, hc]

theorem State.applyHold_of_crew? {s : State} {core slot : Nat} {c : Crew} (hc : s.crew? core slot = some c) (req : Claim) :
    s.applyHold core slot req = ((s.zeroScratch c.uid c.hold.sg (c.hold.sg + req.sg)).zeroSilo c.uid c.hold.ms
      (c.hold.ms + req.ms)).putCrew core slot { c with hold := c.hold.add req } := by
  simp only [State.applyHold, hc]

theorem State.crew?_addFree {s : State} {core slot : Nat} {c : Crew} (hc : s.crew? core slot = some c) (n : Nat) :
    (s.addFree core slot n).crew? core slot = some { c with free := c.free + n } := by
  rw [State.addFree, State.crew?_modCrew_self, hc]
  rfl

/-- What a grant gives a crew (R121): its holding grows, and its free granules by the granules of the grant. -/
theorem State.crew?_grant {s : State} {core slot : Nat} {c : Crew} (hc : s.crew? core slot = some c) (req : Claim) :
    ((s.applyHold core slot req).addFree core slot req.rg).crew? core slot =
      some { c with hold := c.hold.add req, free := c.free + req.rg } := by
  rw [State.applyHold_of_crew? hc, State.addFree, State.crew?_modCrew_self, State.crew?_putCrew_self]
  rfl

/-- What a grant leaves alone. -/
theorem State.applyHold_eq (core slot : Nat) (req : Claim) : s.applyHold core slot req =
    { s with crews := (s.applyHold core slot req).crews, scratch := (s.applyHold core slot req).scratch
             silo := (s.applyHold core slot req).silo, poison := (s.applyHold core slot req).poison } := by
  unfold State.applyHold
  split <;> rfl

/-- Granules of scratch that a crew gains are zero, and nothing else is (R74, R121). -/
theorem State.scratch_grant {s : State} {core slot : Nat} {c : Crew} (hc : s.crew? core slot = some c) (req : Claim) (k : Nat) :
    tget 0 (s.applyHold core slot req).scratch k =
      if scrKey c.uid (c.hold.sg * 16384) ≤ k ∧ k < scrKey c.uid ((c.hold.sg + req.sg) * 16384) then 0 else tget 0 s.scratch k := by
  rw [State.applyHold_of_crew? hc]
  exact tget_tclear ..

end

/-- An effect that touches no group brings its own group no halt. -/
theorem State.keepHalt_of_groups {s u : State} {g : Gid} {r : Group} (hu : u.groups = s.groups) (hg : s.group? g = some r)
    (r' : Group) : u.keepHalt g r r' = r' :=
  State.keepHalt_same (by rw [State.group?, hu]; exact hg)

/-! ### What an instruction that issues comes to -/

section

variable {i : Instr} {x x' : Form} {s s' : State} {g : Gid} {r r' : Group} (h : Issues i x s g r) {lvl : Nat}
  {k : State → Gid → Group → Res} (hf : i.form = some x') (he : exec i s = issue lvl x'.f x'.shape s k)
  (hl : lvl ≤ needsLevel i)
include h hf he hl

/-- It completes, whatever it has brought to its own group. -/
theorem Issues.exec_done (hk : k (s.countIssue g (s.useful r x'.f)) g r = .done s' r') :
    exec i s = .next (s'.putGroup g { s'.keepHalt g r r' with wskip := false }) := by
  obtain rfl := h.form_eq hf
  rw [he, issue_settle h (hl.trans h.level) k (by rw [hk]; exact Res.noConfusion), hk, Res.done,
    State.settle_ok (State.unwatched_countIssue h.unwatched) _ _ _ _ _ _ _ _ _ (.inl rfl) (.inl rfl)]
  simp

/-- It completes, and has brought nothing to any group. -/
theorem Issues.exec_done_same (hk : k (s.countIssue g (s.useful r x'.f)) g r = .done s' r') (hs : s'.groups = s.groups) :
    exec i s = .next (s'.putGroup g { r' with wskip := false }) := by
  obtain rfl := h.form_eq hf
  rw [he, issue_ok h (hl.trans h.level) hk (.inl rfl) hs]

/-- It waits. -/
theorem Issues.exec_hold (hk : k (s.countIssue g (s.useful r x'.f)) g r = .hold s' r') (hs : s'.groups = s.groups) :
    exec i s = .next (s'.putGroup g { r' with ins := x'.f, insSh := x'.shape, wskip := false }) := by
  obtain rfl := h.form_eq hf
  rw [he, issue_wait h (hl.trans h.level) hk (.inl rfl) hs]

theorem Issues.exec_fatal {fr : FRec} (hk : k (s.countIssue g (s.useful r x'.f)) g r = .fatal fr) :
    exec i s = .next ((s.countIssue g (s.useful r x'.f)).crewFatal g r fr) := by
  obtain rfl := h.form_eq hf
  rw [he, issue_settle h (hl.trans h.level) k (by rw [hk]; exact Res.noConfusion), hk]
  rfl

end

/-- The checks pass for an instruction that goes on from a wait: its effect is taken where it stands. -/
theorem issue_continues {i : Instr} {x : Form} {s : State} {g : Gid} {r : Group} (h : Continues i x s g r) {lvl : Nat}
    (hl : lvl ≤ s.levelOf g r) (k : State → Gid → Group → Res) :
    (k s g r = .retry → issue lvl x.f x.shape s k = .next s) ∧
    (k s g r ≠ .retry → issue lvl x.f x.shape s k =
      .next (s.settle g r x.f x.shape (!x.f.u && (s.activeLanes r x.f).isEmpty) (k s g r))) := by
  have hp : s.permits g r lvl = true := by simpa [State.permits] using hl
  have hg : (x.f.u && !s.guard r x.f 0) = false := by
    cases hu : x.f.u
    · rfl
    · simp [h.guard hu]
  unfold issue
  simp only [h.actor, h.group, hp, h.extent.not_gt, hg, h.free, h.owed, if_neg h.waiting, Bool.not_true, Bool.or_self,
    Bool.false_eq_true, if_false]
  constructor
  · intro retry
    simp only [retry]
  · intro other
    split
    · contradiction
    · rfl

section

variable {i : Instr} {x x' : Form} {s s' : State} {g : Gid} {r r' : Group} (h : Continues i x s g r) {lvl : Nat}
  {k : State → Gid → Group → Res} (hf : i.form = some x') (he : exec i s = issue lvl x'.f x'.shape s k)
  (hl : lvl ≤ needsLevel i)
include h hf he hl

theorem Continues.exec_done_same (hk : k s g r = .done s' r') (hs : s'.groups = s.groups) :
    exec i s = .next (s'.putGroup g { r' with wskip := false }) := by
  obtain rfl : x = x' := Option.some.inj (h.form.symm.trans hf)
  rw [he, (issue_continues h (hl.trans h.level) k).2 (by rw [hk]; exact Res.noConfusion), hk, Res.done,
    State.settle_ok h.unwatched _ _ _ _ _ _ _ _ _ (.inl rfl) (.inl rfl),
    State.keepHalt_same (by simpa [State.group?, hs] using h.group)]
  simp only [List.append_nil]

theorem Continues.exec_retry (hk : k s g r = .retry) : exec i s = .next s := by
  obtain rfl : x = x' := Option.some.inj (h.form.symm.trans hf)
  exact he.trans ((issue_continues h (hl.trans h.level) k).1 hk)

end

/-! ### CLAIM (R121) -/

section

variable {f : Fields} {s : State} {g : Gid} {r : Group} {c : Crew} {x : Form} (h : Issues (.claim f) x s g r)
  (hc : s.crew? g.core r.crew = some c) (some_ : s.claimOf r f ≠ {})
include h hc some_

theorem exec_claim_claimx (beyond : (s.claimOf r f).le c.need = false) :
    exec (.claim f) s = .next ((s.countIssue g (s.useful r f)).crewFatal g r { code := Code.claimx }) := by
  refine h.exec_fatal rfl (exec_claim f s) (Nat.zero_le _) ?_
  change (if s.claimOf r f = {} then _ else if !(s.claimOf r f).le (s.crewOf g r).need then _ else _) = _
  simp only [State.crewOf_of_crew? hc, some_, beyond, Bool.not_false, if_true, if_false]

variable (within : (s.claimOf r f).le c.need = true)
include within

theorem exec_claim_granted (fast : fastPath c.need (s.avail g.core) (s.claimOf r f) = true) :
    let u := ((s.countIssue g (s.useful r f)).applyHold g.core r.crew (s.claimOf r f)).addFree g.core r.crew (s.claimOf r f).rg
    exec (.claim f) s = .next (u.putGroup g { u.keepHalt g r (r.next f) with wskip := false }) := by
  refine h.exec_done rfl (exec_claim f s) (Nat.zero_le _) ?_
  change (if s.claimOf r f = {} then _ else if !(s.claimOf r f).le (s.crewOf g r).need then _ else
    if fastPath (s.crewOf g r).need (s.avail g.core) (s.claimOf r f) then _ else _) = _
  simp only [State.crewOf_of_crew? hc, some_, within, fast, Bool.not_true, Bool.false_eq_true, if_true, if_false]
  rfl

/-- What a claim that the fast path grants gives and leaves (R74, R76, R121). -/
theorem claim_grants (fast : fastPath c.need (s.avail g.core) (s.claimOf r f) = true) :
    ∃ t, exec (.claim f) s = .next t ∧ t.crew? g.core r.crew =
        some { c with hold := c.hold.add (s.claimOf r f), free := c.free + (s.claimOf r f).rg } ∧
      t.group? g = some { r.next f with wskip := false } ∧
      (∀ j < (s.claimOf r f).sg * 16384, tget 0 t.scratch (scrKey c.uid (c.hold.sg * 16384 + j)) = 0) ∧
      (∀ k, (∀ j < (s.claimOf r f).sg * 16384, k ≠ scrKey c.uid (c.hold.sg * 16384 + j)) →
        tget 0 t.scratch k = tget 0 s.scratch k) ∧
      t.vreg = s.vreg ∧ t.preg = s.preg ∧ t.greg = s.greg ∧ t.mem = s.mem := by
  let s1 := s.countIssue g (s.useful r f)
  let u := s1.applyHold g.core r.crew (s.claimOf r f)
  have hc' : s1.crew? g.core r.crew = some c := hc
  have rest : u = { s1 with crews := u.crews, scratch := u.scratch, silo := u.silo, poison := u.poison } := s1.applyHold_eq ..
  have scratch (k : Nat) := State.scratch_grant hc' (s.claimOf r f) k
  have groups : u.groups = s.groups := by rw [rest]; rfl
  have done : exec (.claim f) s = .next ((u.addFree g.core r.crew (s.claimOf r f).rg).putGroup g
      { r.next f with wskip := false }) :=
    (exec_claim_granted h hc some_ within fast).trans
      (by rw [State.keepHalt_of_groups (u := u.addFree g.core r.crew (s.claimOf r f).rg) groups h.group])
  refine ⟨_, done, State.crew?_grant hc' _, State.group?_putGroup_self .., fun j hj => ?_, fun k hk => ?_, ?_, ?_, ?_, ?_⟩
  · refine (scratch _).trans (if_pos ?_)
    simp only [scrKey, Nat.add_mul]
    omega
  · refine (scratch k).trans (if_neg ?_)
    rintro ⟨above, below⟩
    simp only [scrKey, Nat.add_mul] at above below hk
    exact hk (k - (c.uid * 2 ^ 20 + c.hold.sg * 16384)) (by omega) (by omega)
  · exact (by rw [rest]; rfl : u.vreg = s.vreg)
  · exact (by rw [rest]; rfl : u.preg = s.preg)
  · exact (by rw [rest]; rfl : u.greg = s.greg)
  · exact (by rw [rest]; rfl : u.mem = s.mem)

/-- A claim that the fast path does not grant waits for the full test, which is free (R76). -/
theorem exec_claim_tested (slow : fastPath c.need (s.avail g.core) (s.claimOf r f) = false) (idle : (s.core g.core).test = none) :
    let fits := (s.claimOf r f).le (s.avail g.core)
    let safe := fits && s.safe g.core (granted (s.residents g.core) r.crew (s.claimOf r f))
    let s1 := s.countIssue g (s.useful r f)
    exec (.claim f) s = .next (State.putGroup
      ((if fits then s1.modCrew g.core r.crew fun c => { c with pendHold := s.claimOf r f } else s1).modCore g.core
        fun x => { x with test := some ({ slot := g.slot, crew := r.crew, req := s.claimOf r f }, safe), fell := false }) g
      { r with wait := .grant, ins := f, insSh := shapeClaim f, wskip := false }) := by
  intro fits safe s1
  have idle' : (s1.core g.core).test = none := by simpa [s1, State.core_countIssue] using idle
  refine h.exec_hold rfl (exec_claim f s) (Nat.zero_le _) (r' := { r with wait := .grant }) ?_ ?_
  · change (if s.claimOf r f = {} then _ else if !(s.claimOf r f).le (s.crewOf g r).need then _ else
      if fastPath (s.crewOf g r).need (s.avail g.core) (s.claimOf r f) then _ else if (s1.core g.core).test.isSome then _ else _) = _
    simp only [State.crewOf_of_crew? hc, some_, within, slow, idle', Bool.not_true, Bool.false_eq_true, if_false,
      Option.isSome_none]
    rfl
  · split <;> rfl

end

/-! ### RELEASE (R122) -/

section

variable {f : Fields} {s : State} {g : Gid} {r : Group} {c : Crew} {x : Form} (h : Issues (.release f) x s g r)
  (hc : s.crew? g.core r.crew = some c)
include h hc

theorem exec_release_claimx (more : c.free < (s.claimOf r f).rg ∨ c.hold.sg < (s.claimOf r f).sg) :
    exec (.release f) s = .next ((s.countIssue g (s.useful r f)).crewFatal g r { code := Code.claimx }) := by
  refine h.exec_fatal rfl (exec_release f s) (Nat.zero_le _) (if_pos ?_)
  change (decide ((s.crewOf g r).free < (s.claimOf r f).rg) || decide ((s.crewOf g r).hold.sg < (s.claimOf r f).sg) || _ || _) = true
  rw [State.crewOf_of_crew? hc]
  rcases more with more | more <;> simp [more]

/-- What nothing uses goes back, zeroed; then the deferred requests are tested again (R77). -/
theorem exec_release_freed (rg : (s.claimOf r f).rg ≤ c.free) (sg : (s.claimOf r f).sg ≤ c.hold.sg)
    (ch : s.busyChans c.uid + (s.claimOf r f).ch ≤ c.hold.ch) (ms : s.busyStreams c.uid + (s.claimOf r f).ms ≤ c.hold.ms)
    (scratch : (s.claimOf r f).sg ≠ 0 →
      s.scoreboarded c.uid ((c.hold.sg - (s.claimOf r f).sg) * 16384) ((s.claimOf r f).sg * 16384) = false)
    (rows : s.rowsInUse c.uid (384 * (c.hold.ms - (s.claimOf r f).ms)) (384 * c.hold.ms) = false) :
    let freed := (((s.countIssue g (s.useful r f)).zeroScratch c.uid (c.hold.sg - (s.claimOf r f).sg) c.hold.sg).zeroSilo c.uid
      (c.hold.ms - (s.claimOf r f).ms) c.hold.ms).putCrew g.core r.crew
        { c with hold := c.hold.sub (s.claimOf r f), free := c.free - (s.claimOf r f).rg }
    let u := freed.retest g.core
    exec (.release f) s = .next (u.putGroup g { u.keepHalt g r { r.next f with wait := .none } with wskip := false }) := by
  have held : (decide (c.free < (s.claimOf r f).rg) || decide (c.hold.sg < (s.claimOf r f).sg) ||
      decide (c.hold.ch < s.busyChans c.uid + (s.claimOf r f).ch) ||
      decide (c.hold.ms < s.busyStreams c.uid + (s.claimOf r f).ms)) = false := by
    simp [rg.not_gt, sg.not_gt, ch.not_gt, ms.not_gt]
  have unused : (((s.claimOf r f).sg != 0 &&
      s.scoreboarded c.uid ((c.hold.sg - (s.claimOf r f).sg) * 16384) ((s.claimOf r f).sg * 16384)) ||
      s.rowsInUse c.uid (384 * (c.hold.ms - (s.claimOf r f).ms)) (384 * c.hold.ms)) = false := by
    by_cases none : (s.claimOf r f).sg = 0
    · simp [none, rows]
    · simp [scratch none, rows]
  refine h.exec_done rfl (exec_release f s) (Nat.zero_le _) ?_
  dsimp only
  rw [State.crewOf_countIssue, State.crewOf_of_crew? hc]
  exact (if_neg (Bool.eq_false_iff.mp held)).trans (if_neg (Bool.eq_false_iff.mp unused))

end

/-! ### The deferred requests (R77) -/

theorem State.retest_of_none_deferred {s : State} {core : Nat} (h : (s.core core).deferred = []) :
    s.retest core = if (s.core core).test.isSome then s.modCore core fun x => { x with fell := true } else s := by
  have none_deferred :
      ((if (s.core core).test.isSome then s.modCore core fun x => { x with fell := true } else s).core core).deferred = [] := by
    split
    · rw [State.core_modCore_self]
      exact h
    · exact h
  simp only [State.retest, none_deferred, State.retestList]

/-- With none deferred a test again notes only, where a full test runs, that a holding has fallen. -/
theorem State.retest_eq_of_none_deferred {s : State} {core : Nat} (h : (s.core core).deferred = []) :
    s.retest core = { s with cores := (s.retest core).cores } := by
  rw [State.retest_of_none_deferred h]
  split <;> rfl

theorem State.core_stopCrew_test (s : State) (core slot : Nat) (but : Option Gid) (fr : FRec) (n : Nat) :
    ((s.stopCrew core slot but fr).core n).test = (s.core n).test := by
  have cut (u : State) (uid : Nat) : ((u.cutWork core slot uid).core n).test = (u.core n).test := by
    by_cases hn : n = core
    · subst hn
      have : (u.cutWork n slot uid).core n = (u.core n).strip uid slot := by
        unfold State.cutWork
        exact State.core_modCore_self ..
      rw [this]
      rfl
    · exact congrArg (fun o => Core.test (Option.getD o {})) (tfind_tput_ne _ _ hn)
  unfold State.stopCrew
  split
  · rfl
  · dsimp only
    split
    · rfl
    · exact cut ..

theorem State.core_crewFatal_test (s : State) (g : Gid) (r : Group) (fr : FRec) (n : Nat) :
    ((s.crewFatal g r fr).core n).test = (s.core n).test := by
  unfold State.crewFatal
  dsimp only
  split
  · rfl
  · exact State.core_stopCrew_test ..

theorem State.crewFatal_vreg (s : State) (g : Gid) (r : Group) (fr : FRec) : (s.crewFatal g r fr).vreg = s.vreg := by
  unfold State.crewFatal
  dsimp only
  split
  · rfl
  · exact (State.regs_stopCrew _ _ _ _ _).1

/-- What a release gives back where no request is deferred (R122). -/
theorem release_frees {f : Fields} {s : State} {g : Gid} {r : Group} {c : Crew} {x : Form} (h : Issues (.release f) x s g r)
    (hc : s.crew? g.core r.crew = some c) (only : (s.core g.core).deferred = [])
    (rg : (s.claimOf r f).rg ≤ c.free) (sg : (s.claimOf r f).sg ≤ c.hold.sg)
    (ch : s.busyChans c.uid + (s.claimOf r f).ch ≤ c.hold.ch) (ms : s.busyStreams c.uid + (s.claimOf r f).ms ≤ c.hold.ms)
    (scratch : (s.claimOf r f).sg ≠ 0 →
      s.scoreboarded c.uid ((c.hold.sg - (s.claimOf r f).sg) * 16384) ((s.claimOf r f).sg * 16384) = false)
    (rows : s.rowsInUse c.uid (384 * (c.hold.ms - (s.claimOf r f).ms)) (384 * c.hold.ms) = false) :
    ∃ t, exec (.release f) s = .next t ∧ t.crew? g.core r.crew =
        some { c with hold := c.hold.sub (s.claimOf r f), free := c.free - (s.claimOf r f).rg } ∧
      t.group? g = some { r.next f with wait := .none, wskip := false } ∧
      t.vreg = s.vreg ∧ t.preg = s.preg ∧ t.greg = s.greg ∧ t.mem = s.mem := by
  let freed := (((s.countIssue g (s.useful r f)).zeroScratch c.uid (c.hold.sg - (s.claimOf r f).sg) c.hold.sg).zeroSilo c.uid
    (c.hold.ms - (s.claimOf r f).ms) c.hold.ms).putCrew g.core r.crew
      { c with hold := c.hold.sub (s.claimOf r f), free := c.free - (s.claimOf r f).rg }
  have none_deferred : (freed.core g.core).deferred = [] := by
    have : freed.core g.core = (s.countIssue g (s.useful r f)).core g.core := rfl
    rw [this, State.core_countIssue, if_pos rfl, only]
  have rest : freed.retest g.core = { freed with cores := (freed.retest g.core).cores } :=
    State.retest_eq_of_none_deferred none_deferred
  have groups : (freed.retest g.core).groups = s.groups := by rw [rest]; rfl
  have done : exec (.release f) s = .next ((freed.retest g.core).putGroup g { r.next f with wait := .none, wskip := false }) :=
    (exec_release_freed h hc rg sg ch ms scratch rows).trans
      (by rw [State.keepHalt_of_groups (u := freed.retest g.core) groups h.group])
  refine ⟨_, done, ?_, State.group?_putGroup_self .., ?_⟩
  · have crews : (freed.retest g.core).crews = freed.crews := by rw [rest]
    exact (congrArg (tfind · (crewKey g.core r.crew)) crews).trans (State.crew?_putCrew_self ..)
  · generalize freed.retest g.core = u at rest
    exact ⟨(by rw [rest]; rfl : u.vreg = s.vreg), (by rw [rest]; rfl : u.preg = s.preg), (by rw [rest]; rfl : u.greg = s.greg),
      (by rw [rest]; rfl : u.mem = s.mem)⟩

/-! ### FULL_TEST_END (R76) -/

theorem WaitsAt.of_same {s t : State} {g : Gid} {r : Group} (h : WaitsAt s g r) (groups : t.groups = s.groups)
    (ops : t.ops = s.ops) (watch : (t.core g.core).watch = (s.core g.core).watch) : WaitsAt t g r where
  group := by rw [State.group?, groups]; exact h.group
  going := h.going
  free := by rw [State.writesHeld, ops]; exact h.free
  unwatched := by unfold State.unwatched; rw [watch]; exact h.unwatched

/-- The group that has its grant goes on. -/
theorem State.resumeGrant_of_waitsAt {s : State} {core : Nat} {q : GReq} {r : Group}
    (h : WaitsAt s { core := core, slot := q.slot } r) (wait : r.wait = .grant) :
    s.resumeGrant core q = (s.addFree core q.crew q.req.rg).putGroup { core := core, slot := q.slot } r.woken := by
  have h' : WaitsAt (s.addFree core q.crew q.req.rg) { core := core, slot := q.slot } r := h.of_same rfl rfl rfl
  have waits : (decide (r.wait = .grant) && r.waits) = true := by simp [wait, Group.waits, h.going]
  simp only [State.resumeGrant, h'.group, waits, if_true]
  exact State.waitDone_woken h'

/-- The core once its full test has ended and the tentative holding is withdrawn. -/
def State.testOver (s : State) (core : Nat) (q : GReq) : State :=
  (s.modCore core fun x => { x with test := none, fell := false }).modCrew core q.crew fun c => { c with pendHold := {} }

section

variable {s : State} {core : Nat} {q : GReq} {safe : Bool} (ht : (s.core core).test = some (q, safe))
include ht

theorem exec_fullTestEnd_passed (hs : safe = true) :
    exec (.fullTestEnd core) s = .next (((s.testOver core q).applyHold core q.crew q.req).resumeGrant core q) := by
  subst hs
  simp only [exec_fullTestEnd, execFullTestEnd, ht]
  rfl

theorem exec_fullTestEnd_failed (hs : safe = false) :
    exec (.fullTestEnd core) s = .next (if (s.core core).fell
      then ((s.testOver core q).modCore core fun x => { x with deferred := x.deferred ++ [q] }).retest core
      else ((s.testOver core q).retest core).modCore core fun x => { x with deferred := x.deferred ++ [q] }) := by
  subst hs
  simp only [exec_fullTestEnd, execFullTestEnd, ht, Bool.false_eq_true, if_false]
  split <;> rfl

end

@[simp] theorem State.core_testOver (s : State) (core : Nat) (q : GReq) :
    (s.testOver core q).core core = { s.core core with test := none, fell := false } := by
  simp [State.testOver]

theorem State.crew?_testOver {s : State} {core : Nat} {q : GReq} {c : Crew} (hc : s.crew? core q.crew = some c) :
    (s.testOver core q).crew? core q.crew = some { c with pendHold := {} } := by
  rw [State.testOver, State.crew?_modCrew_self]
  exact congrArg (Option.map _) hc

/-- A request that passed is the crew's, and its group goes on (R76, R121). -/
theorem fullTestEnd_grants {s : State} {core : Nat} {q : GReq} {c : Crew} {r : Group} (ht : (s.core core).test = some (q, true))
    (hc : s.crew? core q.crew = some c) (h : WaitsAt s { core := core, slot := q.slot } r) (wait : r.wait = .grant) :
    ∃ t, exec (.fullTestEnd core) s = .next t ∧ t.group? { core := core, slot := q.slot } = some r.woken ∧
      t.crew? core q.crew = some { c with pendHold := {}, hold := c.hold.add q.req, free := c.free + q.req.rg } ∧
      t.core core = { s.core core with test := none, fell := false } ∧ t.mem = s.mem ∧ t.vreg = s.vreg ∧
      ∀ j < q.req.sg * 16384, tget 0 t.scratch (scrKey c.uid (c.hold.sg * 16384 + j)) = 0 := by
  have hc' := State.crew?_testOver hc
  have rest := (s.testOver core q).applyHold_eq core q.crew q.req
  have cores : ((s.testOver core q).applyHold core q.crew q.req).core core = (s.testOver core q).core core := by
    rw [rest]
    rfl
  have h' : WaitsAt ((s.testOver core q).applyHold core q.crew q.req) { core := core, slot := q.slot } r := by
    refine h.of_same ?_ ?_ ?_
    · rw [rest]; rfl
    · rw [rest]; rfl
    · rw [cores, State.core_testOver]
  refine ⟨_, exec_fullTestEnd_passed ht rfl, ?_⟩
  rw [State.resumeGrant_of_waitsAt h' wait]
  refine ⟨State.group?_putGroup_self .., State.crew?_grant hc' q.req, cores.trans (s.core_testOver core q), ?_, ?_, ?_⟩
  · rw [State.putGroup_mem, State.addFree, State.modCrew_mem, rest]; rfl
  · rw [State.putGroup_vreg, State.addFree, State.modCrew_vreg, rest]; rfl
  · intro j hj
    refine (State.scratch_grant hc' q.req _).trans (if_pos ?_)
    simp only [scrKey, Nat.add_mul]
    omega

/-- What a test of one deferred request comes to: CLAIMX, a grant, or nothing (R77). -/
theorem State.retestList_singleton {s : State} {core : Nat} {q : GReq} {c : Crew} {r : Group}
    (hc : s.crew? core q.crew = some c) (hr : s.group? { core := core, slot := q.slot } = some r) :
    ∃ drop : Core → Core, (∀ x, (drop x).test = x.test ∧ (drop x).watch = x.watch) ∧
      (s.retestList core [q] = (s.modCore core drop).crewFatal { core := core, slot := q.slot } r { code := Code.claimx } ∨
       s.retestList core [q] = ((s.modCore core drop).applyHold core q.crew q.req).resumeGrant core q ∨
       s.retestList core [q] = s) := by
  refine ⟨fun x => { x with deferred := x.deferred.filter fun x => x != q }, fun _ => ⟨rfl, rfl⟩, ?_⟩
  replace hr : (s.modCore core fun x => { x with deferred := x.deferred.filter fun x => x != q }).group?
      { core := core, slot := q.slot } = some r := hr
  simp only [State.retestList, hc, hr]
  split
  · exact .inl rfl
  · split
    · exact .inr (.inl rfl)
    · exact .inr (.inr rfl)

/-- A request that did not pass, where a holding fell meanwhile, is tested anew (R77): whatever comes of it, no test runs. -/
theorem retest_failed {s : State} {core : Nat} {q : GReq} {c : Crew} {r : Group} (hc : s.crew? core q.crew = some c)
    (h : WaitsAt s { core := core, slot := q.slot } r) (wait : r.wait = .grant) (idle : (s.core core).test = none)
    (only : (s.core core).deferred = [q]) :
    ((s.retest core).core core).test = none ∧ (s.retest core).mem = s.mem ∧ (s.retest core).vreg = s.vreg := by
  have eq : s.retest core = s.retestList core [q] := by
    simp only [State.retest, idle, only, Option.isSome_none, Bool.false_eq_true, if_false]
  have mem : (s.retest core).mem = s.mem := congrArg Prod.fst (s.memory_retest core)
  obtain ⟨drop, keeps, fatal | granted | same⟩ := State.retestList_singleton hc h.group
  · refine ⟨?_, mem, ?_⟩
    · rw [eq, fatal, State.core_crewFatal_test, State.core_modCore_self, (keeps _).1, idle]
    · rw [eq, fatal]
      exact State.crewFatal_vreg ..
  · have rest := (s.modCore core drop).applyHold_eq core q.crew q.req
    have cores : ((s.modCore core drop).applyHold core q.crew q.req).core core = drop (s.core core) := by
      rw [rest]
      exact State.core_modCore_self ..
    have h' : WaitsAt ((s.modCore core drop).applyHold core q.crew q.req) { core := core, slot := q.slot } r := by
      refine h.of_same ?_ ?_ ?_
      · rw [rest]; rfl
      · rw [rest]; rfl
      · rw [cores, (keeps _).2]
    have resumed := State.resumeGrant_of_waitsAt h' wait
    refine ⟨?_, mem, ?_⟩
    · rw [eq, granted, resumed]
      exact (congrArg Core.test cores).trans ((keeps _).1.trans idle)
    · rw [eq, granted, resumed, State.putGroup_vreg, State.addFree, State.modCrew_vreg, rest]
      rfl
  · exact ⟨by rw [eq, same, idle], mem, by rw [eq, same]⟩

/-! ### RGSUR and RGCLM (R73, R123) -/

/-- The granules that a group gains are zero, and no other register changes (R52, R73). -/
theorem State.vreg_zeroGranules (s : State) (uid lo n : Nat) :
    (∀ i < 32 * n, ∀ l < 32, tget 0 (s.zeroGranules uid lo (lo + n)).vreg (vkey uid (32 * lo + i) l) = 0) ∧
    ∀ k, (∀ i < 32 * n, ∀ l < 32, k ≠ vkey uid (32 * lo + i) l) →
      tget 0 (s.zeroGranules uid lo (lo + n)).vreg k = tget 0 s.vreg k := by
  have cleared (k : Nat) : tget 0 (s.zeroGranules uid lo (lo + n)).vreg k =
      if vkey uid (32 * lo) 0 ≤ k ∧ k < vkey uid (32 * (lo + n)) 0 then 0 else tget 0 s.vreg k := tget_tclear ..
  constructor
  · intro i hi l hl
    rw [cleared, if_pos]
    simp only [vkey]
    omega
  · intro k hk
    rw [cleared, if_neg]
    rintro ⟨above, below⟩
    simp only [vkey] at above below hk
    exact hk ((k - (uid * 256 + 32 * lo) * 32) / 32) (by omega) (k % 32) (by omega) (by omega)

section

variable {f : Fields} {s : State} {g : Gid} {r : Group} {c : Crew} {x : Form}

theorem exec_rgsur_given (h : Issues (.rgsur f) x s g r) (own : r.isPacked = false) (fewer : f.imm.toNat < r.gran)
    (free : s.regsHeld r.uid (32 * (r.gran - f.imm.toNat)) = false) :
    let u := (s.countIssue g (s.useful r f)).addFree g.core r.crew f.imm.toNat
    exec (.rgsur f) s = .next (u.putGroup g { u.keepHalt g r { r.next f with gran := r.gran - f.imm.toNat } with wskip := false }) := by
  have free' : (s.countIssue g (s.useful r f)).regsHeld r.uid (32 * (r.gran - f.imm.toNat)) = false := free
  refine h.exec_done rfl (exec_rgsur f s) (Nat.zero_le _) ?_
  simp only [own, fewer.not_ge, free', Bool.false_eq_true, if_false]

theorem rgsur_faults (own : r.isPacked = false) (all : r.gran ≤ f.imm.toNat) : Faults (.rgsur f) s r Code.claimx :=
  .of rfl (exec_rgsur f s) (Nat.zero_le _) fun _ _ => by simp only [own, all, Bool.false_eq_true, if_false, if_true]

theorem rgsur_packed (packed : r.isPacked = true) : Faults (.rgsur f) s r Code.repackx :=
  .of rfl (exec_rgsur f s) (Nat.zero_le _) fun _ _ => by simp only [packed, if_true]

theorem rgclm_faults (own : r.isPacked = false) (many : 8 < r.gran + f.imm.toNat) : Faults (.rgclm f) s r Code.claimx :=
  .of rfl (exec_rgclm f s) (Nat.zero_le _) fun _ _ => by simp only [own, many, Bool.false_eq_true, if_false, if_true]

theorem rgclm_packed (packed : r.isPacked = true) : Faults (.rgclm f) s r Code.repackx :=
  .of rfl (exec_rgclm f s) (Nat.zero_le _) fun _ _ => by simp only [packed, if_true]

/-- The state in which a group has taken granules of its crew, of which `rgq` wait on. -/
def State.takeGranules (s : State) (g : Gid) (r : Group) (c : Crew) (n : Nat) (rgq : List (Nat × Nat)) : State :=
  (s.putCrew g.core r.crew { c with free := c.free - n, rgq := rgq }).zeroGranules r.uid r.gran (r.gran + n)

section

variable (own : r.isPacked = false) (few : r.gran + f.imm.toNat ≤ 8) (hc : s.crew? g.core r.crew = some c)
include own few hc

theorem exec_rgclm_taken (h : Issues (.rgclm f) x s g r) (enough : f.imm.toNat ≤ c.free) (first : c.rgq = []) :
    exec (.rgclm f) s = .next (((s.countIssue g (s.useful r f)).takeGranules g r c f.imm.toNat []).putGroup g
      { r.next f with gran := r.gran + f.imm.toNat, wait := .none, wskip := false }) := by
  refine h.exec_done_same rfl (exec_rgclm f s) (Nat.zero_le _)
    (s' := (s.countIssue g (s.useful r f)).takeGranules g r c f.imm.toNat [])
    (r' := { r.next f with gran := r.gran + f.imm.toNat, wait := .none }) ?_ rfl
  dsimp only
  rw [State.crewOf_countIssue, State.crewOf_of_crew? hc, own, if_neg Bool.false_ne_true, if_neg few.not_gt,
    if_neg (by simp [h.first]), if_pos (by simp [first, enough]), first]
  rfl

theorem exec_rgclm_waits (h : Issues (.rgclm f) x s g r) (later : c.free < f.imm.toNat ∨ c.rgq ≠ []) :
    exec (.rgclm f) s = .next
      (((s.countIssue g (s.useful r f)).putCrew g.core r.crew { c with rgq := c.rgq ++ [(g.slot, f.imm.toNat)] }).putGroup g
        { r with wait := .rgclm f.imm.toNat, ins := f, insSh := shapeGran f, wskip := false }) := by
  refine h.exec_hold rfl (exec_rgclm f s) (Nat.zero_le _)
    (s' := (s.countIssue g (s.useful r f)).putCrew g.core r.crew { c with rgq := c.rgq ++ [(g.slot, f.imm.toNat)] })
    (r' := { r with wait := .rgclm f.imm.toNat }) ?_ rfl
  dsimp only
  rw [State.crewOf_countIssue, State.crewOf_of_crew? hc, own, if_neg Bool.false_ne_true, if_neg few.not_gt,
    if_neg (by simp [h.first]), if_neg]
  rcases later with later | later <;> simp [later]

theorem exec_rgclm_served (h : Continues (.rgclm f) x s g r) (wait : r.wait = .rgclm f.imm.toNat) {rest : List (Nat × Nat)}
    (oldest : c.rgq = (g.slot, f.imm.toNat) :: rest) (enough : f.imm.toNat ≤ c.free) :
    exec (.rgclm f) s = .next ((s.takeGranules g r c f.imm.toNat rest).putGroup g
      { r.next f with gran := r.gran + f.imm.toNat, wait := .none, wskip := false }) := by
  refine h.exec_done_same rfl (exec_rgclm f s) (Nat.zero_le _) (s' := s.takeGranules g r c f.imm.toNat rest)
    (r' := { r.next f with gran := r.gran + f.imm.toNat, wait := .none }) ?_ rfl
  dsimp only
  rw [State.crewOf_of_crew? hc, own, if_neg Bool.false_ne_true, if_neg few.not_gt, if_pos wait,
    if_pos (by simp [oldest, Crew.rgclmDue, enough]), oldest]
  rfl

theorem exec_rgclm_waits_on (h : Continues (.rgclm f) x s g r) (wait : r.wait = .rgclm f.imm.toNat)
    (later : c.rgq.head? ≠ some (g.slot, f.imm.toNat) ∨ c.free < f.imm.toNat) : exec (.rgclm f) s = .next s := by
  refine h.exec_retry rfl (exec_rgclm f s) (Nat.zero_le _) ?_
  dsimp only
  rw [State.crewOf_of_crew? hc, own, if_neg Bool.false_ne_true, if_neg few.not_gt, if_pos wait, if_neg]
  rcases later with later | later
  · simp [later]
  · cases hq : c.rgq with
    | nil => simp
    | cons e rest =>
      simp only [List.head?_cons, Crew.rgclmDue, hq, Bool.and_eq_true, decide_eq_true_eq, Option.some.injEq, not_and]
      rintro rfl
      omega

end

end

/-! ### CLQRY (R124) -/

theorem clqry_completes {f : Fields} {s : State} {g : Gid} {r : Group} {c : Crew} {x : Form} (hc : s.crew? g.core r.crew = some c)
    (h : Issues (.clqry f) x s g r) : Completes (.clqry f) x s g r { after := r.next f, g := [(f.d.toNat,
      if f.fnIs 0 then c.hold.bits else if f.fnIs 1 then c.max.bits else if f.fnIs 2 then (c.max.sub c.hold).bits
      else if f.fnIs 3 then (s.avail g.core).bits else BitVec.ofNat 64 (r.gran + c.free * 2 ^ 8))] } := by
  obtain rfl := h.form_eq (x' := ⟨false, 0xB8, f, shapeClqry f⟩) rfl
  refine Completes.of_ok (post := []) h (lvl := 0) (Nat.zero_le _) (exec_clqry f s)
    (s' := (s.countIssue g (s.useful r f)).setG r f.d.toNat _) ?_ (.inl rfl) rfl (.none rfl) (.none rfl) (.one rfl)
  dsimp only
  rw [State.crewOf_countIssue, State.crewOf_of_crew? hc]
  unfold Fields.fnIs Res.done
  congr 2
  rcases f.fn.toNat with _ | _ | _ | _ | n
  · rfl
  · rfl
  · rfl
  · rfl
  · simp

/-! ### The statements -/

theorem Claims.claimAndRelease : Claims.ClaimAndRelease := by
  constructor
  · intro f s g r c hc req q fits safe s1 top
    refine ⟨fun none => .plain rfl (exec_claim f s) (Nat.zero_le _) fun _ _ => if_pos none,
      fun x h some_ within fast => claim_grants h hc some_ within fast,
      fun x h some_ within fast => exec_claim_granted h hc some_ within fast,
      fun x h some_ within slow idle => exec_claim_tested h hc some_ within slow idle,
      fun x h some_ beyond => exec_claim_claimx h hc some_ beyond,
      fun x h only rg sg ch ms scratch rows => release_frees h hc only rg sg ch ms scratch rows,
      fun x h rg sg ch ms scratch rows => exec_release_freed h hc rg sg ch ms scratch rows,
      fun x h more => exec_release_claimx h hc more⟩
  · intro s core q safe c r g ht hc h wait only ended
    have ended_eq : s.testOver core q = ended := rfl
    have again : safe = false → (s.core core).fell = true → exec (.fullTestEnd core) s =
        .next ((ended.modCore core fun x => { x with deferred := x.deferred ++ [q] }).retest core) := fun hs fell => by
      rw [exec_fullTestEnd_failed ht hs, if_pos fell]
      rfl
    refine ⟨again, ?_⟩
    cases safe with
    | true =>
      obtain ⟨t, runs, group, crew, cores, mem, vreg, -⟩ := fullTestEnd_grants ht hc h wait
      exact ⟨t, runs, by rw [cores], mem, vreg, fun _ => ⟨group, crew⟩, nofun⟩
    | false =>
      cases fell : (s.core core).fell with
      | true =>
        let u := ended.modCore core fun x => { x with deferred := x.deferred ++ [q] }
        have at_ : u.core core = { s.core core with test := none, fell := false, deferred := [q] } := by
          simp [u, ended, only]
        obtain ⟨test, mem, vreg⟩ := retest_failed (s := u) (State.crew?_testOver hc)
          (h.of_same rfl rfl (by simp [g, at_])) wait (by rw [at_]) (by rw [at_])
        exact ⟨_, again rfl fell, test, mem, vreg, nofun, fun _ no => by simp at no⟩
      | false =>
        have none_deferred : (ended.core core).deferred = [] := by simp [ended, only]
        have same : ended.retest core = ended := by
          rw [State.retest_of_none_deferred none_deferred]
          simp [ended]
        have done : exec (.fullTestEnd core) s = .next (ended.modCore core fun x => { x with deferred := x.deferred ++ [q] }) := by
          rw [exec_fullTestEnd_failed ht rfl, fell, if_neg Bool.false_ne_true, ended_eq, same]
        refine ⟨_, done, ?_, rfl, rfl, nofun, fun _ _ => ⟨h.group, ?_, State.crew?_testOver hc⟩⟩
        · simp [ended]
        · simp [ended, only]

theorem Claims.fullTestEnds : Claims.FullTestEnds := by
  intro s core q safe ht ended defer
  refine ⟨fun hs => exec_fullTestEnd_failed ht hs, fun c r hs hc h wait => ?_⟩
  subst hs
  obtain ⟨t, runs, group, crew, cores, mem, -, zero⟩ := fullTestEnd_grants ht hc h wait
  exact ⟨t, _, runs, group, crew, rfl, rfl, rfl, by rw [cores], by rw [cores], mem, zero⟩

theorem Claims.granulesAndQueries : Claims.GranulesAndQueries := by
  constructor
  · intro f s g r c hc n crewIs
    refine ⟨fun x h own fewer free => exec_rgsur_given h own fewer free, fun x h own fewer free => ?rgsur,
      fun x h own few enough first => ?taken, fun x h own few later => ?waits, rgsur_faults, rgclm_faults,
      fun packed => ⟨rgsur_packed packed, rgclm_packed packed⟩, fun x h => clqry_completes hc h⟩
    case rgsur =>
      let u := (s.countIssue g (s.useful r f)).addFree g.core r.crew f.imm.toNat
      have done : exec (.rgsur f) s = .next (u.putGroup g { r.next f with gran := r.gran - f.imm.toNat, wskip := false }) :=
        (exec_rgsur_given h own fewer free).trans (by rw [State.keepHalt_of_groups (u := u) rfl h.group])
      exact ⟨_, done, State.crew?_addFree (s := s.countIssue g (s.useful r f)) hc n, rfl⟩
    case taken =>
      obtain ⟨zero, others⟩ := State.vreg_zeroGranules ((s.countIssue g (s.useful r f)).putCrew g.core r.crew
        { c with free := c.free - n, rgq := [] }) r.uid r.gran n
      refine ⟨_, exec_rgclm_taken own few hc h enough first, ?_, ?_, zero, others⟩
      · exact (State.crew?_putCrew_self ..).trans (by rw [← first])
      · have same : ({ r.next f with gran := r.gran + n, wait := .none, wskip := false } : Group) =
            { r.next f with gran := r.gran + n, wskip := false } := by
          have wait : (r.next f).wait = .none := h.first
          rw [← wait]
        exact congrArg (fun r' => ((s.countIssue g (s.useful r f)).takeGranules g r c n []).putGroup g r') same
    case waits =>
      exact ⟨_, exec_rgclm_waits own few hc h later, State.crew?_putCrew_self .., rfl⟩
  · intro f s g r c x h hc n wait own few
    refine ⟨fun rest oldest enough => ?_, fun later => exec_rgclm_waits_on own few hc h wait later⟩
    obtain ⟨zero, others⟩ := State.vreg_zeroGranules (s.putCrew g.core r.crew { c with free := c.free - n, rgq := rest })
      r.uid r.gran n
    exact ⟨_, exec_rgclm_served own few hc h wait oldest enough, rfl, State.crew?_putCrew_self ..,
      State.group?_putGroup_self .., zero, others⟩

/-- Settles O28: each clause is the equation of its instruction or event, read off. -/
theorem claimsGranulesQueries : Obligations.ClaimsGranulesQueries :=
  ⟨Claims.claimAndRelease, Claims.fullTestEnds, Claims.granulesAndQueries⟩

end Sys2Proof.Machine

/-! ## SPAWN, SPAWN_RECORD_START and OVERFLOW_RING_MOVE (R80 to R82, R114, R115) -/

namespace Sys2Proof.Machine

/-! ### Counting the issue slot touches no translation and no spawn record -/

section

variable (s : State) (g : Gid) (b : Bool)

theorem State.core_countIssue_eq (n : Nat) :
    (s.countIssue g b).core n = { s.core n with leaf := ((s.countIssue g b).core n).leaf } := by
  rw [State.core_countIssue]
  split <;> rfl

@[simp] theorem State.lookup_countIssue (core asid va : Nat) : (s.countIssue g b).lookup core asid va = s.lookup core asid va := by
  have hit : (s.countIssue g b).lookupHit core asid va = s.lookupHit core asid va := by
    unfold State.lookupHit
    rw [State.core_countIssue_eq]
    rfl
  unfold State.lookup
  rw [hit]
  rfl

@[simp] theorem State.homeOf_countIssue (core asid va n acc : Nat) (write : Bool) :
    (s.countIssue g b).homeOf core asid va n acc write = s.homeOf core asid va n acc write := by
  have tr : (s.countIssue g b).translate core asid va acc write false = s.translate core asid va acc write false := by
    unfold State.translate
    rw [State.lookup_countIssue]
    rfl
  unfold State.homeOf
  rw [tr]
  rfl

end

/-! ### Where a spawn record goes (R80, R82) -/

/-- Whether the core's pool takes a spawn record: it has room, and no older record stands in the ring. -/
def Core.poolTakes (co : Core) : Bool := co.pool.length < 64 && co.ring.isEmpty

/-- Whether a partition's overflow ring, of `2 ^ n` places for each core, has no place left. -/
def Core.ringFull (co : Core) (n : Nat) : Bool := n = 0 || decide (2 ^ n ≤ (co.ringW - co.ringR).toNat)

theorem Core.poolTakes_iff (co : Core) : co.poolTakes = true ↔ co.pool.length < 64 ∧ co.ring = [] := by
  simp [Core.poolTakes]

theorem Core.poolTakes_eq_false {co : Core} (h : 64 ≤ co.pool.length ∨ co.ring ≠ []) : co.poolTakes = false := by
  rw [← Bool.not_eq_true, Core.poolTakes_iff]
  rintro ⟨room, none⟩
  rcases h with full | some_
  · omega
  · exact some_ none

theorem Core.ringFull_iff (co : Core) (n : Nat) : co.ringFull n = true ↔ n = 0 ∨ 2 ^ n ≤ (co.ringW - co.ringR).toNat := by
  simp [Core.ringFull]

section

variable (s : State) (me : Party) (part core : Nat) (rec_ : SpawnRec)

/-- Where a spawn record goes, said once. -/
theorem State.placeSpawn_eq : s.placeSpawn me part core rec_ =
    if (s.core core).poolTakes then .ok (s.modCore core fun c => { c with pool := c.pool ++ [rec_] })
    else if (s.core core).ringFull (s.spovf part).2 then .full
    else match s.homeStore me noCore (s.fasid part) (s.ringSlot part core (s.core core).ringW.toNat) Acc.spawn rec_.bytes with
      | .error fr => .fault fr
      | .ok s' => .ok (s'.modCore core fun c =>
          { c with ringW := c.ringW + 1, ring := c.ring ++ [(c.ringW.toNat, rec_.crewUid)] }) := rfl

theorem State.spawnLinked_eq : s.spawnLinked part core =
    if (s.core core).poolTakes || (s.core core).ringFull (s.spovf part).2 then none
    else if s.placeLinked noCore (s.fasid part) (s.ringSlot part core (s.core core).ringW.toNat) 64 Acc.spawn true
      then some (s.ringSlot part core (s.core core).ringW.toNat) else none := by
  simp only [State.spawnLinked, Core.poolTakes, Core.ringFull, Bool.or_assoc] <;> rfl

variable (g : Gid) (b : Bool)

@[simp] theorem State.poolTakes_countIssue (n : Nat) : ((s.countIssue g b).core n).poolTakes = (s.core n).poolTakes := by
  rw [State.core_countIssue_eq]
  rfl

@[simp] theorem State.ringFull_countIssue (n k : Nat) : ((s.countIssue g b).core n).ringFull k = (s.core n).ringFull k := by
  rw [State.core_countIssue_eq]
  rfl

@[simp] theorem State.ringW_countIssue (n : Nat) : ((s.countIssue g b).core n).ringW = (s.core n).ringW := by
  rw [State.core_countIssue_eq]

@[simp] theorem State.spawnLinked_countIssue : (s.countIssue g b).spawnLinked part core = s.spawnLinked part core := by
  have linked (asid va n acc : Nat) (write : Bool) :
      (s.countIssue g b).placeLinked noCore asid va n acc write = s.placeLinked noCore asid va n acc write := by
    unfold State.placeLinked
    rw [State.homeOf_countIssue]
  rw [State.spawnLinked_eq, State.spawnLinked_eq, State.poolTakes_countIssue, State.ringFull_countIssue, linked,
    State.ringW_countIssue]
  rfl

end

/-! ### SPAWN (R114) -/

/-- The record that SPAWN makes (R115). -/
def State.spawnRec (s : State) (g : Gid) (r : Group) (f : Fields) : SpawnRec :=
  { entry := f.i32, crewSlot := r.crew, gran := f.fn.toNat + 1, arg := s.gr r f.a.toNat, argp := (s.crewOf g r).argp
    crewUid := (s.crewOf g r).uid }

section

variable {f : Fields} {s : State} {g : Gid} {r : Group} {x : Form} (h : Issues (.spawn f) x s g r) (own : r.isPacked = false)
include h own

theorem exec_spawn_claimx (many : (s.crewOf g r).max.rg < f.fn.toNat + 1) :
    exec (.spawn f) s = .next ((s.countIssue g (s.useful r f)).crewFatal g r { code := Code.claimx }) := by
  refine h.exec_fatal rfl (exec_spawn f s) (Nat.zero_le _) ?_
  simp only [State.crewOf_countIssue, own, many, Bool.false_eq_true, if_true, if_false]

variable (few : f.fn.toNat + 1 ≤ (s.crewOf g r).max.rg)
include few

theorem exec_spawn_pooled (room : (s.core g.core).poolTakes = true) : exec (.spawn f) s = .next
    (((s.countIssue g (s.useful r f)).modCore g.core fun c => { c with pool := c.pool ++ [s.spawnRec g r f] }).putGroup g
      { r.next f with wait := .none, wskip := false }) := by
  refine h.exec_done_same rfl (exec_spawn f s) (Nat.zero_le _) (r' := { r.next f with wait := .none }) ?_ rfl
  simp only [State.crewOf_countIssue, own, few.not_gt, Bool.false_eq_true, if_false, State.spawnLinked_eq, room,
    Bool.true_or, if_true, ite_self, State.placeSpawn_eq, State.poolTakes_countIssue]
  rfl

theorem exec_spawn_waits (none_ : (s.core g.core).poolTakes = false)
    (full : (s.core g.core).ringFull (s.spovf (s.partOf (s.crewOf g r).asid)).2 = true) : exec (.spawn f) s = .next
    ((s.countIssue g (s.useful r f)).putGroup g { r with wait := .spawn, ins := f, insSh := shapeSpawn f, wskip := false }) := by
  refine h.exec_hold rfl (exec_spawn f s) (Nat.zero_le _) (r' := { r with wait := .spawn }) ?_ rfl
  have spovf (p : Nat) : (s.countIssue g (s.useful r f)).spovf p = s.spovf p := rfl
  have partOf : (s.countIssue g (s.useful r f)).partOf = s.partOf := rfl
  simp only [State.crewOf_countIssue, own, few.not_gt, Bool.false_eq_true, if_false, partOf, State.spawnLinked_eq, none_, full,
    Bool.or_true, if_true, ite_self, State.placeSpawn_eq, State.poolTakes_countIssue, State.ringFull_countIssue, spovf, h.first,
    reduceCtorEq]

theorem exec_spawn_overflows (none_ : (s.core g.core).poolTakes = false)
    (place : (s.core g.core).ringFull (s.spovf (s.partOf (s.crewOf g r).asid)).2 = false)
    (unlinked : r.linkBad = true → s.spawnLinked (s.partOf (s.crewOf g r).asid) g.core = none) {t : State}
    (stored : (s.countIssue g (s.useful r f)).homeStore (.group r.uid) noCore (s.fasid (s.partOf (s.crewOf g r).asid))
      (s.ringSlot (s.partOf (s.crewOf g r).asid) g.core (s.core g.core).ringW.toNat) Acc.spawn (s.spawnRec g r f).bytes = .ok t)
    (groups : t.groups = s.groups) : exec (.spawn f) s = .next
    ((t.modCore g.core fun x => { x with ringW := x.ringW + 1, ring := x.ring ++ [(x.ringW.toNat, (s.crewOf g r).uid)] }).putGroup
      g { r.next f with wait := .none, wskip := false }) := by
  refine h.exec_done_same rfl (exec_spawn f s) (Nat.zero_le _) (r' := { r.next f with wait := .none }) ?_ groups
  have unlinked' : (if r.linkBad then s.spawnLinked (s.partOf (s.crewOf g r).asid) g.core else none) = none := by
    split
    · exact unlinked ‹_›
    · rfl
  have spovf (p : Nat) : (s.countIssue g (s.useful r f)).spovf p = s.spovf p := rfl
  have partOf : (s.countIssue g (s.useful r f)).partOf = s.partOf := rfl
  have fasid : (s.countIssue g (s.useful r f)).fasid = s.fasid := rfl
  have slot : (s.countIssue g (s.useful r f)).ringSlot = s.ringSlot := rfl
  have made : ({ entry := f.i32, crewSlot := r.crew, gran := f.fn.toNat + 1, arg := s.gr r f.a.toNat
                 argp := (s.crewOf g r).argp, crewUid := (s.crewOf g r).uid } : SpawnRec) = s.spawnRec g r f := rfl
  simp only [State.crewOf_countIssue, own, few.not_gt, Bool.false_eq_true, if_false, State.spawnLinked_countIssue, partOf,
    unlinked', State.placeSpawn_eq, State.poolTakes_countIssue, none_, State.ringFull_countIssue, spovf, place, fasid, slot,
    State.ringW_countIssue, State.gr_countIssue, made, stored]
  rfl

end

/-! ### SPAWN_RECORD_START (R80) -/

section

variable (s : State) (core slot : Nat) (c : Crew) (gslot grp gran : Nat) (entry : W32) (arg argp : W64) (spawned : Bool)

/-- What a group's start leaves: a number used, a group, two of its G registers (R71). -/
theorem State.startGroup_eq : s.startGroup core slot c gslot grp gran entry arg argp spawned =
    { s with nextId := s.nextId + 1
             groups := (s.startGroup core slot c gslot grp gran entry arg argp spawned).groups
             greg := tset 0 (tset 0 s.greg (gkey s.nextId 0) argp) (gkey s.nextId 1) arg } := rfl

theorem State.group?_startGroup_self : (s.startGroup core slot c gslot grp gran entry arg argp spawned).group?
    { core := core, slot := gslot } =
      some (({ crew := slot, uid := s.nextId, grp := grp, gran := gran, spawned := spawned } : Group).goto
        (c.kcode + entry.setWidth 64)) :=
  State.group?_putGroup_self ..

theorem State.greg_startGroup (k : Nat) : tget 0 (s.startGroup core slot c gslot grp gran entry arg argp spawned).greg k =
    if k = gkey s.nextId 1 then arg else if k = gkey s.nextId 0 then argp else tget 0 s.greg k := by
  rw [State.startGroup_eq]
  simp only [tget_tset]

theorem State.greg_startGroup_zero :
    tget 0 (s.startGroup core slot c gslot grp gran entry arg argp spawned).greg (gkey s.nextId 0) = argp := by
  rw [State.greg_startGroup, if_neg, if_pos rfl]
  simp only [gkey]
  omega

theorem State.greg_startGroup_one :
    tget 0 (s.startGroup core slot c gslot grp gran entry arg argp spawned).greg (gkey s.nextId 1) = arg := by
  rw [State.greg_startGroup, if_pos rfl]

end

theorem State.crew?_of_crewByUid {s : State} {core slot uid : Nat} {c : Crew} (h : s.crewByUid core slot uid = some c) :
    s.crew? core slot = some c := by
  unfold State.crewByUid at h
  cases hc : s.crew? core slot with
  | none => simp [hc] at h
  | some c' =>
    simp only [hc, Option.ite_none_right_eq_some] at h
    rw [← h.2]

theorem State.crew?_modCrew_of_crew? {s : State} {core slot : Nat} {c : Crew} (hc : s.crew? core slot = some c)
    (f : Crew → Crew) : (s.modCrew core slot f).crew? core slot = some (f c) := by
  rw [State.crew?_modCrew_self, hc]
  rfl

theorem exec_spawnRecordStart_starts {s : State} {core k : Nat} {rec_ : SpawnRec} {c : Crew} {gs : Nat} {more : List Nat}
    (pooled : (s.core core).pool[k]? = some rec_) (oldest : ∀ p ∈ (s.core core).pool.take k, p.crewUid ≠ rec_.crewUid)
    (crew : s.crewByUid core rec_.crewSlot rec_.crewUid = some c) (going : c.stop = none) (here : c.saving = false)
    (free : s.freeSlots core = gs :: more) (room : s.tentSlots core ≤ more.length)
    (few : s.groupCount core rec_.crewSlot c < 16) (served : c.rgclmDue = false) (enough : rec_.gran ≤ c.free) :
    exec (.spawnRecordStart core k) s = .next
      (((s.putCore core { s.core core with pool := (s.core core).pool.eraseIdx k }).modCrew core rec_.crewSlot
        fun c => { c with free := c.free - rec_.gran }).startGroup core rec_.crewSlot c gs (s.freeGrp core rec_.crewSlot c)
          rec_.gran rec_.entry rec_.arg rec_.argp true) := by
  have first : ((s.core core).pool.take k).any (fun x => x.crewUid == rec_.crewUid) = false := by
    simpa [List.any_eq_false] using oldest
  rw [exec_spawnRecordStart, execSpawnRecordStart]
  simp only [pooled, crew, free, first, going, here, served, few.not_ge, enough.not_gt, List.length_cons,
    (Nat.lt_succ_of_le room).not_ge, Option.isSome_none, decide_false, Bool.or_false, Bool.false_eq_true, if_false]
  rfl

/-! ### OVERFLOW_RING_MOVE (R81) -/

theorem exec_overflowRingMove_moves {s : State} {core part i uid pa : Nat} {rest : List (Nat × Nat)} {rec_ : SpawnRec}
    (owner : s.partOfCore core = some part) (ring : (s.core core).ring = (i, uid) :: rest)
    (room : (s.core core).pool.length < 64) (read : s.ringRec part core i uid = .ok rec_)
    (place : s.homeOf noCore (s.fasid part) (s.ringSlot part core i) 64 Acc.spawn false = .ok pa) :
    exec (.overflowRingMove core) s = .next ((s.readElsewhere pa 64).putCore core { s.core core with
      pool := (s.core core).pool ++ [rec_], ring := rest
      ringR := if rest = [] then (s.core core).ringW else BitVec.ofNat 32 (i + 1) }) := by
  rw [exec_overflowRingMove, execOverflowRingMove]
  simp only [owner, ring, room.not_ge, read, place, if_false, List.isEmpty_iff]

/-! ### The statement -/

/-- Settles O35: SPAWN by where its record goes, then its two events, each by the equation of its step. -/
theorem spawning : Obligations.Spawning := by
  refine ⟨fun f s r packed => ?repackx, fun f s g r x h own => ?spawn, fun s core => ⟨?start, ?move⟩⟩
  case repackx =>
    exact .of rfl (exec_spawn f s) (Nat.zero_le _) fun _ _ => by simp only [packed, if_true]
  case spawn =>
    refine ⟨fun few room none_ => ?_, fun t few over_ some_ place unlinked stored groups => ?_,
      fun few over_ full => ?_, fun many => exec_spawn_claimx h own many⟩
    · exact exec_spawn_pooled h own few ((Core.poolTakes_iff _).mpr ⟨room, none_⟩)
    · refine exec_spawn_overflows h own few (Core.poolTakes_eq_false over_) ?_ unlinked stored groups
      rw [← Bool.not_eq_true, Core.ringFull_iff, not_or, not_le]
      exact ⟨some_, place⟩
    · exact exec_spawn_waits h own few (Core.poolTakes_eq_false over_) ((Core.ringFull_iff ..).mpr full)
  case start =>
    intro k rec_ c gs more pooled oldest crew going here free room few served enough
    have hc := State.crew?_of_crewByUid crew
    refine ⟨_, s.freeGrp core rec_.crewSlot c,
      exec_spawnRecordStart_starts pooled oldest crew going here free room few served enough, rfl, ?_, ?_,
      State.group?_startGroup_self .., State.greg_startGroup_zero .., State.greg_startGroup_one ..⟩
    · exact congrArg Core.pool (State.core_putCore_self s core _)
    · exact State.crew?_modCrew_of_crew? (s := s.putCore core _) hc fun c => { c with free := c.free - rec_.gran }
  case move =>
    intro part i uid rest rec_ pa owner ring room read place
    exact exec_overflowRingMove_moves owner ring room read place

end Sys2Proof.Machine

/-! ## EXIT and CREW_RETIRE (R89, R99, R100) -/

namespace Sys2Proof.Machine

/-- A handler group of two threads in slot 0, whose lane 0 is to exit. -/
def exitingHandler : Group := { crew := 0, uid := 1, kind := .handler false, exec := 1, live := 3, orig := [0] }

/-- The group in slot 0 that the thread of lane 0 came from: none of its threads is live. -/
def deadOrigin : Group := { crew := 0, uid := 2, live := 0 }

def deadOriginParked : State :=
  { State.reset with
    actor := .grp { core := 0, slot := 0, hnd := true }
    groups := [(gidKey { core := 0, slot := 0 }, deadOrigin), (gidKey { core := 0, slot := 0, hnd := true }, exitingHandler)] }

theorem deadOriginParked_issues : Issues (.exit {}) ⟨false, 0x02, {}, shapeExit {}⟩ deadOriginParked
    { core := 0, slot := 0, hnd := true } exitingHandler where
  form := rfl
  legal := by decide
  actor := rfl
  group := rfl
  level := by decide
  extent := by decide
  guard := by decide
  free := by decide
  owed := by decide
  first := rfl
  unwatched := by unfold State.unwatched; decide

/-- The EXIT takes the parked group away with the thread. -/
theorem deadOriginParked_exit :
    ∃ t, exec (.exit {}) deadOriginParked = .next t ∧ t.group? { core := 0, slot := 0 } = none :=
  ⟨_, rfl, by decide⟩

/-- Refutes O34: the clause about the exit of a handler group's lane asks of the parked group only that its live mask
is not the leaving lane alone. In `deadOriginParked` that mask is 0: with the thread's leaving the parked group has no
live thread, no outbox and no trap, so it ends (R100) and its slot frees, where the clause has it stand there still.
The premise that the clause needs is that another of its threads is live. -/
theorem not_exitAndRetire : ¬ Obligations.ExitAndRetire := by
  rintro ⟨⟨exits, -⟩, -⟩
  obtain ⟨-, -, -, -, leaves⟩ := exits {} deadOriginParked { core := 0, slot := 0, hnd := true } exitingHandler
  obtain ⟨t, ht, gone⟩ := deadOriginParked_exit
  obtain ⟨u, hu, -, -, -, stands⟩ := leaves _ false 0 deadOrigin deadOriginParked_issues rfl rfl (by decide) (by decide) rfl
    (by decide) (by decide) rfl rfl (by decide)
  obtain rfl := Host.Outcome.next.inj (ht.symm.trans hu)
  exact absurd (gone.symm.trans stands) (by decide)

end Sys2Proof.Machine

/-! ## Launching (R64, R250, R370) -/

namespace Sys2Proof.Machine

/-- A launch whose record fails R64, its code address no multiple of 32, and names a future at address 0; a link error
awaits the next access of its completion over a link. -/
def linkedLaunch : Launch := { words := [1, 2 ^ 35], linkBad := true }

/-- The launch has arrived at die 0, and the future's page, in the home slices' TLB, is a page of a peer that the domain's map
gives. -/
def linkedFuture : State :=
  { State.reset with
    dies := [(0, { arrivals := [0] })]
    launches := [(0, linkedLaunch)]
    ctl := [(0x4828, 2), (0x10000, 2 ^ 63)]
    cores := [(noCore, { tlb := [(tlbKey 0 1 0, (2 ^ 51 + 2 ^ 45 + 4, 1, 0))] })] }

theorem exists_ok_of_toOption_map {ε α β : Type} {x : Except ε α} {f : α → β} {b : β} (h : x.toOption.map f = some b) :
    ∃ u, x = .ok u ∧ f u = b := by
  cases x with
  | error e => nomatch h
  | ok u => exact ⟨u, rfl, Option.some.inj h⟩

/-- The poisoning itself, which no link error meets: the record of TASKINV stays the only one. -/
theorem linkedFuture_resolves : ∃ u,
    ((linkedFuture.putDie 0 { linkedFuture.die 0 with arrivals := [] }).taskInv (linkedFuture.partOf 0) 0 1 0).workResolve
      (.launch 0) 0 0 3 0 0 = .ok u ∧ u.records.length = 1 :=
  exists_ok_of_toOption_map (by decide +kernel)

/-- The validation: the poisoning meets the link error, and a record of ADDRV follows that of TASKINV. -/
theorem linkedFuture_validation : ∃ t, exec (.taskRecordValidation 0) linkedFuture = .next t ∧ t.records.length = 2 :=
  ⟨_, rfl, by decide⟩

/-- Refutes O33: the clause that poisons an invalid record's future has no premise on `linkBad`, as the clauses of
a completed grid have it. In `linkedFuture` a link error awaits the launch's next access over a link, and the future lies
over one: the access meets it with ADDRV (R370), the future is not poisoned and a second record is raised, where the
clause has the poisoning's state. -/
theorem not_launching : ¬ Obligations.Launching := by
  rintro ⟨-, events⟩
  obtain ⟨validation, -⟩ := events linkedFuture 0
  obtain ⟨-, -, poisons⟩ := validation 0 [] linkedLaunch rfl rfl
  obtain ⟨u, resolved, one⟩ := linkedFuture_resolves
  obtain ⟨t, validated, two⟩ := linkedFuture_validation
  have next := poisons 1 u (by decide) (by decide) (by decide) resolved
  obtain rfl := Host.Outcome.next.inj (validated.symm.trans next)
  have one' : (u.endLaunch 0).records.length = 1 := one
  exact absurd (two.symm.trans one') (by decide)

end Sys2Proof.Machine

/-! ## A crew's pre-emption, eviction and restore (R84 to R87, R147, R299, R331 to R333) -/

namespace Sys2Proof.Machine

/-! ### Marking a sheaf's crews -/

theorem crewKey_inj {i j k l : Nat} (hj : j < 16) (hl : l < 16) : crewKey i j = crewKey k l ↔ (i, j) = (k, l) := by
  simp only [crewKey, Prod.mk.injEq]
  omega

theorem crewKey_div_mod (n : Nat) : crewKey (n / 16) (n % 16) = n := by
  simp only [crewKey]
  omega

theorem State.slot_lt_of_mem_sheafOf {s : State} {c : Crew} {y : Nat × Nat} (h : y ∈ s.sheafOf c) : y.2 < 16 := by
  obtain ⟨e, -, he⟩ := List.mem_filterMap.mp h
  simp only [Option.ite_none_right_eq_some, Option.some.injEq] at he
  rw [← he.2]
  exact Nat.mod_lt _ (by decide)

theorem State.crew?_modCrew (s : State) (core slot : Nat) (f : Crew → Crew) (i k : Nat) :
    (s.modCrew core slot f).crew? i k = if crewKey core slot = crewKey i k then (s.crew? i k).map f else s.crew? i k := by
  rw [State.crew?, State.modCrew, tfind_tmod]
  simp only [eq_comm, State.crew?]

/-- A change made to the crews at several places. -/
def State.modCrews (s : State) (ks : List (Nat × Nat)) (f : Crew → Crew) : State :=
  ks.foldl (fun s k => s.modCrew k.1 k.2 f) s

theorem State.modCrews_eq (s : State) (ks : List (Nat × Nat)) (f : Crew → Crew) :
    s.modCrews ks f = { s with crews := (s.modCrews ks f).crews } := by
  induction ks generalizing s with
  | nil => rfl
  | cons y ks ih => exact ih (s.modCrew y.1 y.2 f)

theorem State.crew?_modCrews {f : Crew → Crew} (twice : ∀ x, f (f x) = f x) (s : State) (ks : List (Nat × Nat)) (i k : Nat) :
    (s.modCrews ks f).crew? i k =
      if ∃ y ∈ ks, crewKey y.1 y.2 = crewKey i k then (s.crew? i k).map f else s.crew? i k := by
  induction ks generalizing s with
  | nil => simp [State.modCrews]
  | cons y ks ih =>
    refine (ih (s.modCrew y.1 y.2 f)).trans ?_
    rw [State.crew?_modCrew]
    simp only [List.mem_cons, exists_eq_or_imp]
    by_cases here : crewKey y.1 y.2 = crewKey i k
    · cases s.crew? i k <;> simp [here, twice]
    · simp only [here, if_false, false_or]

/-- Where a save may begin, every crew of the sheaf is marked, and nothing else changes (R299). -/
theorem State.startSave_marks {s : State} {c : Crew}
    (still : ∀ k ∈ s.sheafOf c, s.inHandlers k.1 k.2 = false ∧ ∀ x, s.crew? k.1 k.2 = some x → x.stop = none)
    (frames : s.framesOk c = true) :
    s.startSave c = { s with crews := (s.startSave c).crews } ∧ ∀ i k x, k < 16 → s.crew? i k = some x →
      (s.startSave c).crew? i k = some (if (i, k) ∈ s.sheafOf c then { x with saving := true } else x) := by
  have none_stopped : ((s.sheafOf c).any fun k => s.inHandlers k.1 k.2 || (s.crew? k.1 k.2).any fun x => x.stop.isSome) = false := by
    rw [List.any_eq_false]
    intro k hk
    obtain ⟨calm, going⟩ := still k hk
    cases hx : s.crew? k.1 k.2 with
    | none => simp [calm]
    | some x => simp [calm, going x hx]
  have marks : s.startSave c = s.modCrews (s.sheafOf c) fun c => { c with saving := true } := by
    simp only [State.startSave, none_stopped, frames, Bool.not_true, Bool.or_self, Bool.false_eq_true, if_false]
    rfl
  rw [marks]
  refine ⟨State.modCrews_eq .., fun i k x hk hx => ?_⟩
  have same : (∃ y ∈ s.sheafOf c, crewKey y.1 y.2 = crewKey i k) ↔ (i, k) ∈ s.sheafOf c := by
    constructor
    · rintro ⟨y, hy, he⟩
      rwa [← (crewKey_inj (State.slot_lt_of_mem_sheafOf hy) hk).mp he]
    · exact fun h => ⟨(i, k), h, rfl⟩
  rw [State.crew?_modCrews (f := fun c => { c with saving := true }) fun _ => rfl, hx]
  simp only [same, Option.map_some]
  split <;> rfl

/-- A save that begins, or does not, changes no more of a crew than its mark. -/
theorem State.startSave_mark (s : State) (c : Crew) : s.startSave c = { s with crews := (s.startSave c).crews } ∧
    ∀ i k x, s.crew? i k = some x → ∃ x', (s.startSave c).crew? i k = some x' ∧ x' = { x with saving := x'.saving } := by
  unfold State.startSave
  split
  · exact ⟨rfl, fun i k x hx => ⟨x, hx, rfl⟩⟩
  · refine ⟨State.modCrews_eq s _ _, fun i k x hx => ?_⟩
    have read := State.crew?_modCrews (f := fun c => { c with saving := true }) (fun _ => rfl) s (s.sheafOf c) i k
    rw [hx] at read
    split at read
    · exact ⟨_, read, rfl⟩
    · exact ⟨_, read, rfl⟩

/-! ### PREEMPTION_REQUEST and FWAIT_EXPIRY (R84, R299) -/

@[simp] theorem State.die_putDie_self (s : State) (n : Nat) (d : Die) : (s.putDie n d).die n = d := by
  simp [State.die, State.putDie, tfind_tput_self]

theorem exec_fwaitExpiry_saves {s : State} {g : Gid} {r : Group} {c : Crew} (group : s.group? g = some r)
    (hc : s.crew? g.core r.crew = some c) (page : r.onPage = true) (own : g.hnd = false) :
    exec (.fwaitExpiry g) s = .next (s.startSave c) := by
  rw [exec_fwaitExpiry, execFwaitExpiry]
  simp only [group, State.crewOf_of_crew? hc, page, own, Bool.not_true, Bool.or_self, Bool.false_eq_true, if_false]

/-- What a request named by its die does to its crew (R84). -/
theorem preemptionRequest_marks {s : State} {core slot : Nat} {c : Crew} (hc : s.crew? core slot = some c)
    (named : (core, c.uid) ∈ (s.die (dieOf core)).preReqs) :
    ∃ t c', exec (.preemptionRequest core slot) s = .next t ∧ t = { s with dies := t.dies, crews := t.crews } ∧
      t.crew? core slot = some c' ∧ c' = { c with preempt := true, saving := c'.saving } ∧
      (core, c.uid) ∉ (t.die (dieOf core)).preReqs := by
  let d := s.die (dieOf core)
  let gone := fun (x : Nat × Nat) => x.1 == core && !(s.crews.any fun e => e.1 / 16 == core && e.2.uid == x.2)
  let left := d.preReqs.filter fun x => !gone x && x != (core, c.uid)
  let u := ((s.putDie (dieOf core) { d with preReqs := d.preReqs.filter fun x => !gone x }).putDie (dieOf core)
    { d with preReqs := left }).putCrew core slot { c with preempt := true }
  have runs : exec (.preemptionRequest core slot) s =
      .next (if (u.crewGroups core slot).any (fun e => e.2.onPage) then u.startSave c else u) := by
    rw [exec_preemptionRequest, execPreemptionRequest]
    have named' : d.preReqs.contains (core, c.uid) = true := List.contains_iff_mem.mpr named
    have hc' : (s.putDie (dieOf core) { d with preReqs := d.preReqs.filter fun x => !gone x }).crew? core slot = some c := hc
    simp only [hc', named', d, gone, left, u]
    rfl
  have here : u.crew? core slot = some { c with preempt := true } := State.crew?_putCrew_self ..
  have struck : (core, c.uid) ∉ left := by simp [left]
  have die : (u.die (dieOf core)).preReqs = left := congrArg Die.preReqs (State.die_putDie_self ..)
  split at runs
  · obtain ⟨rest, marked⟩ := u.startSave_mark c
    obtain ⟨c', hc', eq⟩ := marked _ _ _ here
    refine ⟨_, c', runs, ?_, hc', eq, ?_⟩
    · rw [rest]
      rfl
    · rw [rest]
      exact die ▸ struck
  · exact ⟨_, _, runs, rfl, here, rfl, die ▸ struck⟩

/-! ### CREW_EVICTION (R84, R85, R331, R332) -/

section

variable {s : State} {core slot : Nat} {c : Crew} (hc : s.crew? core slot = some c)
include hc

theorem exec_crewEviction_saves (asked : c.preempt = true ∨ c.saving = true)
    (ready : ∀ k ∈ s.sheafOf c, s.evictable k.1 k.2 c.saving = true) (frames : s.framesOk c = true) :
    exec (.crewEviction core slot) s = .next
      ((sortNat ((s.sheafOf c).map (·.1))).foldl State.retest (((s.sheafOf c).foldl State.saveCrew s).writeSheaf c)) := by
  have all : ((s.sheafOf c).all fun k => s.evictable k.1 k.2 c.saving) = true := List.all_eq_true.mpr ready
  have asked' : (!(c.preempt || c.saving)) = false := by rcases asked with h | h <;> simp [h]
  rw [exec_crewEviction, execCrewEviction]
  simp only [hc, asked', all, frames, Bool.not_true, Bool.false_eq_true, if_false]

theorem exec_crewEviction_stops (asked : c.preempt = true) (fresh : c.saving = false)
    (still : ∀ k ∈ s.sheafOf c, s.atBlocking k.1 k.2 false = true)
    (busy : ∃ k ∈ s.sheafOf c, s.workSaved k.1 k.2 false = false) :
    exec (.crewEviction core slot) s = .next (s.startSave c) := by
  have all : ((s.sheafOf c).all fun k => s.atBlocking k.1 k.2 false) = true := List.all_eq_true.mpr still
  have none_ : ((s.sheafOf c).all fun k => s.evictable k.1 k.2 false) = false := by
    obtain ⟨k, hk, work⟩ := busy
    exact List.all_eq_false.mpr ⟨k, hk, by simp [State.evictable, work]⟩
  rw [exec_crewEviction, execCrewEviction]
  simp only [hc, asked, fresh, none_, all, Bool.or_false, Bool.not_true, Bool.not_false, Bool.and_self, Bool.false_eq_true,
    if_true, if_false]

/-- What a crew's leaving takes away. -/
theorem State.removeCrew_eq : ∃ f : Core → Core, (∀ x, (f x).deferred = x.deferred.filter fun q => q.crew != slot) ∧
    s.removeCrew core slot = State.modCore { s with
      groups := s.groups.filter fun e => !((keyGid e.1).core == core && e.2.crew == slot)
      crews := tdel s.crews (crewKey core slot)
      copies := s.copies.filter fun e => e.2.uid != c.uid
      ops := s.ops.filter fun e => e.2.uid != c.uid } core f := by
  simp only [State.removeCrew, hc]
  exact ⟨_, fun _ => rfl, rfl⟩

omit hc in
/-- The frames' taking writes the ring's read index, and no more (R331). -/
theorem State.takeFrames_eq (part n : Nat) : (s.takeFrames part n).2 = { s with mem := (s.takeFrames part n).2.mem } := rfl

/-- The crew as it is saved, with the frames taken for it. -/
def State.savedIn (s : State) (core slot : Nat) (c : Crew) : Saved :=
  { s.savedOf core slot c with frames := (s.takeFrames (s.partOf c.asid) (frameCount (s.savedOf core slot c).size)).1 }

theorem State.saveCrew_of_takeFrames {f : List Nat × State}
    (taken : s.takeFrames (s.partOf c.asid) (frameCount (s.savedOf core slot c).size) = f) :
    s.saveCrew (core, slot) = { f.2.removeCrew core slot with
      nextId := (f.2.removeCrew core slot).nextId + 1
      saved := tput (f.2.removeCrew core slot).saved (f.2.removeCrew core slot).nextId
        { s.savedOf core slot c with frames := f.1 } } := by
  simp only [State.saveCrew, hc, taken]
  rfl

/-- What the removal of a crew from a state with other memory, and its filing, leave. -/
theorem State.filed_eq {m : State} {sv : Saved} (taken : m = { s with mem := m.mem }) :
    ∃ f : Core → Core, (∀ x, (f x).deferred = x.deferred.filter fun q => q.crew != slot) ∧
    { m.removeCrew core slot with
      nextId := (m.removeCrew core slot).nextId + 1
      saved := tput (m.removeCrew core slot).saved (m.removeCrew core slot).nextId sv } = State.modCore { s with
      nextId := s.nextId + 1
      saved := tput s.saved s.nextId sv
      mem := m.mem
      groups := s.groups.filter fun e => !((keyGid e.1).core == core && e.2.crew == slot)
      crews := tdel s.crews (crewKey core slot)
      copies := s.copies.filter fun e => e.2.uid != c.uid
      ops := s.ops.filter fun e => e.2.uid != c.uid } core f := by
  have hc' : m.crew? core slot = some c := by
    rw [taken]
    exact hc
  obtain ⟨strip, deferred, removed⟩ := State.removeCrew_eq hc'
  refine ⟨strip, deferred, ?_⟩
  generalize m.removeCrew core slot = u at removed
  rw [removed, taken]
  rfl

/-- What the saving of one crew leaves (R331, R332). -/
theorem State.saveCrew_eq : ∃ f : Core → Core, (∀ x, (f x).deferred = x.deferred.filter fun q => q.crew != slot) ∧
    s.saveCrew (core, slot) = State.modCore { s with
      nextId := s.nextId + 1
      saved := tput s.saved s.nextId (s.savedIn core slot c)
      mem := (s.takeFrames (s.partOf c.asid) (frameCount (s.savedOf core slot c).size)).2.mem
      groups := s.groups.filter fun e => !((keyGid e.1).core == core && e.2.crew == slot)
      crews := tdel s.crews (crewKey core slot)
      copies := s.copies.filter fun e => e.2.uid != c.uid
      ops := s.ops.filter fun e => e.2.uid != c.uid } core f := by
  obtain ⟨f, deferred, filed⟩ := State.filed_eq hc (sv := s.savedIn core slot c)
    (State.takeFrames_eq (s := s) (s.partOf c.asid) (frameCount (s.savedOf core slot c).size))
  exact ⟨f, deferred, (State.saveCrew_of_takeFrames hc rfl).trans filed⟩

end

theorem filter_tput_of_forall_false {α : Type} {p : Nat × α → Bool} {t : Tab α} {n : Nat} {x : α} (none_ : ∀ e ∈ t, p e = false)
    (new : p (n, x) = true) : (tput t n x).filter p = [(n, x)] := by
  induction t with
  | nil => simp [tput, new]
  | cons e t ih =>
    obtain ⟨k, y⟩ := e
    have rest : t.filter p = [] := List.filter_eq_nil_iff.mpr fun e he => by simp [none_ e (List.mem_cons_of_mem _ he)]
    have first : p (k, y) = false := none_ _ (List.mem_cons_self ..)
    unfold tput
    split
    · rw [List.filter_cons_of_pos new, rest]
    · split
      · rw [List.filter_cons_of_pos new, List.filter_cons_of_neg (by simp [first]), rest]
      · rw [List.filter_cons_of_neg (by simp [first])]
        exact ih fun e he => none_ e (List.mem_cons_of_mem _ he)

/-- A crew saved alone is written into its frames, whose first is the only link (R332). -/
theorem State.writeSheaf_of_single {u : State} {c : Crew} {id : Nat} {sv : Saved}
    (alone : (u.saved.filter fun e => e.2.crew.launch = c.launch && e.2.crew.sheaf = c.sheaf) = [(id, sv)]) :
    u.writeSheaf c = State.writeFrames { u with saved := tput u.saved id { sv with links := [sv.frames.headD 0] } }
      { sv with links := [sv.frames.headD 0] } := by
  unfold State.writeSheaf
  rw [alone]
  rfl

theorem State.writeFrames_eq (s : State) (sv : Saved) :
    s.writeFrames sv = { s with mem := (s.writeFrames sv).mem, freeCtr := s.freeCtr + sv.size } := rfl

/-- The ring's read index is all that the taking of frames writes (R331). -/
theorem State.byte_takeFrames_ne (s : State) (part n a : Nat) (apart : ∀ i < 8, a ≠ s.home (s.ctxRing part + 8) + i) :
    (s.takeFrames part n).2.byte a = s.byte a := by
  refine State.byte_store_ne s _ _ a ?_
  rw [length_leBytes]
  by_contra within
  exact apart (a - s.home (s.ctxRing part + 8)) (by omega) (by omega)

theorem State.savedIn_reads (s : State) (core slot : Nat) (c : Crew) : (s.savedIn core slot c).core = core ∧
    (s.savedIn core slot c).crew =
      { c with preempt := false, saving := false, pendHold := {}, seqr := { c.seqr with got := [] } } ∧
    (s.savedIn core slot c).groups = (s.crewGroups core slot).map fun e => (e.1.slot, e.2) :=
  ⟨rfl, rfl, rfl⟩

/-- A crew's file with the link to itself. -/
def Saved.linked (sv : Saved) : Saved := { sv with links := [sv.frames.headD 0] }

section

variable {s u : State} {core slot : Nat} {c : Crew} {sv : Saved} {mem : Tab Byte} {f : Core → Core}
  (deferred : ∀ x, (f x).deferred = x.deferred.filter fun q => q.crew != slot)
  (saved : u = State.modCore { s with
    nextId := s.nextId + 1
    saved := tput s.saved s.nextId sv
    mem := mem
    groups := s.groups.filter fun e => !((keyGid e.1).core == core && e.2.crew == slot)
    crews := tdel s.crews (crewKey core slot)
    copies := s.copies.filter fun e => e.2.uid != c.uid
    ops := s.ops.filter fun e => e.2.uid != c.uid } core f)
include saved

theorem State.writeSheaf_filed (alone : ∀ e ∈ s.saved, e.2.crew.launch = c.launch → e.2.crew.sheaf ≠ c.sheaf)
    (launch : sv.crew.launch = c.launch) (sheaf : sv.crew.sheaf = c.sheaf) :
    u.writeSheaf c = State.writeFrames { u with saved := tput u.saved s.nextId sv.linked } sv.linked := by
  refine State.writeSheaf_of_single ?_
  rw [saved]
  refine filter_tput_of_forall_false (fun e he => ?_) (by simp [launch, sheaf])
  have := alone e he
  by_cases same : e.2.crew.launch = c.launch
  · simp [same, this same]
  · simp [same]

include deferred in
theorem State.retest_filed (none_ : (s.core core).deferred = []) (w : State) (cores : w.cores = u.cores) :
    w.retest core = { w with cores := (w.retest core).cores } := by
  refine State.retest_eq_of_none_deferred ?_
  have same : w.core core = u.core core := by rw [State.core, cores]; rfl
  rw [same, saved, State.core_modCore_self, deferred]
  exact congrArg (List.filter _) none_

theorem State.gone_filed : u.crew? core slot = none ∧ u.crewGroups core slot = [] := by
  constructor
  · have : u.crews = tdel s.crews (crewKey core slot) := by
      rw [saved]
      rfl
    rw [State.crew?, this, tfind_tdel, if_pos rfl]
  · have : u.groups = s.groups.filter fun e => !((keyGid e.1).core == core && e.2.crew == slot) := by
      rw [saved]
      rfl
    rw [State.crewGroups, this, List.filterMap_filter]
    refine List.filterMap_eq_nil_iff.mpr fun e _ => ?_
    simp
    tauto

theorem State.kept_filed : u.vreg = s.vreg ∧ u.preg = s.preg ∧ u.greg = s.greg ∧ u.scratch = s.scratch ∧ u.home = s.home ∧
    u.mem = mem := by
  rw [saved]
  exact ⟨rfl, rfl, rfl, rfl, rfl, rfl⟩

end

/-- What the eviction of a crew that is a sheaf of its own leaves (R84, R85, R331, R332). -/
theorem crewEviction_saves {s : State} {core slot : Nat} {c : Crew} (hc : s.crew? core slot = some c)
    (asked : c.preempt = true ∨ c.saving = true) (sheaf : s.sheafOf c = [(core, slot)])
    (ready : s.evictable core slot c.saving = true) (frames : s.framesOk c = true) (none_ : (s.core core).deferred = [])
    (alone : ∀ e ∈ s.saved, e.2.crew.launch = c.launch → e.2.crew.sheaf ≠ c.sheaf) :
    ∃ t sv id, exec (.crewEviction core slot) s = .next t ∧ tfind t.saved id = some sv ∧ sv.core = core ∧
      sv.crew = { c with preempt := false, saving := false, pendHold := {}, seqr := { c.seqr with got := [] } } ∧
      sv.groups = (s.crewGroups core slot).map (fun e => (e.1.slot, e.2)) ∧
      t.crew? core slot = none ∧ t.crewGroups core slot = [] ∧
      t.vreg = s.vreg ∧ t.preg = s.preg ∧ t.greg = s.greg ∧ t.scratch = s.scratch ∧
      ∀ a, (∀ f ∈ sv.frames, ∀ i < 2097152, a ≠ s.home (f + i)) →
        (∀ i < 8, a ≠ s.home (s.ctxRing (s.partOf c.asid) + 8) + i) → t.byte a = s.byte a := by
  obtain ⟨strip, deferred, saved⟩ := State.saveCrew_eq hc
  obtain ⟨at_, crew, groups⟩ := s.savedIn_reads core slot c
  have taken := s.byte_takeFrames_ne (s.partOf c.asid) (frameCount (s.savedOf core slot c).size)
  have runs := exec_crewEviction_saves hc asked (by simpa [sheaf] using ready) frames
  rw [sheaf] at runs
  simp only [List.map_cons, List.map_nil, List.foldl_cons, List.foldl_nil] at runs
  generalize s.saveCrew (core, slot) = u at saved runs
  generalize s.savedIn core slot c = sv at saved at_ crew groups
  generalize (s.takeFrames (s.partOf c.asid) (frameCount (s.savedOf core slot c).size)).2 = m at saved taken
  have written := State.writeSheaf_filed saved alone (by rw [crew]) (by rw [crew])
  obtain ⟨gone, empty⟩ := State.gone_filed saved
  obtain ⟨vreg, preg, greg, scratch, home, mem⟩ := State.kept_filed saved
  have bytes := State.byte_writeFrames_ne { u with saved := tput u.saved s.nextId sv.linked } sv.linked
  have eq := State.writeFrames_eq { u with saved := tput u.saved s.nextId sv.linked } sv.linked
  rw [← written] at bytes eq
  generalize u.writeSheaf c = w at bytes eq runs
  have rest := State.retest_filed deferred saved none_ w (by rw [eq])
  replace runs : exec (.crewEviction core slot) s = .next (w.retest core) := runs
  generalize w.retest core = t at rest runs
  refine ⟨t, sv.linked, s.nextId, runs, ?_, at_, crew, groups, ?_, ?_, ?_, ?_, ?_, ?_, fun a out apart => ?_⟩
  · rw [rest, eq]
    exact tfind_tput_self ..
  · rw [rest, eq]
    exact gone
  · rw [rest, eq]
    exact empty
  · rw [rest, eq]
    exact vreg
  · rw [rest, eq]
    exact preg
  · rw [rest, eq]
    exact greg
  · rw [rest, eq]
    exact scratch
  · have same : t.byte a = w.byte a := by
      rw [rest]
      rfl
    have filed : State.byte { u with saved := tput u.saved s.nextId sv.linked } a = m.byte a :=
      congrArg (tget 0 · a) mem
    have home' : State.home { u with saved := tput u.saved s.nextId sv.linked } = s.home := home
    rw [same, bytes a (by rw [home']; exact out), filed, taken a apart]

/-! ### A saved crew takes its places again (R86, R87, R105) -/

theorem tfind_foldl_tput {α β : Type} {key : β → Nat} {val : β → α} {l : List β} (t : Tab α) (distinct : (l.map key).Nodup)
    {e : β} (he : e ∈ l) : tfind (l.foldl (fun t e => tput t (key e) (val e)) t) (key e) = some (val e) := by
  have untouched (l : List β) (t : Tab α) (n : Nat) (out : n ∉ l.map key) :
      tfind (l.foldl (fun t e => tput t (key e) (val e)) t) n = tfind t n := by
    induction l generalizing t with
    | nil => rfl
    | cons x l ih =>
      simp only [List.map_cons, List.mem_cons, not_or] at out
      exact (ih _ out.2).trans (tfind_tput_ne _ _ out.1)
  induction l generalizing t with
  | nil => nomatch he
  | cons x l ih =>
    obtain ⟨first, rest⟩ := List.nodup_cons.mp distinct
    rcases List.mem_cons.mp he with rfl | he
    · exact (untouched _ _ _ first).trans (tfind_tput_self ..)
    · exact ih _ rest he

/-- The slot that a saved crew's slot becomes: each has its next free one. -/
def Saved.seat (w : Saved) (free : List Nat) (old : Nat) : Nat := free.getD (w.places.idxOf old) 32

theorem Saved.mem_places {w : Saved} {n : Nat} : n ∈ w.places ↔ n < 32 ∧ ∃ e ∈ w.groups ++ w.crew.parts, e.1 = n := by
  simp only [Saved.places, List.mem_filter, List.mem_range, Bool.or_eq_true, List.any_eq_true, beq_iff_eq, List.mem_append]
  grind

section

variable {w : Saved} {free : List Nat} (room : w.places.length ≤ free.length)
include room

theorem Saved.seat_mem {n : Nat} (h : n ∈ w.places) : w.seat free n ∈ free := by
  have lt : w.places.idxOf n < free.length := (List.idxOf_lt_length_of_mem h).trans_le room
  rw [Saved.seat, List.getD_eq_getElem _ _ lt]
  exact List.getElem_mem lt

theorem Saved.seat_inj (distinct : free.Nodup) {m n : Nat} (hm : m ∈ w.places) (hn : n ∈ w.places)
    (same : w.seat free m = w.seat free n) : m = n := by
  have ltm : w.places.idxOf m < free.length := (List.idxOf_lt_length_of_mem hm).trans_le room
  have ltn : w.places.idxOf n < free.length := (List.idxOf_lt_length_of_mem hn).trans_le room
  rw [Saved.seat, Saved.seat, List.getD_eq_getElem _ _ ltm, List.getD_eq_getElem _ _ ltn, distinct.getElem_inj_iff] at same
  exact (List.idxOf_inj hm).mp same

end

theorem State.freeSlots_nodup (s : State) (core : Nat) : (s.freeSlots core).Nodup := List.nodup_range.filter _

theorem State.lt_of_mem_freeSlots {s : State} {core n : Nat} (h : n ∈ s.freeSlots core) : n < 32 :=
  List.mem_range.mp (List.mem_filter.mp h).1

/-- The crew as it stands in its new place. -/
def Saved.crewAt (w : Saved) (free : List Nat) (slot : Nat) : Crew :=
  { w.crew with
    parts := w.crew.parts.map fun e => (w.seat free e.1, { e.2 with crew := slot })
    rgq := w.crew.rgq.map fun e => (w.seat free e.1, e.2) }

/-- The table of groups with the crew's in their new places. -/
def Saved.seated (w : Saved) (free : List Nat) (core slot : Nat) (t : Tab Group) : Tab Group :=
  w.groups.foldl (fun t e => tput t (gidKey { core := core, slot := w.seat free e.1 }) (e.2.resumed slot)) t

theorem Saved.tfind_seated {w : Saved} {free : List Nat} {core slot : Nat} {t : Tab Group} (room : w.places.length ≤ free.length)
    (distinct : free.Nodup) (slots : ∀ n ∈ free, n < 32) (ids : (w.groups.map (·.1)).Nodup) (small : ∀ x ∈ w.groups, x.1 < 32)
    {e : Nat × Group} (he : e ∈ w.groups) :
    tfind (w.seated free core slot t) (gidKey { core := core, slot := w.seat free e.1 }) = some (e.2.resumed slot) := by
  have place {x : Nat × Group} (hx : x ∈ w.groups) : x.1 ∈ w.places :=
    Saved.mem_places.mpr ⟨small x hx, x, List.mem_append_left _ hx, rfl⟩
  refine tfind_foldl_tput t ?_ he
  refine (List.nodup_map_iff_inj_on (List.Nodup.of_map _ ids)).mpr fun x hx y hy same => ?_
  have seats := congrArg Gid.slot ((gidKey_inj (slots _ (Saved.seat_mem room (place hx)))
    (slots _ (Saved.seat_mem room (place hy)))).mp same)
  exact List.inj_on_of_nodup_map ids hx hy (Saved.seat_inj room distinct (place hx) (place hy) seats)

theorem OnlyMem.foldl {α : Type} {f : State → α → State} (hf : ∀ t x, OnlyMem t (f t x)) (l : List α) (s : State) :
    OnlyMem s (l.foldl f s) := by
  induction l generalizing s with
  | nil => exact .refl s
  | cons x l ih => exact (hf s x).trans (ih _)

theorem State.giveFrames_onlyMem (s : State) (part : Nat) (fs : List Nat) : OnlyMem s (s.giveFrames part fs) := by
  unfold State.giveFrames
  dsimp only
  split
  · exact .refl s
  · exact (OnlyMem.foldl (fun t i => .store t _ _) _ s).trans (.store _ _ _)

/-- Its copies go on there (R252). -/
def State.seatCopies (s : State) (core slot : Nat) (xs : List (Nat × Copy)) : State :=
  xs.foldl (fun s x => { s with copies := tput s.copies x.1 { x.2 with core := core, crew := slot, chan := s.freeChan core } }) s

/-- Its kept entries are posted there again (R206). -/
def State.seatOps (s : State) (core slot : Nat) (xs : List (Nat × Op)) : State :=
  xs.foldl (fun s x => s.post { x.2 with core := core, crew := slot }) s

/-- Its groups stand there. -/
def State.seatGroups (s : State) (core slot : Nat) (w : Saved) (free : List Nat) : State :=
  w.groups.foldl (fun s e => s.putGroup { core := core, slot := w.seat free e.1 } (e.2.resumed slot)) s

theorem State.seatCopies_eq (s : State) (core slot : Nat) (xs : List (Nat × Copy)) :
    ∃ copies, s.seatCopies core slot xs = { s with copies := copies } := by
  induction xs generalizing s with
  | nil => exact ⟨_, rfl⟩
  | cons x xs ih => exact ih { s with copies := _ }

theorem State.seatOps_eq (s : State) (core slot : Nat) (xs : List (Nat × Op)) :
    ∃ ops next, s.seatOps core slot xs = { s with ops := ops, nextId := next } := by
  induction xs generalizing s with
  | nil => exact ⟨_, _, rfl⟩
  | cons x xs ih => exact ih (s.post { x.2 with core := core, crew := slot })

theorem State.seatGroups_eq (s : State) (core slot : Nat) (w : Saved) (free : List Nat) :
    s.seatGroups core slot w free = { s with groups := w.seated free core slot s.groups } := by
  unfold State.seatGroups Saved.seated
  induction w.groups generalizing s with
  | nil => rfl
  | cons e l ih => exact ih (s.putGroup { core := core, slot := w.seat free e.1 } (e.2.resumed slot))

/-- What the crew's taking its places leaves, where it has no spawn record to place. -/
theorem State.restoreCrew_eq {s u : State} {sv w : Saved} {id core slot : Nat} {rest : List Nat}
    (built : (if s.formatsOk sv then s.rebuild sv else (s, sv)) = (u, w)) (free : u.freeCrewSlots core = slot :: rest)
    (spawns : w.spawns = []) : ∃ copies ops next mem, s.restoreCrew id core sv = some (State.emptyView { u with
      crews := tput u.crews (crewKey core slot) (w.crewAt (u.freeSlots core) slot)
      groups := w.seated (u.freeSlots core) core slot u.groups
      copies := copies, ops := ops, nextId := next, mem := mem, saved := tdel u.saved id } core) := by
  have runs : s.restoreCrew id core sv = some (
      let given := ((((u.putCrew core slot (w.crewAt (u.freeSlots core) slot)).seatGroups core slot w (u.freeSlots core)).seatCopies
        core slot w.copies).seatOps core slot w.ops).giveFrames (s.partOf sv.crew.asid) w.frames
      { given.emptyView core with saved := tdel given.saved id }) := by
    simp only [State.restoreCrew, built, free, spawns, List.foldl_nil]
    rfl
  rw [State.seatGroups_eq] at runs
  generalize hs : ({ u.putCrew core slot _ with groups := _ } : State) = u1 at runs
  obtain ⟨copies, copied⟩ := u1.seatCopies_eq core slot w.copies
  rw [copied] at runs
  obtain ⟨ops, next, posted⟩ := State.seatOps_eq { u1 with copies := copies } core slot w.ops
  rw [posted] at runs
  obtain given := State.giveFrames_onlyMem { u1 with copies := copies, ops := ops, nextId := next } (s.partOf sv.crew.asid) w.frames
  generalize State.giveFrames _ _ _ = v at runs given
  refine ⟨copies, ops, next, v.mem, runs.trans ?_⟩
  rw [given, ← hs]
  rfl

/-- Where each part of a rebuilt crew stands (R87, R105). -/
theorem restoreCrew_seats {s u : State} {sv w : Saved} {id core slot : Nat} {rest : List Nat} (ok : s.formatsOk sv = true)
    (built : s.rebuild sv = (u, w)) (free : u.freeCrewSlots core = slot :: rest) (spawns : w.spawns = [])
    (room : w.places.length ≤ (u.freeSlots core).length) (ids : (w.groups.map (·.1)).Nodup)
    (small : ∀ x ∈ w.groups ++ w.crew.parts, x.1 < 32) :
    ∃ t c', s.restoreCrew id core sv = some t ∧ tfind t.saved id = none ∧ t.crew? core slot = some c' ∧
      c' = { w.crew with parts := c'.parts, rgq := c'.rgq } ∧
      c'.parts = w.crew.parts.map (fun e => (w.seat (u.freeSlots core) e.1, { e.2 with crew := slot })) ∧
      (t.core core).view = [] ∧
      ∀ x ∈ w.groups, t.group? { core := core, slot := w.seat (u.freeSlots core) x.1 } = some (x.2.resumed slot) := by
  obtain ⟨copies, ops, next, mem, runs⟩ :=
    State.restoreCrew_eq (s := s) (sv := sv) (id := id) (by rw [if_pos ok, built]) free spawns
  refine ⟨_, w.crewAt (u.freeSlots core) slot, runs, ?_, tfind_tput_self .., rfl, rfl, ?_, fun x hx => ?_⟩
  · exact (tfind_tdel ..).trans (if_pos rfl)
  · exact congrArg Core.view (State.core_modCore_self ..)
  · exact Saved.tfind_seated room (u.freeSlots_nodup core) (fun _ => State.lt_of_mem_freeSlots) ids
      (fun y hy => small y (List.mem_append_left _ hy)) hx

/-! ### CREW_RESTORE (R86, R87) -/

theorem foldl_eq_foldl_bind {α β : Type} {f : Option α → β → Option α} {g : α → β → Option α}
    (step : ∀ o x, f o x = o.bind fun a => g a x) {l : List β} {o : Option α} :
    l.foldl f o = l.foldl (fun o x => o.bind fun a => g a x) o :=
  congrArg (fun f => List.foldl f o l) (funext fun o => funext fun x => step o x)

section

variable {s s' : State} {id core : Nat} {sv : Saved} {cs : List Nat} (hsv : tfind s.saved id = some sv)
  (rect : rectCores core (s.taskOfCrew sv.crew).sw (s.taskOfCrew sv.crew).sh = some cs)
  (idle : (s.die (dieOf core)).admission = none) (wakes : s.sheafWakes (s.savedSheaf sv) = true)
  (own : ∀ x ∈ cs, s.owns (s.partOf sv.crew.asid) x = true ∧ x ∉ s.keptCores (dieOf core) (s.sheafId sv))
  (first : s.savedBefore (dieOf core) (s.sheafId sv) sv.rank = false)
  (launches : ∀ e ∈ s.launches, s.eligible (dieOf core) e.2 = true →
    rankLt (effPrio e.2.task.prio e.2.age, e.2.age, e.1) sv.rank = true → s.placeable (dieOf core) e.1 e.2 = false)
  (fits : s.restorable (s.savedSheaf sv) (s.taskOfCrew sv.crew).sk cs = true)
  (built : (s.savedSheaf sv).foldl (fun o e => o.bind fun (u : State) =>
    u.restoreCrew e.1 (cs.getD (e.2.crew.index / (s.taskOfCrew sv.crew).sk) 0) e.2) (some s) = some s')
include hsv rect idle wakes own first launches fits built

/-- A saved sheaf that ranks first where it has room is rebuilt; the crews with a format byte that is none of R147's
stop (R333); its reservation ends, and the others age. -/
theorem exec_crewRestore_restores : exec (.crewRestore id core) s = .next (State.ageing (State.endReservation
    (let v := ((s.savedSheaf sv).filter fun e => !s.formatsOk e.2).foldl (fun (s : State) e =>
      s.spillFail e.2.crew.launch e.2.crew.sheaf e.2.crew.index) s'
     v.putDie (dieOf core) { v.die (dieOf core) with tried := [] }) (s.sheafId sv)) (dieOf core) (s.sheafId sv)) := by
  have owned : cs.all (s.owns (s.partOf sv.crew.asid)) = true := List.all_eq_true.mpr fun x hx => (own x hx).1
  have unkept : cs.any (s.keptCores (dieOf core) (s.sheafId sv)).contains = false :=
    List.any_eq_false.mpr fun x hx => by simpa using (own x hx).2
  have behind : (s.launches.any fun e => s.eligible (dieOf core) e.2 &&
      rankLt (effPrio e.2.task.prio e.2.age, e.2.age, e.1) sv.rank && s.placeable (dieOf core) e.1 e.2) = false := by
    refine List.any_eq_false.mpr fun e he => ?_
    by_cases eligible : s.eligible (dieOf core) e.2 = true
    · by_cases before : rankLt (effPrio e.2.task.prio e.2.age, e.2.age, e.1) sv.rank = true
      · simp [launches e he eligible before]
      · simp [before]
    · simp [eligible]
  have fold {f : Option State → Nat × Saved → Option State} (step : ∀ o e, f o e = o.bind fun u =>
      u.restoreCrew e.1 (cs.getD (e.2.crew.index / (s.taskOfCrew sv.crew).sk) 0) e.2) :
      (s.savedSheaf sv).foldl f (some s) = some s' := (foldl_eq_foldl_bind step).trans built
  rw [exec_crewRestore, execCrewRestore]
  simp only [hsv, rect, idle, wakes, owned, unkept, first, behind, fits, Option.isSome_none, Bool.not_true, Bool.or_self,
    Bool.false_eq_true, if_false]
  split
  · next none_ => nomatch none_.symm.trans (fold fun o e => by cases o <;> rfl)
  · next v some_ =>
    obtain rfl := Option.some.inj ((fold fun o e => by cases o <;> rfl).symm.trans some_)
    rfl

end

theorem State.die_endReservation (s : State) (id k : Nat) : (s.endReservation id).die k =
    { s.die k with reservation := (s.die k).reservation.filter fun x => x.1 != id } := by
  let ended : Nat × Die → Nat × Die := fun e => (e.1, { e.2 with reservation := e.2.reservation.filter fun x => x.1 != id })
  have dies : tfind (s.endReservation id).dies k = (tfind s.dies k).map fun d => (ended (k, d)).2 :=
    tfind_map_values (f := ended) (fun _ => rfl) s.dies k
  unfold State.die
  rw [dies]
  cases tfind s.dies k <;> rfl

theorem Claims.sheafsSavedAndRestored : Claims.SheafsSavedAndRestored := by
  refine ⟨fun s core slot c hc => ⟨?expiry, ?saved, ?stops, ?filed⟩, ?sheaf, ?seats⟩
  case expiry =>
    intro g r asid vpn at_ crew group page own still frames
    subst at_ crew
    obtain ⟨rest, marks⟩ := State.startSave_marks still frames
    exact ⟨_, exec_fwaitExpiry_saves group hc (by simp [Group.onPage, page]) own, rest, marks⟩
  case saved => exact fun asked ready frames => exec_crewEviction_saves hc asked ready frames
  case stops =>
    intro asked fresh still busy calm frames
    obtain ⟨rest, marks⟩ := State.startSave_marks calm frames
    exact ⟨_, exec_crewEviction_stops hc asked fresh still busy, rest, marks⟩
  case filed =>
    obtain ⟨f, -, saved⟩ := State.saveCrew_eq hc
    refine ⟨s.nextId, ?_⟩
    rw [saved]
    exact tfind_tput_self ..
  case sheaf =>
    intro s s' id core sv cs hsv task sheaf name die rect idle wakes own first launches fits ok built u
    have none_ : (s.savedSheaf sv).filter (fun e => !s.formatsOk e.2) = [] :=
      List.filter_eq_nil_iff.mpr fun e he => by simp [ok e he]
    have runs := exec_crewRestore_restores hsv rect idle wakes own first launches fits built
    rw [none_] at runs
    refine ⟨_, runs, rfl, fun k => (State.die_endReservation ..).trans ?_⟩
    simp only [ne_eq, decide_not]
    rfl
  case seats =>
    intro s u sv w id core slot rest ok built _ free spawns room ids small place
    exact restoreCrew_seats ok built free spawns room ids small

end Sys2Proof.Machine

namespace Sys2Proof.Machine

/-! ### Ages after a decision -/

/-- Ages are of launches and of saved sheafs (R66, R86). -/
theorem State.ageing_eq (s : State) (die id : Nat) :
    ∃ launches saved next, (s.saved = [] → saved = []) ∧ s.ageing die id =
      { s with launches := launches, saved := saved, nextId := next } := by
  have up (l : List (Nat × Launch)) {f : State → Nat × Launch → State}
      (step : ∀ (t : State) e, ∃ launches next, f t e = { t with launches := launches, nextId := next }) (t : State) :
      ∃ launches next, l.foldl f t = { t with launches := launches, nextId := next } := by
    induction l generalizing t with
    | nil => exact ⟨_, _, rfl⟩
    | cons e l ih =>
      obtain ⟨launches, next, eq⟩ := step t e
      rw [List.foldl_cons, eq]
      exact ih _
  have savedUp (l : List (Nat × Saved)) (t : State) :
      ∃ saved next, l.foldl (fun s e => s.savedUp die e) t = { t with saved := saved, nextId := next } := by
    induction l generalizing t with
    | nil => exact ⟨_, _, rfl⟩
    | cons e l ih =>
      obtain ⟨saved, next, eq⟩ : ∃ saved next, t.savedUp die e = { t with saved := saved, nextId := next } := by
        unfold State.savedUp
        dsimp only
        split
        · exact ⟨_, _, rfl⟩
        · split <;> exact ⟨_, _, rfl⟩
      rw [List.foldl_cons, eq]
      exact ih _
  have both {f : State → Nat × Launch → State}
      (step : ∀ (t : State) e, ∃ launches next, f t e = { t with launches := launches, nextId := next }) :
      ∃ launches saved next, (s.saved = [] → saved = []) ∧
        (s.launches.foldl f s).saved.foldl (fun s e => s.savedUp die e) (s.launches.foldl f s) =
          { s with launches := launches, saved := saved, nextId := next } := by
    obtain ⟨launches, next, eq⟩ := up s.launches step s
    rw [eq]
    by_cases none_ : s.saved = []
    · exact ⟨launches, [], next, fun _ => rfl, by simp only [none_, List.foldl_nil]⟩
    · obtain ⟨saved, next', eq'⟩ := savedUp s.saved { s with launches := launches, nextId := next }
      exact ⟨launches, saved, next', fun h => absurd h none_, eq'⟩
  refine both fun t e => ?_
  split
  · exact ⟨_, _, rfl⟩
  · split
    · dsimp only
      split <;> exact ⟨_, _, rfl⟩
    · exact ⟨_, _, rfl⟩

/-! ### The reading of a frame (R147, R333) -/

/-- Bytes of a frame behind its header. -/
def State.behindHead (s : State) (frame off n : Nat) : List Byte :=
  (List.range n).map fun i => s.byte (s.home (frame + 128 + (off + i)))

theorem State.frameBytes_single (s : State) (frame off n : Nat) (fits : off + n ≤ framePayload) :
    s.frameBytes [frame] off n = s.behindHead frame off n := by
  refine List.map_congr_left fun i hi => ?_
  have lt : off + i < framePayload := (Nat.add_lt_add_left (List.mem_range.mp hi) off).trans_le fits
  rw [framePlace, Nat.div_eq_of_lt lt, Nat.mod_eq_of_lt lt]
  rfl

theorem Wait.vals_ofVals (w : Wait) (rest : List Nat) : (w.ofVals (w.vals ++ rest)).vals = w.vals := by
  cases w with
  | bar uid n par st => cases par <;> cases st <;> rfl
  | qpop i _ => cases i <;> rfl
  | thresh timed => cases timed <;> rfl
  | future ls => simp [Wait.vals, Wait.ofVals]
  | _ => rfl

theorem Seqr.vals_ofVals (q : Seqr) (rest : List Nat) : (q.ofVals (q.vals ++ rest)).vals = q.vals := by
  have regs (i : Nat) (hi : i < 16) : (q.vals ++ rest).getD (7 + i) 0 = (q.m.getD i 0).toNat := by
    unfold Seqr.vals
    rw [List.append_assoc, List.getD_append_right _ _ _ _ (by simp)]
    simp [List.getD_eq_getElem?_getD, List.getElem?_append_left, hi]
  have m : (q.ofVals (q.vals ++ rest)).m = (List.range 16).map fun i => q.m.getD i 0 := by
    refine List.map_congr_left fun i hi => ?_
    change BitVec.ofNat 64 ((q.vals ++ rest).getD (7 + i) 0) = _
    rw [regs i (List.mem_range.mp hi)]
    simp
  have others : q.ofVals (q.vals ++ rest) = { q.ofVals (q.vals ++ rest) with
      running := q.running.toNat != 0, halted := q.halted.toNat != 0, mpc := BitVec.ofNat 48 q.mpc.toNat
      mcc := BitVec.ofNat 4 q.mcc.toNat, mfmt := BitVec.ofNat 16 q.mfmt.toNat, mgrp := BitVec.ofNat 16 q.mgrp.toNat
      sticky := BitVec.ofNat 9 q.sticky.toNat } := rfl
  have read (i : Nat) (hi : i ∈ List.range 16) : ((q.ofVals (q.vals ++ rest)).m.getD i 0).toNat = (q.m.getD i 0).toNat := by
    rw [m]
    simp [List.getD_eq_getElem?_getD, List.mem_range.mp hi]
  rw [Seqr.vals, List.map_congr_left read, others]
  simp [Seqr.vals]

theorem flatMap_range_of_single {α : Type} {f : Nat → List α} {a n : Nat} (ha : a < n) (others : ∀ k ≠ a, f k = []) :
    (List.range n).flatMap f = f a := by
  induction n with
  | zero => omega
  | succ n ih =>
    rw [List.range_succ, List.flatMap_append, List.flatMap_singleton]
    by_cases last : a = n
    · subst last
      have before : (List.range a).flatMap f = [] :=
        List.flatMap_eq_nil_iff.mpr fun k hk => others k (List.mem_range.mp hk).ne
      rw [before, List.nil_append]
    · rw [ih (by omega), others n (Ne.symm last), List.append_nil]

theorem filter_range_of_single {p : Nat → Bool} {a n : Nat} (ha : a < n) (here : p a = true) (others : ∀ k ≠ a, p k = false) :
    (List.range n).filter p = [a] := by
  induction n with
  | zero => omega
  | succ n ih =>
    rw [List.range_succ, List.filter_append]
    by_cases last : a = n
    · subst last
      have before : (List.range a).filter p = [] :=
        List.filter_eq_nil_iff.mpr fun k hk => by simp [others k (List.mem_range.mp hk).ne]
      simp [before, here]
    · simp [ih (by omega), others n (Ne.symm last)]

section

variable {sv : Saved} {old : Nat} {r : Group} (groups : sv.groups = [(old, r)]) (parts : sv.crew.parts = []) (small : old < 32)
include groups parts small

theorem Saved.records_of_single : sv.records = [(old, false, r)] := by
  unfold Saved.records
  rw [flatMap_range_of_single small fun k ne => by simp [groups, parts, ne.symm]]
  simp [groups, parts]

theorem Saved.places_of_single : sv.places = [old] := by
  unfold Saved.places
  rw [groups, parts]
  exact filter_range_of_single small (by simp) fun k ne => by simp [ne.symm]

theorem Saved.recordAt_of_single : sv.recordAt old false = (0, 0) := by
  simp [Saved.recordAt, Saved.records_of_single groups parts small]

end
/-- The format byte of a register of a group's record, alone in its chain (R147). -/
def State.formatByte (s : State) (frame n : Nat) : Nat := leNat (s.behindHead frame (1280 + 4160 * (n / 32) + n % 32) 1)

theorem State.formatByte_eq (s : State) (frame n : Nat) :
    s.formatByte frame n = (s.byte (s.home (frame + 128 + (1280 + 4160 * (n / 32) + n % 32)))).toNat := by
  simp [State.formatByte, State.behindHead, leNat]

theorem State.formatsOk_iff {s : State} {sv : Saved} {old frame : Nat} {r : Group} (groups : sv.groups = [(old, r)])
    (parts : sv.crew.parts = []) (small : old < 32) (frames : sv.frames = [frame]) (gran : r.gran ≤ 8) :
    s.formatsOk sv = true ↔ ∀ n < 32 * r.gran, s.formatByte frame n < 3 := by
  have block (q : Nat) (hq : q < r.gran) : s.frameBytes sv.frames ((sv.recordAt old false).1 + 1280 + 4160 * q) 32 =
      s.behindHead frame (1280 + 4160 * q) 32 := by
    rw [Saved.recordAt_of_single groups parts small, frames, Nat.zero_add]
    refine State.frameBytes_single _ _ _ _ ?_
    simp only [framePayload]
    omega
  have all : s.formatsOk sv = true ↔
      ∀ q < r.gran, ∀ i < 32, (s.byte (s.home (frame + 128 + (1280 + 4160 * q + i)))).toNat < 3 := by
    simp only [State.formatsOk, Saved.records_of_single groups parts small, List.all_cons, List.all_nil, Bool.and_true,
      List.all_eq_true, List.mem_range]
    refine forall₂_congr fun q hq => ?_
    rw [block q hq]
    simp [State.behindHead]
  rw [all]
  constructor
  · intro ok n hn
    rw [State.formatByte_eq]
    exact ok (n / 32) (by omega) (n % 32) (by omega)
  · intro ok q hq i hi
    have := ok (32 * q + i) (by omega)
    rwa [State.formatByte_eq, show (32 * q + i) / 32 = q by omega, show (32 * q + i) % 32 = i by omega] at this

/-! ### A rebuilt crew's registers (R333) -/

theorem vkey_inj {u m n k l : Nat} (hk : k < 32) (hl : l < 32) : vkey u m k = vkey u n l ↔ (m, k) = (n, l) := by
  simp only [vkey, Prod.mk.injEq]
  omega

section

variable {r : Group} (own : r.homes = []) (named : r.uid ≠ 0)
include own named

theorem State.vreg_setV_own (s : State) (n l k : Nat) (x : W32) :
    tget 0 (s.setV r n l x).vreg k = if k = vkey r.uid n l then x else tget 0 s.vreg k := by
  have home : r.home l = r.uid := by simp [Group.home, own]
  rw [State.setV, if_neg (by rw [home]; exact named), home]
  exact tget_tset ..

/-- A register of 32 lanes, written lane by lane. -/
theorem State.vreg_foldl_lanes (s : State) (n : Nat) (x : Nat → W32) {m k l : Nat} (hm : m ≤ 32) (hl : l < 32) :
    tget 0 ((List.range m).foldl (fun (t : State) l => t.setV r n l (x l)) s).vreg (vkey r.uid k l) =
      if k = n ∧ l < m then x l else tget 0 s.vreg (vkey r.uid k l) := by
  induction m with
  | zero => simp
  | succ m ih =>
    rw [List.range_succ, List.foldl_append, List.foldl_cons, List.foldl_nil, State.vreg_setV_own own named, ih (by omega)]
    simp only [vkey_inj hl (show m < 32 by omega), Prod.mk.injEq]
    grind

/-- A block of registers, written one by one. -/
theorem State.vreg_foldl_regs (s : State) (x : Nat → Nat → W32) {m k l : Nat} (hl : l < 32) :
    tget 0 ((List.range m).foldl (fun (t : State) n => allLanes.foldl (fun (t : State) l => t.setV r n l (x n l)) t) s).vreg
      (vkey r.uid k l) = if k < m then x k l else tget 0 s.vreg (vkey r.uid k l) := by
  induction m with
  | zero => simp
  | succ m ih =>
    rw [List.range_succ, List.foldl_append, List.foldl_cons, List.foldl_nil, allLanes,
      State.vreg_foldl_lanes own named _ _ _ (Nat.le_refl 32) hl]
    rw [allLanes] at ih
    rw [ih]
    grind

end

/-- `t` is `s` in everything but registers, scratch and the silo. -/
def OnlyRows (s t : State) : Prop := t = { s with
  vreg := t.vreg, preg := t.preg, greg := t.greg, fpx := t.fpx, scratch := t.scratch, silo := t.silo, poison := t.poison }

theorem OnlyRows.refl (s : State) : OnlyRows s s := rfl

theorem OnlyRows.trans {s t u : State} (h : OnlyRows s t) (h' : OnlyRows t u) : OnlyRows s u := by
  unfold OnlyRows at *
  rw [h', h]

theorem OnlyRows.foldl {α : Type} {f : State → α → State} (hf : ∀ t x, OnlyRows t (f t x)) (l : List α) (s : State) :
    OnlyRows s (l.foldl f s) := by
  induction l generalizing s with
  | nil => exact .refl s
  | cons x l ih => exact (hf s x).trans (ih _)

theorem OnlyRows.setV (s : State) (r : Group) (n l : Nat) (x : W32) : OnlyRows s (s.setV r n l x) := by
  unfold State.setV
  split
  · exact .refl s
  · rfl

/-- As `OnlyRows`, the vector registers apart. -/
def KeepsVregs (s t : State) : Prop := OnlyRows s t ∧ t.vreg = s.vreg

theorem KeepsVregs.refl (s : State) : KeepsVregs s s := ⟨.refl s, rfl⟩

theorem KeepsVregs.trans {s t u : State} (h : KeepsVregs s t) (h' : KeepsVregs t u) : KeepsVregs s u :=
  ⟨h.1.trans h'.1, h'.2.trans h.2⟩

theorem KeepsVregs.foldl {α : Type} {f : State → α → State} (hf : ∀ t x, KeepsVregs t (f t x)) (l : List α) (s : State) :
    KeepsVregs s (l.foldl f s) := by
  induction l generalizing s with
  | nil => exact .refl s
  | cons x l ih => exact (hf s x).trans (ih _)

theorem KeepsVregs.setG (s : State) (r : Group) (n : Nat) (x : W64) : KeepsVregs s (s.setG r n x) := ⟨rfl, rfl⟩

theorem KeepsVregs.setP (s : State) (r : Group) (n l : Nat) (b : Bool) : KeepsVregs s (s.setP r n l b) := by
  unfold State.setP
  split
  · exact .refl s
  · exact ⟨rfl, rfl⟩

theorem KeepsVregs.setFpx (s : State) (r : Group) (l : Nat) (x : W32) : KeepsVregs s (s.setFpx r l x) := by
  unfold State.setFpx
  split
  · exact .refl s
  · exact ⟨rfl, rfl⟩

theorem KeepsVregs.sstore (s : State) (uid off : Nat) (bs : List Byte) : KeepsVregs s (s.sstore uid off bs) := ⟨rfl, rfl⟩

theorem KeepsVregs.siloRow (s : State) (silo : Tab W32) (poison : Tab Bool) :
    KeepsVregs s { s with silo := silo, poison := poison } := ⟨rfl, rfl⟩

theorem KeepsVregs.rebuildSilo (s : State) (sv : Saved) (b : Nat) : KeepsVregs s (s.rebuildSilo sv b) := by
  unfold State.rebuildSilo
  exact .foldl (fun t i => .siloRow t _ _) _ _

/-- The words that a register's slot of a group's record gives (R147). -/
def State.recordWords (s : State) (sv : Saved) (at_ n : Nat) : List W32 :=
  let o := 1280 + 4160 * (n / 32)
  let fb := leNat (s.frameBytes sv.frames (at_ + (o + n % 32)) 1)
  unspill fb (s.frameBytes sv.frames (at_ + o + 64 + 128 * (n % 32)) ((spillLen fb).getD 128))

/-- The registers of a record are written after everything else of it, which leaves the vector registers alone. -/
theorem State.rebuildRegs_eq (s : State) (sv : Saved) (e : Nat × Bool × Group) : ∃ t : State, KeepsVregs s t ∧
    s.rebuildRegs sv e = (List.range (32 * e.2.2.gran)).foldl (fun (t : State) n => allLanes.foldl (fun (t : State) l =>
      t.setV e.2.2 n l ((s.recordWords sv (sv.recordAt e.1 e.2.1).1 n).getD l 0)) t) t := by
  refine ⟨_, ?_, rfl⟩
  exact ((KeepsVregs.foldl (fun t n => .setG t _ _ _) _ s).trans (.foldl (fun t n => .foldl (fun t l => .setP ..) _ _) _ _)).trans
    (.foldl (fun t l => .setFpx ..) _ _)

theorem OnlyRows.rebuildRegs (s : State) (sv : Saved) (e : Nat × Bool × Group) : OnlyRows s (s.rebuildRegs sv e) := by
  obtain ⟨t, ⟨rows, -⟩, eq⟩ := s.rebuildRegs_eq sv e
  rw [eq]
  exact rows.trans (.foldl (fun t n => .foldl (fun t l => .setV ..) _ _) _ _)

/-- What is rebuilt after the groups' records leaves the vector registers alone. -/
theorem State.rebuild_keeps (s : State) (sv : Saved) (frames : s.chainOf sv = sv.frames) :
    KeepsVregs (sv.records.foldl (fun (t : State) e => t.rebuildRegs sv e) s) (s.rebuild sv).1 := by
  have same : { sv with frames := s.chainOf sv } = sv := by rw [frames]
  unfold State.rebuild
  rw [same]
  exact (KeepsVregs.sstore ..).trans (.foldl (fun t b => .rebuildSilo t _ _) _ _)

/-! ### A crew of one group, rebuilt from one frame (R333) -/

theorem Group.ofHomeVals_of_nil {r : Group} (own : r.homes = []) (vs : List Nat) : r.ofHomeVals vs = r := by
  cases r
  subst own
  rfl

theorem State.chainOf_single (s : State) {sv : Saved} {frame : Nat} (frames : sv.frames = [frame]) : s.chainOf sv = sv.frames := by
  simp [State.chainOf, frames]

theorem State.crew_rebuild (s : State) (sv : Saved) :
    (s.rebuild sv).2.crew =
      { sv.crew.ofHead (s.headRead { sv with frames := s.chainOf sv } 0
          (({ sv with frames := s.chainOf sv } : Saved).frames.headD 0)) with
        parts := (s.rebuild sv).2.crew.parts, bars := (s.rebuild sv).2.crew.bars
        sqsDepth := (s.rebuild sv).2.crew.sqsDepth, sqsBase := (s.rebuild sv).2.crew.sqsBase
        seqr := sv.crew.seqr.ofVals (s.partRead { sv with frames := s.chainOf sv } 3 sv.atSeqr sv.seqBytes sv.seqVals) } := rfl

section

variable {s : State} {sv : Saved} {old frame : Nat} {r : Group} (groups : sv.groups = [(old, r)])
  (parts : sv.crew.parts = []) (frames : sv.frames = [frame]) (own : r.homes = [])
include groups frames own

theorem State.groups_rebuild_single : (s.rebuild sv).2.groups = [(old, s.rebuildGroup sv old false r)] := by
  have same : { sv with frames := s.chainOf sv } = sv := by rw [s.chainOf_single frames]
  have own' : (s.rebuildGroup sv old false r).homes = [] := own
  unfold State.rebuild
  rw [same]
  simp only [groups, List.length_cons, List.length_nil, Nat.zero_add, List.range_one, List.filterMap_cons, List.filterMap_nil,
    List.getElem?_cons_zero, Option.map_some, Group.ofHomeVals_of_nil own']

omit groups own in
theorem State.frames_rebuild_single : (s.rebuild sv).2.frames = [frame] := (s.chainOf_single frames).trans frames

omit groups frames own in
theorem State.spawns_rebuild (spawns : sv.spawns = []) : (s.rebuild sv).2.spawns = [] := by
  change (List.range sv.spawns.length).map _ = []
  rw [spawns]
  rfl

omit groups own in
include parts in
theorem State.crew_rebuild_single : (s.rebuild sv).2.crew = { sv.crew.ofHead (s.headRead sv 0 frame) with
    parts := [], bars := (s.rebuild sv).2.crew.bars, sqsDepth := (s.rebuild sv).2.crew.sqsDepth
    sqsBase := (s.rebuild sv).2.crew.sqsBase
    seqr := sv.crew.seqr.ofVals (s.partRead sv 3 sv.atSeqr sv.seqBytes sv.seqVals) } := by
  have same : { sv with frames := s.chainOf sv } = sv := by rw [s.chainOf_single frames]
  have head : sv.frames.headD 0 = frame := by rw [frames]; rfl
  have none_ : (s.rebuild sv).2.crew.parts = [] := by
    change (List.range sv.crew.parts.length).filterMap _ = []
    rw [parts]
    rfl
  rw [s.crew_rebuild sv, none_, same, head]

end

end Sys2Proof.Machine

namespace Sys2Proof.Machine

/-! ### A saved crew of one group takes the lowest free places (R86, R87) -/

section

variable {sv : Saved} {old : Nat} {r : Group} (groups : sv.groups = [(old, r)]) (parts : sv.crew.parts = []) (small : old < 32)
include groups parts small

theorem Saved.seat_of_single (free : List Nat) : sv.seat free old = free.getD 0 32 := by
  rw [Saved.seat, Saved.places_of_single groups parts small, List.idxOf_cons_self]

theorem Saved.seated_of_single {gs : Nat} (more : List Nat) (core slot : Nat) (t : Tab Group) :
    sv.seated (gs :: more) core slot t = tput t (gidKey { core := core, slot := gs }) (r.resumed slot) := by
  simp only [Saved.seated, groups, List.foldl_cons, List.foldl_nil, Saved.seat_of_single groups parts small]
  rfl

end

theorem Saved.crewAt_of_nil {sv : Saved} (parts : sv.crew.parts = []) (rgq : sv.crew.rgq = []) (free : List Nat) (slot : Nat) :
    sv.crewAt free slot = sv.crew := by
  have unmoved : sv.crewAt free slot = { sv.crew with parts := [], rgq := [] } := by
    rw [Saved.crewAt, parts, rgq]
    rfl
  rw [unmoved]
  conv_rhs => rw [show sv.crew = { sv.crew with parts := sv.crew.parts, rgq := sv.crew.rgq } from rfl, parts, rgq]

/-- What a crew of one group leaves, as it stands again. -/
theorem State.restoreCrew_single {s u : State} {sv w : Saved} {id core slot gs old : Nat} {rest more : List Nat} {r : Group}
    (built : (if s.formatsOk sv then s.rebuild sv else (s, sv)) = (u, w)) (free : u.freeCrewSlots core = slot :: rest)
    (freeSlots : u.freeSlots core = gs :: more) (spawns : w.spawns = []) (groups : w.groups = [(old, r)])
    (parts : w.crew.parts = []) (rgq : w.crew.rgq = []) (small : old < 32) :
    ∃ t, s.restoreCrew id core sv = some t ∧ t = { u with
      crews := tput u.crews (crewKey core slot) w.crew
      groups := tput u.groups (gidKey { core := core, slot := gs }) (r.resumed slot)
      saved := tdel u.saved id, copies := t.copies, ops := t.ops, nextId := t.nextId, mem := t.mem, cores := t.cores } := by
  obtain ⟨copies, ops, next, mem, runs⟩ := State.restoreCrew_eq (id := id) built free spawns
  rw [Saved.crewAt_of_nil parts rgq, freeSlots, Saved.seated_of_single groups parts small] at runs
  exact ⟨_, runs, rfl⟩

/-! ### CREW_RESTORE of the only saved crew (R86, R87) -/

section

variable {s s' : State} {id core : Nat} {sv : Saved} (only : s.saved = [(id, sv)]) (wakes : s.sheafWakes [(id, sv)] = true)
  (idle : (s.die (dieOf core)).admission = none) (unreserved : (s.die (dieOf core)).reservation = none)
  (own : s.owns (s.partOf sv.crew.asid) core = true) (first : ∀ e ∈ s.launches, s.eligible (dieOf core) e.2 = false)
  (onDie : core < 256) (task : s.taskOfCrew sv.crew = {}) (fits : s.restorable [(id, sv)] 1 [core] = true)
  (index : sv.crew.index = 0) (built : s.restoreCrew id core sv = some s')
include only wakes idle unreserved own first onDie task fits index built

/-- What it leaves on the core is the crew as it stands again, which stops where a format byte is none of R147's; the
launches and saved sheafs of the die age, and its dispatcher goes on. -/
theorem exec_crewRestore_alone :
    let v := if s.formatsOk sv then s' else s'.spillFail sv.crew.launch sv.crew.sheaf sv.crew.index
    ∃ t, exec (.crewRestore id core) s = .next t ∧ (v.saved = [] → t.saved = []) ∧
      t = { v with dies := t.dies, launches := t.launches, saved := t.saved, nextId := t.nextId } := by
  intro v
  have sheaf : s.savedSheaf sv = [(id, sv)] := by simp [State.savedSheaf, only]
  have name : s.sheafId sv = id := by rw [State.sheafId, sheaf]; rfl
  have rect : rectCores core (s.taskOfCrew sv.crew).sw (s.taskOfCrew sv.crew).sh = some [core] := by
    rw [task]
    have inside : colOf core + 1 ≤ 8 ∧ rowOf core + 1 ≤ 8 := by
      unfold colOf rowOf
      omega
    simp [rectCores, inside, onDie]
  have unkept : s.keptCores (dieOf core) (s.sheafId sv) = [] := by rw [State.keptCores, unreserved]
  have before : s.savedBefore (dieOf core) (s.sheafId sv) sv.rank = false := by simp [State.savedBefore, only]
  have sk : (s.taskOfCrew sv.crew).sk = 1 := by rw [task]
  have runs := exec_crewRestore_restores (s := s) (id := id) (s' := s') (by simp [only, tfind]) rect idle (by rw [sheaf]; exact wakes)
    (by simp [own, unkept]) before (fun e he eligible => by simp [first e he] at eligible) (by rw [sheaf, sk]; exact fits)
    (by rw [sheaf, sk]; simpa [index] using built)
  rw [sheaf, name] at runs
  have stopped : (([(id, sv)].filter fun e => !s.formatsOk e.2).foldl (fun (s : State) e =>
      s.spillFail e.2.crew.launch e.2.crew.sheaf e.2.crew.index) s') = v := by
    cases ok : s.formatsOk sv <;> simp [v, ok]
  rw [stopped] at runs
  clear_value v
  obtain ⟨dies, ended⟩ : ∃ dies, State.endReservation (v.putDie (dieOf core) { v.die (dieOf core) with tried := [] }) id =
      { v with dies := dies } := ⟨_, rfl⟩
  rw [ended] at runs
  obtain ⟨launches, saved, next, none_, eq⟩ := State.ageing_eq { v with dies := dies } (dieOf core) id
  rw [eq] at runs
  exact ⟨_, runs, none_, rfl⟩

end
end Sys2Proof.Machine

namespace Sys2Proof.Machine

/-! ### What a rebuilt crew of one group holds (R87, R147, R333) -/

theorem State.onlyRows_rebuild (s : State) (sv : Saved) (frames : s.chainOf sv = sv.frames) : OnlyRows s (s.rebuild sv).1 :=
  (OnlyRows.foldl (fun t e => .rebuildRegs t sv e) _ s).trans (s.rebuild_keeps sv frames).1

/-- The words that the slot of register `n` gives, in the record of a group alone in its frame (R147). -/
def State.registerWords (s : State) (frame n : Nat) : List W32 :=
  unspill (s.formatByte frame n) (s.behindHead frame (1280 + 4160 * (n / 32) + 64 + 128 * (n % 32))
    ((spillLen (s.formatByte frame n)).getD 128))

theorem spillLen_le (fb : Nat) : (spillLen fb).getD 128 ≤ 128 := by
  unfold spillLen
  split <;> decide

theorem State.rebuildGroup_eq (s : State) (sv : Saved) (old : Nat) (r : Group) :
    let r' := s.rebuildGroup sv old false r
    let word := fun o n => leNat (s.frameBytes sv.frames ((sv.recordAt old false).1 + o) n)
    r' = { r with
      pc := BitVec.ofNat 48 (word 0 8), exec := BitVec.ofNat 32 (word 16 4), live := BitVec.ofNat 32 (word 20 4)
      hlp := BitVec.ofNat 32 (word 24 4), fmt := BitVec.ofNat 16 (word 28 2), q := BitVec.ofNat 16 (word 32 2)
      grp := word 9 1, gran := word 10 1, cc := r'.cc, depth := r'.depth, stack := r'.stack, wait := r'.wait } := rfl

section

variable {s : State} {sv : Saved} {old frame : Nat} {r : Group} (groups : sv.groups = [(old, r)])
  (parts : sv.crew.parts = []) (frames : sv.frames = [frame]) (small : old < 32) (own : r.homes = []) (named : r.uid ≠ 0)
  (gran : r.gran ≤ 8)
include groups parts frames small

omit groups parts small in
theorem State.recordWords_single {n : Nat} (hn : n < 256) : s.recordWords sv 0 n = s.registerWords frame n := by
  have format : leNat (s.frameBytes sv.frames (0 + (1280 + 4160 * (n / 32) + n % 32)) 1) = s.formatByte frame n := by
    rw [Nat.zero_add, frames, State.frameBytes_single _ _ _ _ (by simp only [framePayload]; omega)]
    rfl
  have len := spillLen_le (s.formatByte frame n)
  unfold State.recordWords
  dsimp only
  rw [format, Nat.zero_add, frames, State.frameBytes_single _ _ _ _ (by simp only [framePayload]; omega)]
  rfl

include own named gran in
theorem State.vreg_rebuild_single {n l : Nat} (hn : n < 32 * r.gran) (hl : l < 32) :
    tget 0 (s.rebuild sv).1.vreg (vkey r.uid n l) = (s.registerWords frame n).getD l 0 := by
  obtain ⟨-, vreg⟩ := s.rebuild_keeps sv ((s.chainOf_single frames).trans rfl)
  rw [vreg, Saved.records_of_single groups parts small, List.foldl_cons, List.foldl_nil]
  obtain ⟨t, -, eq⟩ := s.rebuildRegs_eq sv (old, false, r)
  rw [eq, Saved.recordAt_of_single groups parts small]
  refine (State.vreg_foldl_regs own named t (fun n l => (s.recordWords sv 0 n).getD l 0) hl).trans ?_
  rw [if_pos hn, State.recordWords_single frames (by omega)]

theorem State.rebuildGroup_single :
    let r' := s.rebuildGroup sv old false r
    let word := fun o n => leNat (s.behindHead frame o n)
    r' = { r with
      pc := BitVec.ofNat 48 (word 0 8), exec := BitVec.ofNat 32 (word 16 4), live := BitVec.ofNat 32 (word 20 4)
      hlp := BitVec.ofNat 32 (word 24 4), fmt := BitVec.ofNat 16 (word 28 2), q := BitVec.ofNat 16 (word 32 2)
      grp := word 9 1, gran := word 10 1, cc := r'.cc, depth := r'.depth, stack := r'.stack, wait := r'.wait } ∧
    r'.wait = r.wait.ofVals (readBack 4 (s.behindHead frame 34 94) r.waitVals) := by
  have read (o n : Nat) (h : o + n ≤ 2048) : s.frameBytes sv.frames (0 + o) n = s.behindHead frame o n := by
    rw [Nat.zero_add, frames, State.frameBytes_single _ _ _ _ (by simp only [framePayload]; omega)]
  constructor
  · refine (s.rebuildGroup_eq sv old r).trans ?_
    simp only [Saved.recordAt_of_single groups parts small, read _ _ (by decide : 0 + 8 ≤ 2048),
      read _ _ (by decide : 16 + 4 ≤ 2048), read _ _ (by decide : 20 + 4 ≤ 2048), read _ _ (by decide : 24 + 4 ≤ 2048),
      read _ _ (by decide : 28 + 2 ≤ 2048), read _ _ (by decide : 32 + 2 ≤ 2048), read _ _ (by decide : 9 + 1 ≤ 2048),
      read _ _ (by decide : 10 + 1 ≤ 2048)]
  · change r.wait.ofVals (readBack 4 (s.frameBytes sv.frames ((sv.recordAt old false).1 + 34) 94) r.waitVals) = _
    rw [Saved.recordAt_of_single groups parts small, read 34 94 (by decide)]

end

theorem readBack_of_laidOut {part n : Nat} {bs : List Byte} {vals : List Nat} (len : bs.length = n) (laid : bs = laidOut part n vals) :
    readBack part bs vals = vals := by
  rw [readBack, if_pos (by rw [len]; exact laid)]

end Sys2Proof.Machine

namespace Sys2Proof.Machine

theorem Crew.ofHead_headVals (s : State) (sv : Saved) (c : Crew) (j : Nat) :
    let c' := c.ofHead (s.headVals sv j)
    c'.asid = sv.crew.asid ∧ c'.prio = sv.crew.prio ∧ c'.hent = sv.crew.hent ∧ c'.harg = sv.crew.harg ∧
      c'.fent = sv.crew.fent ∧ c'.farg = sv.crew.farg :=
  ⟨rfl, rfl, BitVec.ofNat_toNat _ _ |>.trans (by simp), BitVec.ofNat_toNat _ _ |>.trans (by simp),
    BitVec.ofNat_toNat _ _ |>.trans (by simp), BitVec.ofNat_toNat _ _ |>.trans (by simp)⟩

section

variable {s : State} {sv : Saved} {frame : Nat} (parts : sv.crew.parts = []) (frames : sv.frames = [frame])
include parts frames

theorem State.crew_rebuild_fields :
    let c' := (s.rebuild sv).2.crew
    c' = { sv.crew with
      parts := [], bars := c'.bars, sqsBase := c'.sqsBase, sqsDepth := c'.sqsDepth, asid := c'.asid, prio := c'.prio
      hent := c'.hent, harg := c'.harg, fent := c'.fent, farg := c'.farg, seqr := c'.seqr } ∧
    (s.frameHead frame = laidOut 0 128 (s.headVals sv 0) → c'.asid = sv.crew.asid ∧ c'.prio = sv.crew.prio ∧
      c'.hent = sv.crew.hent ∧ c'.harg = sv.crew.harg ∧ c'.fent = sv.crew.fent ∧ c'.farg = sv.crew.farg) ∧
    (s.frameBytes [frame] sv.atSeqr sv.seqBytes = laidOut 3 sv.seqBytes sv.seqVals →
      c'.seqr.vals = sv.crew.seqr.vals) := by
  intro c'
  have eq : c' = { sv.crew.ofHead (s.headRead sv 0 frame) with
      parts := [], bars := c'.bars, sqsDepth := c'.sqsDepth, sqsBase := c'.sqsBase
      seqr := sv.crew.seqr.ofVals (s.partRead sv 3 sv.atSeqr sv.seqBytes sv.seqVals) } :=
    State.crew_rebuild_single parts frames
  clear_value c'
  refine ⟨?_, fun laid => ?_, fun laid => ?_⟩
  · rw [eq]
    rfl
  · have read : s.headRead sv 0 frame = s.headVals sv 0 := readBack_of_laidOut (by simp [State.frameHead]) laid
    rw [read] at eq
    rw [eq]
    exact Crew.ofHead_headVals s sv sv.crew 0
  · have read : s.partRead sv 3 sv.atSeqr sv.seqBytes sv.seqVals = sv.seqVals := by
      rw [State.partRead, frames]
      exact readBack_of_laidOut (by simp [State.frameBytes]) laid
    rw [read] at eq
    rw [eq]
    exact Seqr.vals_ofVals ..

end

section

variable {s : State} {core slot gs old frame : Nat} {id : Nat} {sv : Saved} {r : Group} {rest more : List Nat}
  (only : s.saved = [(id, sv)]) (groups : sv.groups = [(old, r)]) (parts : sv.crew.parts = []) (rgq : sv.crew.rgq = [])
  (spawns : sv.spawns = []) (frames : sv.frames = [frame]) (small : old < 32) (own : r.homes = []) (named : r.uid ≠ 0)
  (gran : r.gran ≤ 8) (slots : s.freeCrewSlots core = slot :: rest) (gslots : s.freeSlots core = gs :: more)
include only groups parts rgq spawns frames small own named gran slots gslots

/-- A crew whose format bytes are all R147's stands as its frame gives it (R87, R147, R333). -/
theorem State.restoreCrew_rebuilds (ok : s.formatsOk sv = true) :
    ∃ t, s.restoreCrew id core sv = some t ∧ t.saved = [] ∧ t.crew? core slot = some (s.rebuild sv).2.crew ∧
      t.group? { core := core, slot := gs } = some ((s.rebuildGroup sv old false r).resumed slot) ∧
      ∀ n l, n < 32 * r.gran → l < 32 → t.v r n l = (s.registerWords frame n).getD l 0 := by
  have rows := s.onlyRows_rebuild sv (s.chainOf_single frames)
  have vreg : ∀ n l, n < 32 * r.gran → l < 32 →
      tget 0 (s.rebuild sv).1.vreg (vkey r.uid n l) = (s.registerWords frame n).getD l 0 :=
    fun n l => State.vreg_rebuild_single groups parts frames small own named gran
  have parts' : (s.rebuild sv).2.crew.parts = [] := by rw [(State.crew_rebuild_fields parts frames).1]
  have rgq' : (s.rebuild sv).2.crew.rgq = [] := by rw [(State.crew_rebuild_fields parts frames).1]; exact rgq
  have groups' := State.groups_rebuild_single (s := s) groups frames own
  have spawns' := State.spawns_rebuild (s := s) spawns
  have built : (if s.formatsOk sv then s.rebuild sv else (s, sv)) = ((s.rebuild sv).1, (s.rebuild sv).2) := if_pos ok
  generalize (s.rebuild sv).1 = u at rows vreg built
  generalize (s.rebuild sv).2 = w at parts' rgq' groups' spawns' built
  have filed : u.freeCrewSlots core = slot :: rest := by rw [rows]; exact slots
  have gfiled : u.freeSlots core = gs :: more := by rw [rows]; exact gslots
  obtain ⟨t, runs, eq⟩ := State.restoreCrew_single built filed gfiled spawns' groups' parts' rgq' small
  refine ⟨t, runs, ?_, ?_, ?_, fun n l hn hl => ?_⟩
  · rw [eq, rows, only]
    simp [tdel]
  · rw [eq]
    exact tfind_tput_self ..
  · rw [eq]
    exact tfind_tput_self ..
  · rw [State.v, Group.home, own, eq]
    exact vreg n l hn hl

omit only frames own named gran in
/-- A crew with a format byte that is none of R147's stands as it was saved (R333, log 42). -/
theorem State.restoreCrew_asSaved (bad : s.formatsOk sv = false) :
    ∃ t, s.restoreCrew id core sv = some t ∧ t.crews = tput s.crews (crewKey core slot) sv.crew ∧
      t.groups = tput s.groups (gidKey { core := core, slot := gs }) (r.resumed slot) := by
  obtain ⟨t, runs, eq⟩ := State.restoreCrew_single (id := id) (if_neg (by rw [bad]; exact Bool.false_ne_true)) slots gslots
    spawns groups parts rgq small
  exact ⟨t, runs, by rw [eq], by rw [eq]⟩

end

@[simp] theorem Group.resumed_uid (r : Group) (slot : Nat) : (r.resumed slot).uid = r.uid := by
  unfold Group.resumed
  dsimp only
  split <;> rfl

@[simp] theorem Group.resumed_crew (r : Group) (slot : Nat) : (r.resumed slot).crew = slot := by
  unfold Group.resumed
  dsimp only
  split <;> rfl

theorem State.mem_crewGroups {s : State} {core slot gs : Nat} {r : Group} (hgs : gs < 32)
    (hr : s.group? { core := core, slot := gs } = some r) (crew : r.crew = slot) :
    ({ core := core, slot := gs }, r) ∈ s.crewGroups core slot := by
  refine List.mem_filterMap.mpr ⟨_, mem_of_tfind hr, ?_⟩
  rw [keyGid_gidKey (g := { core := core, slot := gs }) hgs]
  simp [crew]

/-- Clearing a list of groups' registers clears each one's, and changes nothing but registers. -/
theorem State.foldl_clearRegs (l : List Group) (s : State) :
    let t := l.foldl (fun s (r : Group) => s.clearRegs r.uid) s
    t.crews = s.crews ∧ t.groups = s.groups ∧ (∀ k, tget 0 s.vreg k = 0 → tget 0 t.vreg k = 0) ∧
      ∀ r ∈ l, ∀ n < 256, ∀ l < 32, tget 0 t.vreg (vkey r.uid n l) = 0 := by
  have once (s : State) (u k : Nat) : tget 0 (s.clearRegs u).vreg k =
      if vkey u 0 0 ≤ k ∧ k < vkey (u + 1) 0 0 then 0 else tget 0 s.vreg k := tget_tclear ..
  induction l generalizing s with
  | nil => exact ⟨rfl, rfl, fun _ h => h, fun _ h => nomatch h⟩
  | cons x l ih =>
    obtain ⟨crews, groups, zero, cleared⟩ := ih (s.clearRegs x.uid)
    refine ⟨crews, groups, fun k hk => zero k ?_, fun r hr n hn l hl => ?_⟩
    · rw [once, hk, ite_self]
    · rcases List.mem_cons.mp hr with rfl | hr
      · refine zero _ ?_
        rw [once, if_pos]
        simp only [vkey]
        omega
      · exact cleared r hr n hn l hl

theorem find?_tput_of_forall_false {α : Type} {p : Nat × α → Bool} {t : Tab α} {n : Nat} {x : α} (none_ : ∀ e ∈ t, p e = false)
    (here : p (n, x) = true) : (tput t n x).find? p = some (n, x) := by
  rw [← List.head?_filter, filter_tput_of_forall_false none_ here]
  rfl

/-- The stop of a crew that could not be read (R333): SPILLFMT, its groups' registers 0. -/
theorem State.spillFail_stops {s t : State} {core slot gs : Nat} {c : Crew} {r : Group}
    (crews : t.crews = tput s.crews (crewKey core slot) c)
    (groups : t.groups = tput s.groups (gidKey { core := core, slot := gs }) r)
    (small : slot < 16) (hgs : gs < 32) (apart : ∀ e ∈ s.crews, e.2.launch ≠ c.launch) (crew : r.crew = slot)
    (going : c.stop = none) :
    ∃ c', (t.spillFail c.launch c.sheaf c.index).crew? core slot = some c' ∧
      (c'.stop.map fun st => st.frec.code) = some Code.spillfmt ∧
      ∀ n < 256, ∀ l < 32, tget 0 (t.spillFail c.launch c.sheaf c.index).vreg (vkey r.uid n l) = 0 := by
  have found : (t.crews.find? fun e => e.2.launch = c.launch && e.2.sheaf = c.sheaf && e.2.index = c.index) =
      some (crewKey core slot, c) := by
    rw [crews]
    exact find?_tput_of_forall_false (fun e he => by simp [apart e he]) (by simp)
  have atCore : crewKey core slot / 16 = core := by unfold crewKey; omega
  have atSlot : crewKey core slot % 16 = slot := by unfold crewKey; omega
  have hr : t.group? { core := core, slot := gs } = some r := by
    rw [State.group?, groups]
    exact tfind_tput_self ..
  have member := List.mem_append_left (c.parts.map (·.2)) (List.mem_map_of_mem (f := Prod.snd) (State.mem_crewGroups hgs hr crew))
  have eq : t.spillFail c.launch c.sheaf c.index = State.stopCrew (((t.crewGroups core slot).map (·.2) ++ c.parts.map (·.2)).foldl
      (fun s (r : Group) => s.clearRegs r.uid) t) core slot none { code := Code.spillfmt } := by
    simp only [State.spillFail, found, atCore, atSlot]
  obtain ⟨crews', -, -, cleared⟩ := State.foldl_clearRegs ((t.crewGroups core slot).map (·.2) ++ c.parts.map (·.2)) t
  rw [eq]
  generalize List.foldl _ t _ = u at crews' cleared
  have hc : u.crew? core slot = some c := by
    rw [State.crew?, crews', crews]
    exact tfind_tput_self ..
  obtain ⟨c', st, stands, stop, frec, -⟩ := State.crew?_stopCrew_first hc going none { code := Code.spillfmt }
  obtain ⟨vreg, -⟩ := State.regs_stopCrew u core slot none { code := Code.spillfmt }
  refine ⟨c', stands, by rw [stop, Option.map_some, frec], fun n hn l hl => ?_⟩
  rw [vreg]
  exact cleared r member n hn l hl

end Sys2Proof.Machine

namespace Sys2Proof.Machine

/-! ### The obligation -/

section

variable {s : State} {id core slot gs old frame : Nat} {sv : Saved} {r : Group} {rest more : List Nat}
  (only : s.saved = [(id, sv)]) (wakes : s.sheafWakes [(id, sv)] = true)
  (idle : (s.die (dieOf core)).admission = none) (unreserved : (s.die (dieOf core)).reservation = none)
  (owned : s.owns (s.partOf sv.crew.asid) core = true) (first : ∀ e ∈ s.launches, s.eligible (dieOf core) e.2 = false)
  (onDie : core < 256) (task : s.taskOfCrew sv.crew = {}) (fits : s.restorable [(id, sv)] 1 [core] = true)
  (index : sv.crew.index = 0) (parts : sv.crew.parts = []) (rgq : sv.crew.rgq = []) (groups : sv.groups = [(old, r)])
  (spawns : sv.spawns = []) (slots : s.freeCrewSlots core = slot :: rest) (gslots : s.freeSlots core = gs :: more)
  (frames : sv.frames = [frame]) (small : old < 32) (going : sv.crew.stop = none)
  (apart : ∀ e ∈ s.crews, e.2.launch ≠ sv.crew.launch) (own : r.homes = []) (named : r.uid ≠ 0) (gran : r.gran ≤ 8)
include only wakes idle unreserved owned first onDie task fits index parts rgq groups spawns slots gslots frames small
  going apart own named gran

omit going apart in
theorem exec_crewRestore_rebuilds (ok : s.formatsOk sv = true) : ∃ t, exec (.crewRestore id core) s = .next t ∧
    t.saved = [] ∧ t.crew? core slot = some (s.rebuild sv).2.crew ∧
    t.group? { core := core, slot := gs } = some ((s.rebuildGroup sv old false r).resumed slot) ∧
    ∀ n l, n < 32 * r.gran → l < 32 → t.v r n l = (s.registerWords frame n).getD l 0 := by
  obtain ⟨s', built, gone, crew, group, vreg⟩ := State.restoreCrew_rebuilds only groups parts rgq spawns frames small own named
    gran slots gslots ok
  obtain ⟨t, runs, saved, eq⟩ := exec_crewRestore_alone only wakes idle unreserved owned first onDie task fits index built
  rw [if_pos ok] at saved eq
  refine ⟨t, runs, saved gone, ?_, ?_, fun n l hn hl => ?_⟩
  · rw [eq]
    exact crew
  · rw [eq]
    exact group
  · rw [eq]
    exact vreg n l hn hl

omit frames named gran in
theorem exec_crewRestore_stops (bad : s.formatsOk sv = false) : ∃ (t : State) (c' : Crew),
    exec (.crewRestore id core) s = .next t ∧ t.crew? core slot = some c' ∧
    (c'.stop.map fun st => st.frec.code) = some Code.spillfmt ∧ ∀ n l, n < 256 → l < 32 → t.v r n l = 0 := by
  obtain ⟨s', built, crews, groups'⟩ := State.restoreCrew_asSaved (id := id) groups parts rgq spawns small slots gslots bad
  obtain ⟨t, runs, -, eq⟩ := exec_crewRestore_alone only wakes idle unreserved owned first onDie task fits index built
  have hslot : slot < 16 := List.mem_range.mp (List.mem_filter.mp (slots ▸ List.mem_cons_self)).1
  have hgs : gs < 32 := State.lt_of_mem_freeSlots (gslots ▸ List.mem_cons_self)
  obtain ⟨c', stands, code, zero⟩ := State.spillFail_stops crews groups' hslot hgs apart (r.resumed_crew slot) going
  rw [if_neg (by rw [bad]; exact Bool.false_ne_true)] at eq
  refine ⟨t, c', runs, ?_, code, fun n l hn hl => ?_⟩
  · rw [eq]
    exact stands
  · rw [State.v, Group.home, own, eq]
    exact r.resumed_uid slot ▸ zero n hn l hl

end

/-- Settles O36: a request marks, an eviction saves, and a restore rebuilds a crew from what its frame holds. -/
theorem evictionAndRestore : Obligations.EvictionAndRestore := by
  refine ⟨Claims.sheafsSavedAndRestored, fun s core slot c => ⟨preemptionRequest_marks, crewEviction_saves, ?_⟩⟩
  intro id sv gs more old r rest frame only wakes idle unreserved owned first onDie task fits index parts rgq groups
    _ _ spawns slots gslots frames small going apart own named gran bytes word block fb words
  have formats : s.formatsOk sv = true ↔ ∀ n < 32 * r.gran, fb n < 3 := State.formatsOk_iff groups parts small frames gran
  constructor
  · intro ok
    obtain ⟨t, runs, saved, crew, group, vreg⟩ := exec_crewRestore_rebuilds only wakes idle unreserved owned first onDie task fits
      index parts rgq groups spawns slots gslots frames small own named gran (formats.mpr ok)
    obtain ⟨fields, head, seqr⟩ := State.crew_rebuild_fields (s := s) parts frames
    obtain ⟨record, wait⟩ := State.rebuildGroup_single (s := s) groups parts frames small
    refine ⟨t, _, _, runs, crew, fields, head, seqr, group, record, fun laid => ?_, by rw [saved]; rfl, vreg⟩
    have read : readBack 4 (s.behindHead frame 34 94) r.waitVals = r.waitVals :=
      readBack_of_laidOut (by simp [State.behindHead]) laid
    rw [wait, read]
    exact Wait.vals_ofVals ..
  · rintro ⟨n, hn, bad⟩
    refine exec_crewRestore_stops only wakes idle unreserved owned first onDie task fits index parts rgq groups spawns slots
      gslots small going apart own (Bool.eq_false_iff.mpr fun ok => ?_)
    exact absurd (formats.mp ok n hn) (Nat.not_lt.mpr bad)

end Sys2Proof.Machine

/-! ## Accesses that fail (R74, R218, R226, R263, R293, R294, R299, R324) -/

namespace Sys2Proof.Machine

/-! ### The checks of an access (R226, R293, R294) -/

section

variable {s : State} {core asid va acc : Nat} {write : Bool}

/-- A translation fails with a code. -/
def Tr.Fails (t : Tr) (code : Nat) : Prop := ∃ fr, t = .fault fr ∧ fr.code = code

theorem State.translate_dead (small : va < 2 ^ 48) (dead : s.asidLive asid = false) :
    (s.translate core asid va acc write false).Fails Code.addrv := by
  unfold State.translate
  rw [if_neg (by omega), dead]
  exact ⟨_, rfl, rfl⟩

variable (small : va < 2 ^ 48) (live : s.asidLive asid = true)
include small live

theorem State.translate_region {d o : Nat} (region : s.region? asid va = some (d, o)) :
    s.translate core asid va acc write false = .lattice d o := by
  unfold State.translate
  rw [if_neg (by omega), live, region]
  rfl

variable (none_ : s.region? asid va = none)
include none_

theorem State.translate_gone (gone : s.goneAt asid va = true) :
    (s.translate core asid va acc write false).Fails Code.addrv := by
  unfold State.translate
  rw [if_neg (by omega), live, none_, gone]
  exact ⟨_, rfl, rfl⟩

variable (here : s.goneAt asid va = false)
include here

theorem State.translate_stop {e : W64} {lvl : Nat} {p : Bool} (stop : s.lookup core asid va = .stop e lvl p) :
    (s.translate core asid va acc write false).Fails (if p then Code.pagef else Code.addrv) := by
  unfold State.translate
  rw [if_neg (by omega), live, none_, here, stop]
  cases p <;> exact ⟨_, rfl, rfl⟩

variable {e : W64} {lvl ea : Nat} (leaf : s.lookup core asid va = .leaf e lvl ea)
include leaf

theorem State.translate_readOnly (hw : write = true) (denied : bitOf e 2 = false) :
    (s.translate core asid va acc write false).Fails (if bitOf e 6 then Code.pagef else Code.addrv) := by
  unfold State.translate
  rw [if_neg (by omega), live, none_, here, leaf, hw]
  simp only [denied]
  cases bitOf e 6 <;> exact ⟨_, rfl, rfl⟩

theorem State.translate_plain (writable : write = true → bitOf e 2 = true) (plain : bitOf e 7 = false)
    (ours : isAway (s.home (e.toNat / 2 ^ 12 % 2 ^ 40 * 4096 + va % pageSize lvl)) = false) :
    s.translate core asid va acc write false = .ok (s.home (e.toNat / 2 ^ 12 % 2 ^ 40 * 4096 + va % pageSize lvl)) e := by
  have place : placeOf e lvl ea va = e.toNat / 2 ^ 12 % 2 ^ 40 * 4096 + va % pageSize lvl := by
    rw [placeOf, plain]
    rfl
  have allowed : (write && !bitOf e 2) = false := by
    cases write
    · rfl
    · simp [writable rfl]
  obtain ⟨peer, block⟩ := (Bool.or_eq_false_iff ..).mp ours
  unfold State.translate
  rw [if_neg (by omega), live, none_, here, leaf]
  simp only [place, allowed, peer, block, plain, Bool.not_true, Bool.false_and, Bool.false_eq_true, if_false]

end

section

variable {s : State} {core asid : Nat} {a : W64} {n align acc : Nat} {write : Bool}

/-- An access fails with a code, at its address. -/
def LChk.Fails (c : LChk) (code : Nat) (a : W64) : Prop := ∃ fr, c = .bad fr ∧ fr.code = code ∧ fr.va = a

theorem State.chkGlobal_unfit (unfit : ¬ (a.toNat < 2 ^ 48 ∧ a.toNat % align = 0)) :
    (s.chkGlobal core asid a n align acc write).Fails Code.addrv a := by
  have out : (decide (2 ^ 48 ≤ a.toNat) || a.toNat % align != 0) = true := by
    simp only [Bool.or_eq_true, decide_eq_true_eq, bne_iff_ne]
    omega
  rw [State.chkGlobal, if_pos out]
  exact ⟨_, rfl, rfl, rfl⟩

variable (fits : a.toNat < 2 ^ 48 ∧ a.toNat % align = 0)
include fits

theorem fits_inBounds : ¬ (decide (2 ^ 48 ≤ a.toNat) || a.toNat % align != 0) = true := by
  simp only [Bool.or_eq_true, decide_eq_true_eq, bne_iff_ne]
  omega

theorem State.chkGlobal_fails {code : Nat} (h : (s.translate core asid a.toNat acc write false).Fails code) :
    (s.chkGlobal core asid a n align acc write).Fails code a := by
  obtain ⟨fr, failed, code⟩ := h
  rw [State.chkGlobal, if_neg (fits_inBounds fits), failed]
  exact ⟨_, rfl, code, rfl⟩

theorem State.chkGlobal_lattice {d o : Nat} (h : s.translate core asid a.toNat acc write false = .lattice d o) :
    s.chkGlobal core asid a n align acc write =
      if write then .bad { code := Code.nonmono, acc := acc, va := a } else .lat d o := by
  rw [State.chkGlobal, if_neg (fits_inBounds fits), h]

theorem State.chkGlobal_ok {pa : Nat} {e : W64} (h : s.translate core asid a.toNat acc write false = .ok pa e)
    (clean : s.softErr = []) : s.chkGlobal core asid a n align acc write = .ok pa := by
  have sound : s.leafError e pa n = false := by simp [State.leafError, State.uncorrectable, clean]
  rw [State.chkGlobal, if_neg (fits_inBounds fits), h]
  simp [sound]

end


theorem Claims.accessChecks : Claims.AccessChecks := by
  refine ⟨fun s core asid a n align acc write => ?translated, fun s asid va lvl tab => ?walk,
    fun s g r a n align acc => ?scratch⟩
  case translated =>
    intro c va fails fits
    refine ⟨State.chkGlobal_unfit, fun ok dead => State.chkGlobal_fails ok (State.translate_dead ok.1 dead), fun ok live =>
      ⟨fun d o region => ?_, fun none_ gone => State.chkGlobal_fails ok (State.translate_gone ok.1 live none_ gone),
        fun none_ here => ⟨fun e lvl p stop => State.chkGlobal_fails ok (State.translate_stop ok.1 live none_ here stop),
          fun e lvl ea leaf => ⟨fun hw denied =>
            State.chkGlobal_fails ok (State.translate_readOnly ok.1 live none_ here leaf hw denied),
            fun writable plain clean ours =>
              State.chkGlobal_ok ok (State.translate_plain ok.1 live none_ here leaf writable plain ours) clean⟩⟩⟩⟩
    have at_ := State.chkGlobal_lattice (n := n) ok (State.translate_region (core := core) (acc := acc) (write := write)
      ok.1 live region)
    exact ⟨fun hw => ⟨_, at_.trans (if_pos hw), rfl, rfl⟩, fun hw => at_.trans (if_neg (by simp [hw]))⟩
  case walk =>
    intro ea e
    have one : s.walk asid va (lvl + 1) tab =
      if !s.answers tab then .stop 0 (lvl + 1) false
      else if s.malformed asid va (lvl + 1) e then .stop e (lvl + 1) false
      else if !bitOf e 0 then .stop e (lvl + 1) (bitOf e 5 && !bitOf e 4)
      else if bitOf e 1 then .leaf e (lvl + 1) ea
      else s.walk asid va lvl (e.toNat / 2 ^ 12 % 2 ^ 40 * 4096) := rfl
    clear_value e ea
    rw [one]
    refine ⟨fun answers => by simp [answers], fun answers bad => by simp [answers, bad], fun answers good => ⟨fun valid => ?_,
      fun valid leaf => ?_, fun valid table => ?_⟩⟩
    · simp [answers, good, valid]
    · simp [answers, good, valid, leaf]
    · simp only [answers, good, valid, table, Bool.not_true, Bool.false_eq_true, if_false]
  case scratch =>
    intro c own
    have window : s.scratchOf g.core own r.crew a.toNat n false =
        if a.toNat + n ≤ own.hold.sg * 16384 then some (own.uid, a.toNat, g.core, r.crew) else none := rfl
    have check : c = match s.scratchOf g.core own r.crew a.toNat n false with
      | some x => if a.toNat % align != 0 then addrvAt a acc else .scr x.1 x.2.1 x.2.2.1 x.2.2.2
      | none => addrvAt a acc := rfl
    rw [check, window]
    constructor
    · rintro (out | odd)
      · rw [if_neg (by omega)]
        exact ⟨_, rfl, rfl⟩
      · split
        · simp only [bne_iff_ne, ne_eq, odd, not_false_eq_true, if_true]
          exact ⟨_, rfl, rfl⟩
        · exact ⟨_, rfl, rfl⟩
    · intro inside even
      rw [if_pos inside]
      simp [even]

end Sys2Proof.Machine

namespace Sys2Proof.Machine

/-! ### The gate at lanes that fail (R226) -/

/-- The lanes of an access that fail for good, and those that fail on a page that is pending. -/
def fatalLanes (ls : List Nat) (chk : Nat → LChk) : List Nat := ls.filter fun l => (chk l).fault?.any fun fr => fr.code < 0x100
def pendingLanes (ls : List Nat) (chk : Nat → LChk) : List Nat := ls.filter fun l => (chk l).fault?.any fun fr => 0x100 ≤ fr.code

/-- What a lane's failure is recorded as: whose it is, and the lanes that fail. -/
def FRec.named (fr : FRec) (who lanes : W32) : FRec := { fr with who := who, lanes := lanes }

section

variable (fr : FRec) (who lanes : W32)

@[simp] theorem FRec.code_named : (fr.named who lanes).code = fr.code := rfl
@[simp] theorem FRec.va_named : (fr.named who lanes).va = fr.va := rfl
@[simp] theorem FRec.acc_named : (fr.named who lanes).acc = fr.acc := rfl
@[simp] theorem FRec.lanes_named : (fr.named who lanes).lanes = lanes := rfl

end

/-- The failures of the lanes, in lane order. -/
def laneFaults (ls : List Nat) (chk : Nat → LChk) : List (Nat × FRec) :=
  ls.filterMap fun l => (chk l).fault?.map fun fr => (l, fr)

theorem laneFaults_lanes (ls : List Nat) (chk : Nat → LChk) (p : FRec → Bool) :
    ((laneFaults ls chk).filter fun x => p x.2).map (·.1) = ls.filter fun l => (chk l).fault?.any p := by
  induction ls with
  | nil => rfl
  | cons l ls ih =>
    unfold laneFaults at ih ⊢
    cases hf : (chk l).fault? with
    | none => simpa [hf] using ih
    | some fr => cases hp : p fr <;> simpa [hf, hp] using ih

theorem mem_laneFaults {ls : List Nat} {chk : Nat → LChk} {l : Nat} {fr : FRec} (h : (l, fr) ∈ laneFaults ls chk) :
    chk l = .bad fr := by
  obtain ⟨k, -, hk⟩ := List.mem_filterMap.mp h
  cases hc : chk k with
  | bad fr' =>
    rw [hc] at hk
    obtain ⟨rfl, rfl⟩ := Prod.mk.inj (Option.some.inj hk)
    exact hc
  | _ => rw [hc] at hk; nomatch hk

/-- The first of the failures that a predicate picks, by the lanes it picks. -/
theorem laneFaults_first {ls : List Nat} {chk : Nat → LChk} {p : FRec → Bool} {l : Nat} {rest : List Nat} {fr : FRec}
    (lanes : (ls.filter fun l => (chk l).fault?.any p) = l :: rest) (bad : chk l = .bad fr) :
    ∃ more, ((laneFaults ls chk).filter fun x => p x.2) = (l, fr) :: more := by
  have map := (laneFaults_lanes ls chk p).trans lanes
  cases hf : (laneFaults ls chk).filter fun x => p x.2 with
  | nil => rw [hf] at map; nomatch map
  | cons x more =>
    rw [hf, List.map_cons] at map
    obtain ⟨k, fr'⟩ := x
    obtain rfl : k = l := (List.cons.inj map).1
    have member : (k, fr') ∈ laneFaults ls chk := List.mem_of_mem_filter (hf ▸ List.mem_cons_self)
    obtain rfl : fr = fr' := LChk.bad.inj (bad.symm.trans (mem_laneFaults member))
    exact ⟨more, rfl⟩

section

variable (s : State) (g : Gid) (r : Group) (f : Fields) (sh : Shape) {ls : List Nat} {chk : Nat → LChk} (addr : Nat → W64)
  (locked : Nat → Bool) (srcs : List WSrc) {l : Nat} {rest : List Nat} {fr : FRec} (bad : chk l = .bad fr)
include bad

/-- The lowest lane that fails for good ends the instruction. -/
theorem State.gate_fatal (fatal : fatalLanes ls chk = l :: rest) :
    s.gate g r f sh ls chk addr locked srcs = .stop (.fatal (fr.named (whoOf g r.crew l) (laneMask (fatalLanes ls chk)))) := by
  obtain ⟨more, eq⟩ := laneFaults_first (p := fun fr => fr.code < 0x100) fatal bad
  have lanes := laneFaults_lanes ls chk fun fr => fr.code < 0x100
  unfold laneFaults at eq lanes
  unfold State.gate
  simp only [eq] at lanes ⊢
  rw [lanes]
  rfl

/-- Where none does, the lowest lane on a page that is pending ends it. -/
theorem State.gate_pending (none_ : fatalLanes ls chk = []) (pending : pendingLanes ls chk = l :: rest) :
    s.gate g r f sh ls chk addr locked srcs = .stop (.page (fr.named (whoOf g r.crew l) (laneMask (pendingLanes ls chk)))) := by
  obtain ⟨more, eq⟩ := laneFaults_first (p := fun fr => 0x100 ≤ fr.code) pending bad
  have lanes := laneFaults_lanes ls chk fun fr => 0x100 ≤ fr.code
  have nil : (laneFaults ls chk).filter (fun x => decide (x.2.code < 0x100)) = [] :=
    List.map_eq_nil_iff.mp ((laneFaults_lanes ls chk fun fr => fr.code < 0x100).trans none_)
  have all : (laneFaults ls chk).filter (fun x => decide (0x100 ≤ x.2.code)) = laneFaults ls chk := by
    refine List.filter_eq_self.mpr fun x hx => ?_
    have := List.filter_eq_nil_iff.mp nil x hx
    simpa using this
  rw [all] at eq lanes
  unfold laneFaults at nil eq lanes
  unfold State.gate
  simp only [eq] at nil lanes ⊢
  simp only [nil, lanes]
  rfl

end

end Sys2Proof.Machine

namespace Sys2Proof.Machine

/-! ### What a look-up leaves (R296, R337) -/

/-- `u` is `s` but for what reads and translations leave: caches, counts, corrected errors. -/
def Looked (s u : State) : Prop :=
  u = { s with cores := u.cores, dies := u.dies, softErr := u.softErr, dev := u.dev, freeCtr := u.freeCtr }

theorem Looked.refl (s : State) : Looked s s := rfl

theorem Looked.trans {s t u : State} (h : Looked s t) (h' : Looked t u) : Looked s u := by
  unfold Looked at *
  rw [h', h]

theorem Looked.foldl {α : Type} {f : State → α → State} (hf : ∀ t x, Looked t (f t x)) (l : List α) (s : State) :
    Looked s (l.foldl f s) := by
  induction l generalizing s with
  | nil => exact .refl s
  | cons x l ih => exact (hf s x).trans (ih _)

theorem Looked.countIssue (s : State) (g : Gid) (b : Bool) : Looked s (s.countIssue g b) := rfl

theorem Looked.logEvent (s : State) (code : Nat) (source count : Option Nat) : Looked s (s.logEvent code source count) := by
  obtain ⟨log, first, msix, eq⟩ := s.logEvent_eq code source count
  rw [eq]
  rfl

theorem Looked.correct (s : State) (pa n : Nat) : Looked s (s.correct pa n) := by
  unfold State.correct
  dsimp only
  split
  · exact .refl s
  · exact Looked.trans (t := { s with softErr := _, dev := _ }) rfl (.logEvent ..)

theorem Looked.readElsewhere (s : State) (pa n : Nat) : Looked s (s.readElsewhere pa n) := by
  unfold State.readElsewhere
  dsimp only
  split
  · exact .correct ..
  · exact (Looked.correct s pa n).trans (Looked.trans (t := { s.correct pa n with dev := _ }) rfl (.logEvent ..))

theorem Looked.walkReads (s : State) (asid va : Nat) : Looked s (s.walkReads asid va) := by
  unfold State.walkReads
  split
  · exact .refl s
  · exact .foldl (fun _ _ => .readElsewhere ..) _ _

theorem Looked.tlbs (s : State) (cores : Tab Core) (dies : Tab Die) : Looked s { s with cores := cores, dies := dies } := rfl

theorem Looked.translated (s : State) (core asid va : Nat) : Looked s (s.translated core asid va) := by
  unfold State.translated State.lookedUp
  split
  · exact .refl s
  · split
    · exact .refl s
    · next e lvl ea _ =>
      dsimp only
      have walked : Looked s (if (s.lookupHit core asid va).isSome then s else s.walkReads asid va) := by
        split
        · exact .refl s
        · exact .walkReads ..
      generalize (if (s.lookupHit core asid va).isSome then s else s.walkReads asid va) = t at walked
      have read : Looked t (if bitOf e 7 && bitsOf e 56 54 != 0 then t.correct (leafSpan e 0 0).1 (leafSpan e 0 0).2 else t) := by
        split
        · exact .correct ..
        · exact .refl t
      exact walked.trans (read.trans (.tlbs _ _ _))

theorem Looked.translatedAll (s : State) (core asid : Nat) (vas : List Nat) : Looked s (s.translatedAll core asid vas) :=
  .foldl (fun _ _ => .translated ..) _ _

theorem Looked.countPages (s : State) (g : Gid) (r : Group) (ls : List Nat) (chk : Nat → LChk) (addr : Nat → W64) :
    Looked s (s.countPages g r ls chk addr) := .translatedAll ..

/-! ### The two ends of an access that fails (R226, R299, R324) -/

theorem State.crewFatal_own (s : State) (g : Gid) {r : Group} (own : r.inHandler = false) (fr : FRec) :
    ∃ who, s.crewFatal g r fr =
      (s.putGroup g { r with halt := { cause := 7 }, skid := r.skidNow, bcast := none, stepper := none }).stopCrew
        g.core r.crew (some g) { fr with pc := r.pc, who := who } := by
  unfold crewFatal
  cases hk : r.kind with
  | handler _ | fatal _ => simp [Group.inHandler, hk] at own
  | _ => exact ⟨_, rfl⟩

theorem State.regions_stopCrew (s : State) (core slot : Nat) (but : Option Gid) (fr : FRec) :
    (s.stopCrew core slot but fr).regions = s.regions := by
  unfold stopCrew
  split
  · rfl
  · dsimp only
    split <;> rfl

section

variable {s u : State} {g : Gid} {r : Group} (looked : Looked s u) (own : r.inHandler = false) {fr fr' : FRec}
  {lanes : W32} (code : fr'.code = fr.code) (va : fr'.va = fr.va) (named : fr'.lanes = lanes)
include looked own code va named

theorem Looked.stopsFor {c : Crew} (hc : s.crew? g.core r.crew = some c) (going : c.stop = none) (small : g.slot < 32) :
    StopsFor s (u.crewFatal g r fr') g r fr lanes := by
  obtain ⟨who, eq⟩ := u.crewFatal_own g own fr'
  rw [eq]
  set me : Group := { r with halt := { cause := 7 }, skid := r.skidNow, bcast := none, stepper := none }
  have hc' : (u.putGroup g me).crew? g.core r.crew = some c := by
    rw [looked]
    exact hc
  obtain ⟨st, -, stops⟩ := State.group?_broadcast small (u.group?_putGroup_self g me) g.core r.crew (some g) 7
  rw [if_neg (by simp)] at stops
  obtain ⟨c', stop, there, stopped, frec, -⟩ := State.crew?_stopCrew_first hc' going (some g) { fr' with pc := r.pc, who := who }
  obtain ⟨vreg, preg, greg, mem, scratch⟩ :=
    State.regs_stopCrew (u.putGroup g me) g.core r.crew (some g) { fr' with pc := r.pc, who := who }
  have regions := State.regions_stopCrew (u.putGroup g me) g.core r.crew (some g) { fr' with pc := r.pc, who := who }
  refine ⟨⟨_, (State.group?_stopCrew_first hc' going _ _ g).trans stops, rfl, rfl, rfl, rfl⟩, ?_, ?_, ?_, ?_, ?_, ?_,
    c', stop, there, stopped, ?_, ?_, ?_, ?_⟩
  · rw [vreg, looked]; rfl
  · rw [preg, looked]; rfl
  · rw [greg, looked]; rfl
  · rw [mem, looked]; rfl
  · rw [scratch, looked]; rfl
  · rw [regions, looked]; rfl
  · rw [frec]; exact code
  · rw [frec]; exact va
  · rw [frec]
  · rw [frec]; exact named

theorem Looked.waitsOnPage (f : Fields) (sh : Shape) (acc : fr'.acc ≠ 9) :
    WaitsOnPage s (u.pageFault g r f sh fr') g r f fr lanes := by
  have asid : (u.crewOf g r).asid = s.asidOf g r := by
    rw [looked]
    rfl
  have part : u.partOf = s.partOf := by
    rw [looked]
    rfl
  have records : u.records = s.records := by
    rw [looked]
  unfold State.pageFault
  rw [own, if_neg Bool.false_ne_true]
  dsimp only
  rw [if_neg acc, asid, part, va]
  refine ⟨⟨_, State.group?_putGroup_self .., rfl, rfl, rfl, rfl, rfl⟩, ?_, ?_, ?_, ?_, ?_, ?_, _, congrArg (· ++ _) records,
    code, rfl, rfl, named⟩
  all_goals rw [looked]; rfl

end

end Sys2Proof.Machine

namespace Sys2Proof.Machine

/-! ### Counting the issue slot touches no check -/

section

variable (s : State) (g : Gid) (b : Bool)

@[simp] theorem State.translate_countIssue (core asid va acc : Nat) (write x : Bool) :
    (s.countIssue g b).translate core asid va acc write x = s.translate core asid va acc write x := by
  unfold State.translate
  rw [State.lookup_countIssue]
  rfl

@[simp] theorem State.chkGlobal_countIssue (core asid : Nat) (a : W64) (n align acc : Nat) (write : Bool) :
    (s.countIssue g b).chkGlobal core asid a n align acc write = s.chkGlobal core asid a n align acc write := by
  unfold State.chkGlobal
  rw [State.translate_countIssue]
  rfl

@[simp] theorem State.chkWord_countIssue (h : Gid) (r : Group) (a : W64) (n acc : Nat) (write : Bool) :
    (s.countIssue g b).chkWord h r a n acc write = s.chkWord h r a n acc write := by
  unfold State.chkWord
  rw [State.chkGlobal_countIssue]
  rfl

@[simp] theorem State.chkBlk_countIssue (r : Group) (core asid : Nat) (x y : W64) (gb acc : Nat) (write : Bool) :
    (s.countIssue g b).chkBlk r core asid x y gb acc write = s.chkBlk r core asid x y gb acc write := by
  unfold State.chkBlk State.chkUnit
  simp only [State.chkGlobal_countIssue]

@[simp] theorem State.chkScratch_countIssue (h : Gid) (r : Group) (a : W64) (n align acc : Nat) (sw : Bool) :
    (s.countIssue g b).chkScratch h r a n align acc sw = s.chkScratch h r a n align acc sw := rfl

@[simp] theorem State.chkLat_countIssue (asid : Nat) (f : Fields) (a : W64) (acc : Nat) :
    (s.countIssue g b).chkLat asid f a acc = s.chkLat asid f a acc := rfl

@[simp] theorem State.addr_countIssue (r : Group) (f : Fields) (pairBase : Bool) (l : Nat) :
    (s.countIssue g b).addr r f pairBase l = s.addr r f pairBase l := rfl

@[simp] theorem State.addrPlain_countIssue (r : Group) (f : Fields) (pairBase : Bool) (l : Nat) :
    (s.countIssue g b).addrPlain r f pairBase l = s.addrPlain r f pairBase l := rfl

@[simp] theorem State.latAddr_countIssue (r : Group) (f : Fields) (timed : Bool) (l : Nat) :
    (s.countIssue g b).latAddr r f timed l = s.latAddr r f timed l := rfl

@[simp] theorem State.asidOf_countIssue (h : Gid) (r : Group) : (s.countIssue g b).asidOf h r = s.asidOf h r := rfl

@[simp] theorem State.regionOf_countIssue (d : Nat) : (s.countIssue g b).regionOf d = s.regionOf d := rfl

@[simp] theorem State.loadBlocked_countIssue (r : Group) (n : Nat) (c : LChk) :
    (s.countIssue g b).loadBlocked r n c = s.loadBlocked r n c := rfl

@[simp] theorem State.storeBlocked_countIssue (n : Nat) (c : LChk) :
    (s.countIssue g b).storeBlocked n c = s.storeBlocked n c := rfl

@[simp] theorem State.lockedAt_countIssue (h : Gid) (r : Group) (n : Nat) (c : LChk) (a : W64) :
    (s.countIssue g b).lockedAt h r n c a = s.lockedAt h r n c a := rfl

end

/-! ### A failure is recorded as its access's kind -/

/-- A check's failure is of this kind of access. -/
def LChk.OfKind (acc : Nat) (c : LChk) : Prop := ∀ fr, c = .bad fr → fr.acc = acc

theorem LChk.ofKind_of_ne {c : LChk} (acc : Nat) (h : ∀ fr, c ≠ .bad fr) : c.OfKind acc := fun fr e => absurd e (h fr)

theorem LChk.ofKind_bad {fr : FRec} {acc : Nat} (h : fr.acc = acc) : (LChk.bad fr).OfKind acc := by
  rintro _ ⟨⟩
  exact h

theorem LChk.OfKind.ite {c : Prop} [Decidable c] {x y : LChk} {acc : Nat} (hx : x.OfKind acc) (hy : y.OfKind acc) :
    (if c then x else y).OfKind acc := by
  split
  · exact hx
  · exact hy

theorem ofKind_addrvAt (a : W64) (acc : Nat) : (addrvAt a acc).OfKind acc := LChk.ofKind_bad rfl

theorem State.ofKind_translate {s : State} {core asid va acc : Nat} {write x : Bool} :
    ∀ fr, s.translate core asid va acc write x = .fault fr → fr.acc = acc := by
  unfold State.translate
  dsimp only
  repeat' split
  all_goals rintro _ ⟨⟩ <;> rfl

theorem State.ofKind_chkGlobal (s : State) (core asid : Nat) (a : W64) (n align acc : Nat) (write : Bool) :
    (s.chkGlobal core asid a n align acc write).OfKind acc := by
  unfold State.chkGlobal
  split
  · exact ofKind_addrvAt a acc
  · split
    · exact .ite (LChk.ofKind_bad rfl) (LChk.ofKind_of_ne acc nofun)
    · exact .ite (LChk.ofKind_bad rfl) (LChk.ofKind_of_ne acc nofun)
    · next fr failed => exact LChk.ofKind_bad (State.ofKind_translate fr failed)

theorem LChk.OfKind.linked {r : Group} {a : W64} {acc : Nat} {c : LChk} (h : c.OfKind acc) : (r.linked a acc c).OfKind acc := by
  unfold Group.linked
  split
  · exact .ite (ofKind_addrvAt a acc) h
  · exact h

theorem State.ofKind_chkWord (s : State) (g : Gid) (r : Group) (a : W64) (n acc : Nat) (write : Bool) :
    (s.chkWord g r a n acc write).OfKind acc :=
  .ite (ofKind_addrvAt a acc) (.ite (s.ofKind_chkGlobal _ _ _ _ _ _ _) (s.ofKind_chkGlobal _ _ _ _ _ _ _).linked)

theorem State.ofKind_chkScratch (s : State) (g : Gid) (r : Group) (a : W64) (n align acc : Nat) (sw : Bool) :
    (s.chkScratch g r a n align acc sw).OfKind acc := by
  unfold State.chkScratch
  split
  · exact .ite (ofKind_addrvAt a acc) (LChk.ofKind_of_ne acc nofun)
  · exact ofKind_addrvAt a acc

theorem State.ofKind_chkUnit (s : State) (r : Group) (core asid : Nat) (a : W64) (n acc : Nat) (write : Bool) :
    (s.chkUnit r core asid a n acc write).OfKind acc :=
  .ite (ofKind_addrvAt a acc) (.ite (s.ofKind_chkGlobal _ _ _ _ _ _ _) (s.ofKind_chkGlobal _ _ _ _ _ _ _).linked)

theorem State.ofKind_chkLat (s : State) (asid : Nat) (f : Fields) (a : W64) (acc : Nat) :
    (s.chkLat asid f a acc).OfKind acc := by
  unfold State.chkLat
  refine .ite (ofKind_addrvAt a acc) ?_
  split
  · exact ofKind_addrvAt a acc
  · exact .ite (LChk.ofKind_of_ne acc nofun) (LChk.ofKind_bad rfl)

/-- The failing unit is one of the units. -/
theorem mem_of_worstUnit {us : List (LChk × Nat × Nat)} {u : LChk × Nat × Nat} (h : worstUnit us = some u) : u ∈ us := by
  simp only [worstUnit, Option.orElse_eq_orElse, Option.orElse_eq_or, Option.or_eq_some_iff] at h
  rcases h with h | ⟨-, h | ⟨-, h | ⟨-, h | ⟨-, h⟩⟩⟩⟩ <;> exact List.mem_of_find?_eq_some h

theorem State.ofKind_chkBlk (s : State) (r : Group) (core asid : Nat) (a b : W64) (gb acc : Nat) (write : Bool) :
    (s.chkBlk r core asid a b gb acc write).1.OfKind acc := by
  have units : ∀ u ∈ (blkUnits a b gb).map fun u => (s.chkUnit r core asid u.1 u.2 acc write, u.1.toNat, u.2),
      u.1.OfKind acc := by
    intro u hu
    obtain ⟨v, -, rfl⟩ := List.mem_map.mp hu
    exact s.ofKind_chkUnit _ _ _ _ _ _ _
  unfold State.chkBlk
  dsimp only
  split
  · next u worst => exact units u (mem_of_worstUnit worst)
  · generalize List.map _ (blkUnits a b gb) = us at units
    cases us with
    | nil => exact ofKind_addrvAt a acc
    | cons u us => exact units u List.mem_cons_self

end Sys2Proof.Machine

namespace Sys2Proof.Machine

/-! ### What an instruction comes to whose gate stops it -/

/-- How an instruction ends whose lanes' checks fail: for good, or on a page that is pending. -/
def EndsByFaults (i : Instr) (f : Fields) (s : State) (g : Gid) (r : Group) (lanes : List Nat) (chk : Nat → LChk) : Prop :=
  (∀ l rest fr, fatalLanes lanes chk = l :: rest → chk l = .bad fr →
    ∃ t, exec i s = .next t ∧ StopsFor s t g r fr (laneMask (fatalLanes lanes chk))) ∧
  (∀ l rest fr, fatalLanes lanes chk = [] → pendingLanes lanes chk = l :: rest → chk l = .bad fr →
    ∃ t, exec i s = .next t ∧ WaitsOnPage s t g r f fr (laneMask (pendingLanes lanes chk)))

/-- Some of these lanes fails, and the gate over them stops, for any group of the crew at `g`, with this result. -/
structure GateStops (g : Gid) (crew : Nat) (lanes : List Nat) (chk : Nat → LChk) (y : Res) : Prop where
  fails : ∃ l ∈ lanes, (chk l).fault?.isNone = false
  stops : ∀ (s : State) (r : Group) f sh addr locked srcs, r.crew = crew → s.gate g r f sh lanes chk addr locked srcs = .stop y

/-- The instruction's effect is what its gate stops with, in a state in which no more than look-ups have been made. -/
def StopsAtGate (s : State) (g : Gid) (r : Group) (lanes : List Nat) (chk : Nat → LChk) (x : Res) : Prop :=
  ∀ y, GateStops g r.crew lanes chk y → x = y ∨ ∃ u, Looked s u ∧ x = y.at_ u

theorem StopsAtGate.of_at {s u : State} {g : Gid} {r : Group} {lanes : List Nat} {chk : Nat → LChk} {x : Res} (looked : Looked s u)
    (h : ∀ y, GateStops g r.crew lanes chk y → x = y.at_ u) : StopsAtGate s g r lanes chk x :=
  fun y hy => .inr ⟨u, looked, h y hy⟩

section

variable (s u : State) (g : Gid) (r : Group) (f : Fields) (sh : Shape) (noMatch : Bool) (fr : FRec)

theorem State.settle_fatal : s.settle g r f sh noMatch (.fatal fr) = s.crewFatal g r fr := rfl
theorem State.settle_page : s.settle g r f sh noMatch (.page fr) = s.pageFault g r f sh fr := rfl
theorem State.settle_fatalAt : s.settle g r f sh noMatch (Res.at_ u (.fatal fr)) = u.crewFatal g r fr := rfl
theorem State.settle_pageAt : s.settle g r f sh noMatch (Res.at_ u (.page fr)) = u.pageFault g r f sh fr := rfl

end

theorem endsByFaults {i : Instr} {x' : Form} {f : Fields} {sh : Shape} {s : State} {g : Gid} {r : Group} {c : Crew}
    {lanes : List Nat} {chk : Nat → LChk} {acc op : Nat} {k : State → Gid → Group → Res}
    (hc : s.crew? g.core r.crew = some c) (going : c.stop = none) (own : r.inHandler = false) (small : g.slot < 32)
    (h : Issues i x' s g r) (hi : i.form = some ⟨false, op, f, sh⟩) (he : exec i s = issue 0 f sh s k)
    (kind : ∀ l, (chk l).OfKind acc) (data : acc ≠ 9)
    (stops : StopsAtGate (s.countIssue g (s.useful r f)) g r lanes chk (k (s.countIssue g (s.useful r f)) g r)) :
    EndsByFaults i f s g r lanes chk := by
  obtain rfl := h.form_eq hi
  have counted := Looked.countIssue s g (s.useful r f)
  have settles {y : Res} (hy : k (s.countIssue g (s.useful r f)) g r = y) (goes : y ≠ .retry) : exec i s =
      .next ((s.countIssue g (s.useful r f)).settle g r f sh (!f.u && (s.activeLanes r f).isEmpty) y) := by
    rw [he, issue_settle h (Nat.zero_le _) k (by rw [hy]; exact goes), hy]
  have first {p : FRec → Bool} {l : Nat} {rest : List Nat} {fr : FRec}
      (some_ : (lanes.filter fun l => (chk l).fault?.any p) = l :: rest) (bad : chk l = .bad fr) :
      ∃ l ∈ lanes, (chk l).fault?.isNone = false :=
    ⟨l, List.mem_of_mem_filter (some_ ▸ List.mem_cons_self), by rw [bad]; rfl⟩
  refine ⟨fun l rest fr fatal bad => ?_, fun l rest fr none_ pending bad => ?_⟩
  · have gate : GateStops g r.crew lanes chk (.fatal (fr.named (whoOf g r.crew l) (laneMask (fatalLanes lanes chk)))) :=
      ⟨first fatal bad, fun s r' f sh addr locked srcs crew => crew ▸ s.gate_fatal g r' f sh addr locked srcs bad fatal⟩
    rcases stops _ gate with hy | ⟨u, looked, hy⟩
    · exact ⟨_, (settles hy nofun).trans (congrArg _ (State.settle_fatal ..)),
        counted.stopsFor own (FRec.code_named ..) (FRec.va_named ..) (FRec.lanes_named ..) hc going small⟩
    · exact ⟨_, (settles hy nofun).trans (congrArg _ (State.settle_fatalAt ..)),
        (counted.trans looked).stopsFor own (FRec.code_named ..) (FRec.va_named ..) (FRec.lanes_named ..) hc going small⟩
  · have acc' : (fr.named (whoOf g r.crew l) (laneMask (pendingLanes lanes chk))).acc ≠ 9 := by
      rw [FRec.acc_named, kind l fr bad]
      exact data
    have gate : GateStops g r.crew lanes chk (.page (fr.named (whoOf g r.crew l) (laneMask (pendingLanes lanes chk)))) :=
      ⟨first pending bad, fun s r' f sh addr locked srcs crew =>
        crew ▸ s.gate_pending g r' f sh addr locked srcs bad none_ pending⟩
    rcases stops _ gate with hy | ⟨u, looked, hy⟩
    · exact ⟨_, (settles hy nofun).trans (congrArg _ (State.settle_page ..)),
        counted.waitsOnPage own (FRec.code_named ..) (FRec.va_named ..) (FRec.lanes_named ..) f sh acc'⟩
    · exact ⟨_, (settles hy nofun).trans (congrArg _ (State.settle_pageAt ..)),
        (counted.trans looked).waitsOnPage own (FRec.code_named ..) (FRec.va_named ..) (FRec.lanes_named ..) f sh acc'⟩

/-! ### Loads, stores, atomics -/

section

variable {s : State} {g : Gid} {r : Group} {f : Fields} {sh : Shape} {op n : Nat} {chk : Nat → LChk} {addr : Nat → W64}

theorem State.loadRes_stops {ws : List Byte → List (Nat × W32)} (free : ∀ l ∈ s.activeLanes r f, s.loadBlocked r n (chk l) = false) :
    StopsAtGate s g r (s.contrib r f) chk (s.loadRes g r f sh op n chk addr ws) := by
  have unblocked : ((s.activeLanes r f).any fun l => s.loadBlocked r n (chk l)) = false :=
    List.any_eq_false.mpr fun l hl => by simp [free l hl]
  refine .of_at (.countPages s g r (s.activeLanes r f) chk addr) fun y gate => ?_
  simp only [State.loadRes, unblocked, Bool.false_eq_true, if_false]
  rw [show (s.activeLanes r f).filter (fun l => !r.hlp.getLsbD l) = s.contrib r f from rfl]
  simp only [gate.stops _ _ _ _ _ _ _ rfl]

theorem State.storeRes_stops {data : Nat → List Byte} (free : ∀ l ∈ s.contrib r f, s.storeBlocked n (chk l) = false) :
    StopsAtGate s g r (s.contrib r f) chk (s.storeRes g r f sh op n chk addr data) := by
  have unblocked : ((s.contrib r f).any fun l => s.storeBlocked n (chk l)) = false :=
    List.any_eq_false.mpr fun l hl => by simp [free l hl]
  refine .of_at (.countPages s g r (s.contrib r f) chk addr) fun y gate => ?_
  simp only [State.storeRes, unblocked, Bool.false_eq_true, if_false, gate.stops _ _ _ _ _ _ _ rfl]

theorem State.atomRes_stops {scratch : Bool} (first : r.wait = .none)
    (free : ∀ l ∈ s.contrib r f, s.storeBlocked (Fields.atomW f / 8) (chk l) = false) :
    StopsAtGate s g r (s.contrib r f) chk (s.atomRes g r f sh scratch op chk addr) := by
  have unblocked : ((s.contrib r f).any fun l => s.storeBlocked (Fields.atomW f / 8) (chk l)) = false :=
    List.any_eq_false.mpr fun l hl => by simp [free l hl]
  refine .of_at (.countPages s g r (s.contrib r f) chk addr) fun y gate => ?_
  simp only [State.atomRes, first, unblocked, Bool.false_eq_true, if_false, gate.stops _ _ _ _ _ _ _ rfl]

end

/-- The group-wide LDC makes one access, which counts as every contributing lane's. -/
theorem ldc_stops {f : Fields} (wide : f.u = true) (s : State) : ∃ k, execLdc f s = issue 0 f (shapeLdc f) s k ∧
    ∀ (t : State) (g : Gid) (r : Group),
      t.loadBlocked r (tyBytes f.ty) (t.chkWord g r (t.addr r f true 0) (tyBytes f.ty) Acc.load false) = false →
      StopsAtGate t g r (if (t.contrib r f).isEmpty then [0] else t.contrib r f)
        (fun l => t.chkWord g r (t.addr r f true l) (tyBytes f.ty) Acc.load false) (k t g r) := by
  refine ⟨_, rfl, fun t g r free y gate => .inr ⟨?u, ?looked, ?stops⟩⟩
  case stops =>
    simp only [wide, if_true]
    rw [if_neg (by simpa using free)]
    simp only [gate.stops _ _ _ _ _ _ _ rfl]
    rfl
  case looked => exact .countPages ..

theorem ldb_stops (f : Fields) (s : State) : ∃ k, execLdb f s = issue 0 f (shapeLdb f) s k ∧
    ∀ (t : State) (g : Gid) (r : Group), r.outbox = [] → StopsAtGate t g r (t.contrib r f)
      (fun l => (t.chkBlk r g.core (t.asidOf g r) (t.src64 r false f.ka f.a l) (t.src64 r false f.kb f.b l) f.gb Acc.load false).1)
      (k t g r) := by
  refine ⟨_, rfl, fun t g r drained y gate => .inr ⟨?u, ?looked, ?stops⟩⟩
  case stops =>
    dsimp only
    split
    · next blocked =>
      obtain ⟨l, -, hl⟩ := List.any_eq_true.mp blocked
      obtain ⟨u, -, hu⟩ := List.any_eq_true.mp hl
      split at hu
      · simp [drained] at hu
      · nomatch hu
    · simp only [gate.stops _ _ _ _ _ _ _ rfl]
      rfl
  case looked => exact .translatedAll ..

theorem stb_stops (f : Fields) (s : State) : ∃ k, execStb f s = issue 0 f (shapeStb f) s k ∧
    ∀ (t : State) (g : Gid) (r : Group), StopsAtGate t g r (t.contrib r f)
      (fun l => (t.chkBlk r g.core (t.asidOf g r) (t.src64 r false f.ka f.a l) (t.src64 r false f.kb f.b l) f.gb Acc.store true).1)
      (k t g r) := by
  refine ⟨_, rfl, fun t g r y gate => .inr ⟨?u, ?looked, ?stops⟩⟩
  case stops =>
    simp only [gate.stops _ _ _ _ _ _ _ rfl]
    rfl
  case looked => exact .translatedAll ..

/-! ### The lattice's -/

theorem lpeek_stops (f : Fields) (s : State) : ∃ k, execLpeek f s = issue 0 f (shapeLpeek f) s k ∧
    ∀ (t : State) (g : Gid) (r : Group), StopsAtGate t g r (t.contrib r f)
      (fun l => t.chkLat (t.asidOf g r) f (t.latAddr r f false l) Acc.load) (k t g r) := by
  refine ⟨_, rfl, fun t g r y gate => .inl ?_⟩
  dsimp only
  rw [show (t.activeLanes r f).filter (fun l => !r.hlp.getLsbD l) = t.contrib r f from rfl]
  simp only [gate.stops _ _ _ _ _ _ _ rfl]

end Sys2Proof.Machine

namespace Sys2Proof.Machine

/-- A lane's cell of a lattice instruction, whose value or threshold `v` may be a NaN (R263, R268). -/
def State.cellChk (s : State) (asid : Nat) (r : Group) (f : Fields) (timed : Bool) (acc : Nat) (v : Nat → Nat) (l : Nat) : LChk :=
  match s.chkLat asid f (s.latAddr r f timed l) acc with
  | .lat d o => if latNan (s.regionOf d).typ (v l)
      then LChk.bad { code := Code.nonmono, acc := acc, va := s.latAddr r f timed l } else .lat d o
  | x => x

theorem State.ofKind_cellChk (s : State) (asid : Nat) (r : Group) (f : Fields) (timed : Bool) (acc : Nat) (v : Nat → Nat)
    (l : Nat) : (s.cellChk asid r f timed acc v l).OfKind acc := by
  have kind := s.ofKind_chkLat asid f (s.latAddr r f timed l) acc
  unfold State.cellChk
  split
  · exact .ite (LChk.ofKind_bad rfl) (LChk.ofKind_of_ne acc nofun)
  · exact kind

@[simp] theorem State.cellChk_countIssue (s : State) (g : Gid) (b : Bool) (asid : Nat) (r : Group) (f : Fields) (timed : Bool)
    (acc : Nat) (v : Nat → Nat) (l : Nat) : (s.countIssue g b).cellChk asid r f timed acc v l = s.cellChk asid r f timed acc v l := rfl

/-- What a join gives its cell: a GCNT slot's addend, or the cell's value. -/
def State.joinVal (s : State) (r : Group) (f : Fields) (l : Nat) : Nat :=
  if f.latTyp = 9 then (s.src32 r false f.kb f.b l).toNat else s.latVal r (Fields.cell f) f.kb f.b l

theorem State.threshRes_stops {s : State} {g : Gid} {r : Group} {f : Fields} {sh : Shape} {op : Nat} {timed : Bool} :
    StopsAtGate s g r (s.contrib r f) (s.cellChk (s.asidOf g r) r f timed Acc.load (s.latThresh r f))
      (s.threshRes g r f sh op timed) := by
  intro y gate
  left
  have stops := gate.stops s r f sh (s.latAddr r f timed) (fun _ => false)
    [{ src := 0, lanes := s.contrib r f, x := s.latAddr r f timed }] rfl
  unfold State.threshRes
  dsimp only
  split
  · next x h => exact Gate.stop.inj (h.symm.trans stops)
  · next h => nomatch h.symm.trans stops

theorem eq_of_ite_eq_of_not {α : Type} {c : Prop} [Decidable c] {a b x : α} (h : (if c then a else b) = x) (hc : ¬ c) : b = x := by
  rwa [if_neg hc] at h

theorem State.joinRes_stops {s : State} {g : Gid} {r : Group} {f : Fields} {op : Nat} {mst : Bool} (first : r.wait = .none) :
    StopsAtGate s g r (s.contrib r f) (s.cellChk (s.asidOf g r) r f false Acc.store (s.joinVal r f)) (s.joinRes g r f op mst) := by
  intro y gate
  left
  obtain ⟨l, hl, fails⟩ := gate.fails
  have some_ : (s.contrib r f).isEmpty = false := by
    cases h : s.contrib r f with
    | nil => rw [h] at hl; nomatch hl
    | cons _ _ => rfl
  have unsound : ((s.contrib r f).all fun l => (s.cellChk (s.asidOf g r) r f false Acc.store (s.joinVal r f) l).fault?.isNone) = false :=
    List.all_eq_false.mpr ⟨l, hl, by simp [fails]⟩
  have here : ((s.contrib r f).isEmpty || r.wait != .none) = false := by rw [some_, first]; rfl
  unfold State.joinRes
  dsimp only
  rw [here, Bool.false_and, Bool.false_and, Bool.false_and, if_neg Bool.false_ne_true, if_neg Bool.false_ne_true]
  split
  · next k h =>
    have skipped := eq_of_ite_eq_of_not h fun sound => Bool.eq_false_iff.mp unsound ((Bool.and_eq_true ..).mp sound).1
    nomatch skipped
  · split
    · next x h => exact Gate.stop.inj (h.symm.trans (gate.stops _ _ _ _ _ _ _ rfl))
    · next h => nomatch h.symm.trans (gate.stops _ _ _ _ _ _ _ rfl)

end Sys2Proof.Machine

namespace Sys2Proof.Machine

/-! ### What several lanes load is what each would load alone (R213) -/

theorem State.cores_logEvent (s : State) (code : Nat) (source count : Option Nat) :
    (s.logEvent code source count).cores = s.cores := by
  obtain ⟨log, first, msix, eq⟩ := s.logEvent_eq code source count
  rw [eq]

theorem State.cores_correct (s : State) (pa n : Nat) : (s.correct pa n).cores = s.cores := by
  unfold State.correct
  dsimp only
  split
  · rfl
  · exact State.cores_logEvent ..

theorem State.cores_readElsewhere (s : State) (pa n : Nat) : (s.readElsewhere pa n).cores = s.cores := by
  unfold State.readElsewhere
  dsimp only
  split
  · exact State.cores_correct ..
  · exact (State.cores_logEvent ..).trans (State.cores_correct ..)

theorem State.cores_foldl {α : Type} {f : State → α → State} (hf : ∀ t x, (f t x).cores = t.cores) (l : List α) (s : State) :
    (l.foldl f s).cores = s.cores := by
  induction l generalizing s with
  | nil => rfl
  | cons x l ih => exact (ih _).trans (hf s x)

theorem State.cores_walkReads (s : State) (asid va : Nat) : (s.walkReads asid va).cores = s.cores := by
  unfold State.walkReads
  split
  · rfl
  · exact State.cores_foldl (fun _ _ => State.cores_readElsewhere ..) _ _

/-- The view of a core. -/
def State.view (s : State) (core : Nat) : Tab (List Byte) := (s.core core).view

theorem State.view_of_cores {s t : State} (h : t.cores = s.cores) (n : Nat) : t.view n = s.view n := by
  rw [State.view, State.core, h]
  rfl

theorem State.view_putCore (s : State) (core : Nat) {c : Core} (h : c.view = s.view core) (n : Nat) :
    (s.putCore core c).view n = s.view n := by
  by_cases same : n = core
  · subst same
    rw [← h]
    simp [State.view, State.core, State.putCore]
  · simp [State.view, State.core, State.putCore, tfind_tput_ne _ _ same]

theorem State.view_translated (s : State) (core asid va n : Nat) : (s.translated core asid va).view n = s.view n := by
  unfold State.translated State.lookedUp
  split
  · rfl
  · split
    · rfl
    · next e lvl ea _ =>
      dsimp only
      have walked : (if (s.lookupHit core asid va).isSome then s else s.walkReads asid va).cores = s.cores := by
        split
        · rfl
        · exact State.cores_walkReads ..
      generalize (if (s.lookupHit core asid va).isSome then s else s.walkReads asid va) = t at walked
      have read : (if bitOf e 7 && bitsOf e 56 54 != 0 then t.correct (leafSpan e 0 0).1 (leafSpan e 0 0).2 else t).cores =
          t.cores := by
        split
        · exact State.cores_correct ..
        · rfl
      generalize (if bitOf e 7 && bitsOf e 56 54 != 0 then t.correct (leafSpan e 0 0).1 (leafSpan e 0 0).2 else t) = u at read
      exact (State.view_putCore u core (c := { (u.core core).counted e (placeOf e lvl ea va) with
        tlb := tabFill 256 ((u.core core).counted e (placeOf e lvl ea va)).tlb (tlbKey asid lvl va) (e, lvl, ea) }) rfl n).trans
        (State.view_of_cores (read.trans walked) n)

theorem State.view_translatedAll (s : State) (core asid : Nat) (vas : List Nat) (n : Nat) :
    (s.translatedAll core asid vas).view n = s.view n := by
  unfold State.translatedAll
  generalize sortNat _ = pages
  induction pages generalizing s with
  | nil => rfl
  | cons p pages ih => exact (ih _).trans (State.view_translated ..)

theorem State.view_countIssue (s : State) (g : Gid) (b : Bool) (n : Nat) : (s.countIssue g b).view n = s.view n := by
  rw [State.view, State.core_countIssue_eq]
  rfl

/-- In `t` the core's loads read as in `s`: the view may hold more lines, each as at home. -/
structure LoadsAlike (s t : State) (core : Nat) : Prop where
  mem : t.mem = s.mem
  scratch : t.scratch = s.scratch
  regions : t.regions = s.regions
  line : ∀ n, tfind (t.view core) n = tfind (s.view core) n ∨
    tfind (s.view core) n = none ∧ tfind (t.view core) n = some (s.bytes (n * 64) 64)

/-- A place that a core's view may hold a copy of, within a line. -/
def LChk.InLine (n : Nat) (c : LChk) : Prop := ∀ pa, c = .ok pa → isAway pa = false ∧ pa % 64 + n ≤ 64

theorem State.bytes_of_line (s : State) {pa n : Nat} (fits : pa % 64 + n ≤ 64) :
    ((s.bytes (pa / 64 * 64) 64).drop (pa % 64)).take n = s.bytes pa n := by
  refine List.ext_getElem ?_ fun i h h' => ?_
  · simp [State.bytes]
    omega
  · simp only [State.bytes, List.getElem_take, List.getElem_drop, List.getElem_map, List.getElem_range]
    congr 1
    omega

theorem State.bytes_correct (s : State) (pa n a k : Nat) : (s.correct pa n).bytes a k = s.bytes a k := by
  have looked := Looked.correct s pa n
  simp only [State.bytes, State.byte]
  rw [looked]

section

variable {s : State} {g : Gid} {r : Group} {n pa : Nat} (ours : isAway pa = false)
include ours

/-- A unit in the group's own outbox is forwarded (R213). -/
theorem State.loadUnit_forwarded {bs : List Byte} (own : r.forward? .global pa n = some bs) :
    s.loadUnit g r n (.ok pa) = (bs, s) := by
  simp only [State.loadUnit, ours, own, Bool.false_eq_true, if_false]

variable (none_ : r.forward? .global pa n = none)
include none_

/-- Else it is read from the core's view. -/
theorem State.loadUnit_viewed {line : List Byte} (held : tfind (s.view g.core) (pa / 64) = some line) :
    s.loadUnit g r n (.ok pa) = ((line.drop (pa % 64)).take n, s) := by
  have held' : s.viewLine? g.core pa = some line := held
  simp only [State.loadUnit, ours, none_, held', Bool.false_eq_true, if_false]

/-- Else it is read at home, and its line placed in the view. -/
theorem State.loadUnit_home (absent : tfind (s.view g.core) (pa / 64) = none) :
    s.loadUnit g r n (.ok pa) = (s.bytes pa n, (s.correct pa n).placeLine g.core pa) := by
  have absent' : s.viewLine? g.core pa = none := absent
  simp only [State.loadUnit, ours, none_, absent', Bool.false_eq_true, if_false, State.bytes_correct]

end

/-- A unit of scratch is forwarded, or read. -/
theorem State.loadUnit_scratch (s : State) (g : Gid) (r : Group) (n uid off k l : Nat) :
    s.loadUnit g r n (.scr uid off k l) = ((r.forward? (.scratch uid) off n).getD (s.sbytes uid off n), s) := by
  simp only [State.loadUnit]
  cases r.forward? (.scratch uid) off n <;> rfl

section

variable {s t : State} {core : Nat} (alike : LoadsAlike s t core)
include alike

theorem LoadsAlike.bytes (pa n : Nat) : t.bytes pa n = s.bytes pa n := by
  simp only [State.bytes, State.byte, alike.mem]

theorem LoadsAlike.correct (pa n : Nat) : LoadsAlike s (t.correct pa n) core := by
  have looked := Looked.correct t pa n
  refine ⟨?_, ?_, ?_, fun k => ?_⟩
  · rw [looked]; exact alike.mem
  · rw [looked]; exact alike.scratch
  · rw [looked]; exact alike.regions
  · rw [State.view_of_cores (State.cores_correct ..)]
    exact alike.line k

theorem LoadsAlike.placeLine {pa : Nat} (absent : tfind (t.view core) (pa / 64) = none) :
    LoadsAlike s (t.placeLine core pa) core := by
  have view : (t.placeLine core pa).view core = tput (t.view core) (pa / 64) (t.bytes (pa / 64 * 64) 64) := by
    rw [State.view, State.placeLine, State.core_modCore_self]
    rfl
  refine ⟨alike.mem, alike.scratch, alike.regions, fun k => ?_⟩
  rw [view, tfind_tput]
  by_cases here : k = pa / 64
  · subst here
    rw [if_pos rfl, alike.bytes]
    rcases alike.line (pa / 64) with same | ⟨-, there⟩
    · exact .inr ⟨same.symm.trans absent, rfl⟩
    · rw [absent] at there
      nomatch there
  · rw [if_neg here]
    exact alike.line k

/-- A unit loads the same, and leaves the other units' loads the same. -/
theorem LoadsAlike.loadUnit {g : Gid} (at_ : g.core = core) (r : Group) {n : Nat} {c : LChk} (inLine : c.InLine n) :
    (t.loadUnit g r n c).1 = (s.loadUnit g r n c).1 ∧ LoadsAlike s (t.loadUnit g r n c).2 core := by
  subst at_
  cases c with
  | bad fr => exact ⟨rfl, alike⟩
  | lat d o =>
    have region : t.regionOf d = s.regionOf d := by rw [State.regionOf, alike.regions]; rfl
    exact ⟨congrArg (Region.bytes · (dieOf g.core) o n) region, alike⟩
  | scr uid off k l =>
    have bytes : t.sbytes uid off n = s.sbytes uid off n := by simp only [State.sbytes, State.sbyte, alike.scratch]
    rw [State.loadUnit_scratch, State.loadUnit_scratch, bytes]
    exact ⟨rfl, alike⟩
  | ok pa =>
    obtain ⟨ours, fits⟩ := inLine pa rfl
    cases own : r.forward? .global pa n with
    | some bs =>
      rw [State.loadUnit_forwarded ours own, State.loadUnit_forwarded ours own]
      exact ⟨rfl, alike⟩
    | none =>
      cases held : tfind (t.view g.core) (pa / 64) with
      | some line =>
        rw [State.loadUnit_viewed ours own held]
        refine ⟨?_, alike⟩
        rcases alike.line (pa / 64) with same | ⟨absent, there⟩
        · rw [State.loadUnit_viewed ours own (same.symm.trans held)]
        · rw [State.loadUnit_home ours own absent, Option.some.inj (held.symm.trans there)]
          exact s.bytes_of_line fits
      | none =>
        have absent : tfind (s.view g.core) (pa / 64) = none := by
          rcases alike.line (pa / 64) with same | ⟨absent, -⟩
          · exact same.symm.trans held
          · exact absent
        rw [State.loadUnit_home ours own held, State.loadUnit_home ours own absent]
        refine ⟨alike.bytes pa n, (alike.correct pa n).placeLine ?_⟩
        rw [State.view_of_cores (State.cores_correct ..)]
        exact held

/-- So do several lanes'. -/
theorem LoadsAlike.loadLanes {g : Gid} (at_ : g.core = core) (r : Group) {n : Nat} {chk : Nat → LChk} {ls : List Nat}
    (inLine : ∀ l ∈ ls, (chk l).InLine n) :
    (t.loadLanes g r n chk ls).1 = ls.map fun l => (l, (s.loadUnit g r n (chk l)).1) := by
  induction ls generalizing t with
  | nil => rfl
  | cons l ls ih =>
    obtain ⟨value, after⟩ := alike.loadUnit at_ r (inLine l List.mem_cons_self)
    rw [State.loadLanes, List.map_cons, value]
    exact congrArg (_ :: ·) (ih after fun k hk => inLine k (List.mem_cons_of_mem _ hk))

end

end Sys2Proof.Machine

namespace Sys2Proof.Machine

/-! ### Lanes in a locked range (R218) -/

theorem State.trace_untraced {s : State} {g : Gid} {r : Group} (h : s.untraced g r) (op : Nat) (ls : List Nat)
    (addr : Nat → W64) : s.trace g r op ls addr = s := by
  have off : bitOf (s.trctl (s.crewOf g r).asid) 63 = false := h
  simp [State.trace, off]

theorem Looked.untraced {s t : State} (looked : Looked s t) {g : Gid} {r : Group} (h : s.untraced g r) : t.untraced g r := by
  have same : t.trctl (t.asidOf g r) = s.trctl (s.asidOf g r) := by
    rw [looked]
    rfl
  rw [State.untraced, same]
  exact h

/-- Where no lane fails, the lanes in a locked range trap, and the others go on. -/
theorem State.gate_go {s : State} {g : Gid} (unwatched : s.unwatched g.core) (r : Group) (f : Fields) (sh : Shape) {ls : List Nat}
    {chk : Nat → LChk} (clear : ∀ l ∈ ls, (chk l).fault? = none) (addr : Nat → W64) (locked : Nat → Bool) (srcs : List WSrc) :
    ∃ ts, s.gate g r f sh ls chk addr locked srcs = .go [] (ls.filter fun l => !locked l) ts ∧
      ts.map (fun t => (t.lane, t.code, t.pc, t.addr)) =
        (ls.filter locked).map fun l => (l, Code.rangelk, r.pc, addr l) := by
  have sound : (ls.filterMap fun l => (chk l).fault?.map fun fr => (l, fr)) = [] :=
    List.filterMap_eq_nil_iff.mpr fun l hl => by rw [clear l hl]; rfl
  have quiet : (if s.skipsWatch r f then [] else s.watchMatches g r (srcs ++ [pcSrc r])) = [] := by
    rw [s.watchMatches_unwatched _ _ _ unwatched, ite_self]
  have all : (ls.filter fun l => !([] : List Nat).contains l) = ls := List.filter_eq_self.mpr fun l _ => rfl
  unfold State.gate
  simp only [sound, quiet, List.filter_nil, haltMatch_nil, trapMatch_nil, List.map_nil, all]
  refine ⟨_, rfl, ?_⟩
  rw [List.map_map]
  rfl

section

variable {i : Instr} {x : Form} {f : Fields} {sh : Shape} {op : Nat} {s : State} {g : Gid} {r : Group}
  {k : State → Gid → Group → Res} (h : Issues i x s g r) (own : r.inHandler = false) (hi : i.form = some ⟨false, op, f, sh⟩)
  (he : exec i s = issue 0 f sh s k)
include h own hi he

/-- An instruction completes, some of its lanes trapping. -/
theorem Issues.exec_ok_traps {s' : State} {r' : Group} {post : List WSrc} {ts : List TrapLane}
    (hk : k (s.countIssue g (s.useful r f)) g r = .ok s' r' (some []) post ts) (groups : s'.groups = s.groups) :
    exec i s = .next (s'.putGroup g { r' with wskip := false, traps := r'.traps ++ ts }) := by
  obtain rfl := h.form_eq hi
  have same : s'.group? g = some r := by
    rw [State.group?, groups]
    exact h.group
  rw [he, issue_settle h (Nat.zero_le _) k (by rw [hk]; exact Res.noConfusion), hk,
    State.settle_ok (State.unwatched_countIssue h.unwatched) _ _ _ _ _ _ _ _ _ (.inr rfl) (.inr own), State.keepHalt_same same]

end

/-- A store of global memory whose lanes pass the checks. -/
theorem State.storeRes_go {s : State} {g : Gid} (unwatched : s.unwatched g.core) {r : Group} (untraced : s.untraced g r)
    {f : Fields} {sh : Shape} {op n : Nat} {chk : Nat → LChk} {addr : Nat → W64} {data : Nat → List Byte}
    (free : ∀ l ∈ s.contrib r f, s.storeBlocked n (chk l) = false) (clear : ∀ l ∈ s.contrib r f, (chk l).fault? = none) :
    let lock := fun l => s.lockedAt g r n (chk l) (addr l)
    let go := (s.contrib r f).filter fun l => !lock l
    let es := storeEntries (go.flatMap fun l => laneCells l (chk l) (addr l).toNat (data l))
    ∃ u ts, Looked s u ∧ s.storeRes g r f sh op n chk addr data =
        .ok u { r.next f with outbox := r.outbox ++ es.map fun e => { e with pc := r.pc } } (some []) [] ts ∧
      ts.map (fun t => (t.lane, t.code, t.pc, t.addr)) =
        ((s.contrib r f).filter lock).map fun l => (l, Code.rangelk, r.pc, addr l) := by
  intro lock go es
  have unblocked : ((s.contrib r f).any fun l => s.storeBlocked n (chk l)) = false :=
    List.any_eq_false.mpr fun l hl => by simp [free l hl]
  have looked := Looked.countPages s g r (s.contrib r f) chk addr
  obtain ⟨ts, gate, frames⟩ := State.gate_go unwatched r f sh clear addr lock
    [{ src := 1, lanes := s.contrib r f, x := addr },
     { src := 3, lanes := s.contrib r f, x := fun l => BitVec.ofNat 64 (leNat (data l) % 2 ^ 64), width := 8 * min n 8 }]
  refine ⟨s.countPages g r (s.contrib r f) chk addr, ts, looked, ?_, frames⟩
  simp only [State.storeRes, unblocked, Bool.false_eq_true, if_false]
  simp only [lock] at gate
  rw [gate]
  simp only [State.trace_untraced (looked.untraced untraced)]
  rfl

end Sys2Proof.Machine

namespace Sys2Proof.Machine

theorem Looked.loadUnit (s : State) (g : Gid) (r : Group) (n : Nat) (c : LChk) : Looked s (s.loadUnit g r n c).2 := by
  unfold State.loadUnit
  split
  · split
    · exact .refl s
    · split
      · exact .refl s
      · split
        · exact .refl s
        · exact (Looked.correct s _ n).trans rfl
  · split <;> exact .refl s
  · exact .refl s
  · exact .refl s

theorem Looked.loadLanes (s : State) (g : Gid) (r : Group) (n : Nat) (chk : Nat → LChk) (ls : List Nat) :
    Looked s (s.loadLanes g r n chk ls).2 := by
  induction ls generalizing s with
  | nil => exact .refl s
  | cons l ls ih => exact (Looked.loadUnit s g r n (chk l)).trans (ih _)

/-- Lanes picked from all lanes are in lane order. -/
theorem filter_allLanes_contains (p : Nat → Bool) :
    (allLanes.filter fun l => (allLanes.filter p).contains l) = allLanes.filter p := by
  refine List.filter_congr fun l hl => ?_
  rw [List.contains_eq_mem, Bool.eq_iff_iff]
  simp [hl]

/-- A load of this device's memory whose lanes pass the checks, in a group without helper lanes. -/
theorem State.loadRes_go {s : State} {g : Gid} (unwatched : s.unwatched g.core) {r : Group} (untraced : s.untraced g r)
    {f : Fields} {sh : Shape} {op n : Nat} {chk : Nat → LChk} {addr : Nat → W64} {ws : List Byte → List (Nat × W32)}
    (free : ∀ l ∈ s.activeLanes r f, s.loadBlocked r n (chk l) = false) (all : s.activeLanes r f = s.contrib r f)
    (clear : ∀ l ∈ s.contrib r f, (chk l).fault? = none) (inLine : ∀ l ∈ s.contrib r f, (chk l).InLine n) :
    let lock := fun l => s.lockedAt g r n (chk l) (addr l)
    let go := (s.contrib r f).filter fun l => !lock l
    ∃ u post ts, s.loadRes g r f sh op n chk addr ws =
        .ok (u.writeV r go fun l => ws (s.loadUnit g r n (chk l)).1) (r.next f) (some []) post ts ∧ Looked s u ∧
      ts.map (fun t => (t.lane, t.code, t.pc, t.addr)) =
        ((s.contrib r f).filter lock).map fun l => (l, Code.rangelk, r.pc, addr l) := by
  intro lock go
  have unblocked : ((s.activeLanes r f).any fun l => s.loadBlocked r n (chk l)) = false :=
    List.any_eq_false.mpr fun l hl => by simp [free l hl]
  have noHelpers : (s.activeLanes r f).filter (fun l => r.hlp.getLsbD l) = [] := by
    refine List.filter_eq_nil_iff.mpr fun l hl => ?_
    have := (List.mem_filter.mp (all ▸ hl : l ∈ s.contrib r f)).2
    simpa using this
  have counted := Looked.countPages s g r (s.activeLanes r f) chk addr
  have alike : LoadsAlike s (s.countPages g r (s.activeLanes r f) chk addr) g.core := by
    refine ⟨?_, ?_, ?_, fun m => .inl ?_⟩
    · rw [counted]
    · rw [counted]
    · rw [counted]
    · rw [State.countPages, State.view_translatedAll]
  obtain ⟨ts, gate, frames⟩ := State.gate_go unwatched r f sh clear addr lock [{ src := 0, lanes := s.contrib r f, x := addr }]
  have values := alike.loadLanes rfl r (n := n) (chk := chk) (ls := go) fun l hl => inLine l (List.mem_of_mem_filter hl)
  have looked := counted.trans (Looked.loadLanes (s.countPages g r (s.activeLanes r f) chk addr) g r n chk go)
  have near : (go.any fun l => (chk l).away) = false := by
    refine List.any_eq_false.mpr fun l hl => ?_
    cases hc : chk l with
    | ok pa => simpa [LChk.away] using (inLine l (List.mem_of_mem_filter hl) pa hc).1
    | _ => simp [LChk.away]
  have ordered : (allLanes.filter fun l => go.contains l) = go := by
    obtain ⟨p, picked⟩ : ∃ p, go = allLanes.filter p := by
      simp only [go, State.contrib, State.activeLanes, List.filter_filter]
      exact ⟨_, rfl⟩
    rw [picked]
    exact filter_allLanes_contains p
  refine ⟨_, ?post, ts, ?runs, looked, frames⟩
  case runs =>
    simp only [State.loadRes, unblocked, noHelpers, Bool.false_eq_true, if_false]
    rw [show (s.activeLanes r f).filter (fun l => !r.hlp.getLsbD l) = s.contrib r f from rfl]
    simp only [lock] at gate
    rw [gate]
    simp only [List.filter_nil, List.contains_nil, Bool.or_false, List.map_nil, List.append_nil]
    simp only [go, lock] at ordered near values looked
    simp only [ordered, near, values, State.trace_untraced (looked.untraced untraced)]
    rw [if_neg Bool.false_ne_true, List.foldl_map]
    rfl

end Sys2Proof.Machine

namespace Sys2Proof.Machine

/-! ### The obligation -/

theorem State.writeV_congr (s : State) (r : Group) {ls : List Nat} {ws ws' : Nat → List (Nat × W32)} (h : ∀ l ∈ ls, ws l = ws' l) :
    s.writeV r ls ws = s.writeV r ls ws' :=
  List.foldl_ext _ _ _ fun t l hl => by rw [h l hl]

/-- Registers that follow one another differ. -/
theorem pieces_nodup (d : Nat) (xs : List W32) : ((pieces d xs).map Prod.fst).Nodup := by
  have regs : (pieces d xs).map Prod.fst = (List.range xs.length).map (d + ·) := by
    simp [pieces]
  rw [regs]
  exact List.nodup_range.map fun _ _ h => Nat.add_left_cancel h

/-- A check of global memory gives no place of scratch. -/
def LChk.OffScratch (c : LChk) : Prop := ∀ uid off k l, c ≠ .scr uid off k l

theorem LChk.OffScratch.ite {c : Prop} [Decidable c] {x y : LChk} (hx : x.OffScratch) (hy : y.OffScratch) :
    (if c then x else y).OffScratch := by
  split
  · exact hx
  · exact hy

theorem State.offScratch_chkGlobal (s : State) (core asid : Nat) (a : W64) (n align acc : Nat) (write : Bool) :
    (s.chkGlobal core asid a n align acc write).OffScratch := by
  unfold State.chkGlobal
  refine .ite nofun ?_
  split
  · exact .ite nofun nofun
  · exact .ite nofun nofun
  · exact nofun

theorem LChk.OffScratch.linked {r : Group} {a : W64} {acc : Nat} {c : LChk} (h : c.OffScratch) : (r.linked a acc c).OffScratch := by
  unfold Group.linked
  split
  · exact .ite nofun h
  · exact h

theorem State.offScratch_chkWord (s : State) (g : Gid) (r : Group) (a : W64) (n acc : Nat) (write : Bool) :
    (s.chkWord g r a n acc write).OffScratch :=
  .ite nofun (.ite (s.offScratch_chkGlobal _ _ _ _ _ _ _) (s.offScratch_chkGlobal _ _ _ _ _ _ _).linked)

theorem LChk.OffScratch.storeBlocked {c : LChk} (h : c.OffScratch) (s : State) (n : Nat) : s.storeBlocked n c = false := by
  cases c with
  | scr uid off k l => exact absurd rfl (h uid off k l)
  | _ => rfl

/-- The check of a lane's word. -/
def State.wordChk (s : State) (g : Gid) (r : Group) (f : Fields) (acc : Nat) (write : Bool) (l : Nat) : LChk :=
  s.chkWord g r (s.addr r f true l) (tyBytes f.ty) acc write

/-- Whether a copy locks the lane's word. -/
def State.wordLocked (s : State) (g : Gid) (r : Group) (f : Fields) (acc : Nat) (write : Bool) (l : Nat) : Bool :=
  s.lockedAt g r (tyBytes f.ty) (s.wordChk g r f acc write l) (s.addr r f true l)

section

variable {f : Fields} {x : Form} {s : State} {g : Gid} {r : Group} (own : r.inHandler = false) (untraced : s.untraced g r)
include own untraced

theorem exec_st_rangelk (h : Issues (.st f) x s g r) (clear : ∀ l ∈ s.contrib r f, (s.wordChk g r f Acc.store true l).fault? = none) :
    let chk := s.wordChk g r f Acc.store true
    let lock := s.wordLocked g r f Acc.store true
    let es := storeEntries (((s.contrib r f).filter fun l => !lock l).flatMap fun l =>
      laneCells l (chk l) (s.addr r f true l).toNat (s.storeData r f l))
    ∃ t ts, exec (.st f) s = .next t ∧ t.mem = s.mem ∧ t.vreg = s.vreg ∧
      t.group? g = some { r.next f with
        wskip := false, traps := r.traps ++ ts, outbox := r.outbox ++ es.map fun e => { e with pc := r.pc } } ∧
      ts.map (fun t => (t.lane, t.code, t.pc, t.addr)) =
        ((s.contrib r f).filter lock).map fun l => (l, Code.rangelk, r.pc, s.addr r f true l) := by
  intro chk lock es
  have counted := Looked.countIssue s g (s.useful r f)
  obtain ⟨u, ts, looked, runs, frames⟩ := State.storeRes_go (State.unwatched_countIssue (b := s.useful r f) h.unwatched)
    (counted.untraced untraced) (sh := shapeSt f) (op := 0x71) (n := tyBytes f.ty) (addr := fun l => s.addr r f true l)
    (data := fun l => s.storeData r f l) (fun l _ => (s.offScratch_chkWord _ _ _ _ _ _).storeBlocked _ _) clear
  have looked' := counted.trans looked
  refine ⟨_, ts, h.exec_ok_traps own rfl (exec_st f s) (Eq.trans ?same runs) (by rw [looked']), ?_, ?_,
    State.group?_putGroup_self .., frames⟩
  case same =>
    simp only [State.chkWord_countIssue, State.addr_countIssue]
    rfl
  · rw [looked']; rfl
  · rw [looked']; rfl

theorem exec_ld_rangelk (h : Issues (.ld f) x s g r)
    (free : ∀ l ∈ s.activeLanes r f, s.loadBlocked r (tyBytes f.ty) (s.wordChk g r f Acc.load false l) = false)
    (all : s.activeLanes r f = s.contrib r f)
    (clear : ∀ l ∈ s.contrib r f, (s.wordChk g r f Acc.load false l).fault? = none ∧
      (s.wordChk g r f Acc.load false l).InLine (tyBytes f.ty)) :
    let chk := s.wordChk g r f Acc.load false
    let lock := s.wordLocked g r f Acc.load false
    ∃ t ts, exec (.ld f) s = .next t ∧ t.mem = s.mem ∧
      VWritten s t r ((s.contrib r f).filter fun l => !lock l)
        (fun l => pieces f.d.toNat (widen f.ty (s.loadUnit g r (tyBytes f.ty) (chk l)).1)) ∧
      t.group? g = some { r.next f with wskip := false, traps := r.traps ++ ts } ∧
      ts.map (fun t => (t.lane, t.code, t.pc, t.addr)) =
        ((s.contrib r f).filter lock).map fun l => (l, Code.rangelk, r.pc, s.addr r f true l) := by
  intro chk lock
  have counted := Looked.countIssue s g (s.useful r f)
  have alike : LoadsAlike s (s.countIssue g (s.useful r f)) g.core := ⟨rfl, rfl, rfl, fun m => .inl (by rw [State.view_countIssue])⟩
  obtain ⟨u, post, ts, runs, looked, frames⟩ := State.loadRes_go (State.unwatched_countIssue (b := s.useful r f) h.unwatched)
    (counted.untraced untraced) (sh := shapeLd f) (op := 0x70) (addr := fun l => s.addr r f true l) (ws := loadWrites f) free all
    (fun l hl => (clear l hl).1) (fun l hl => (clear l hl).2)
  have looked' := counted.trans looked
  refine ⟨_, ts, h.exec_ok_traps own rfl (exec_ld f s) (Eq.trans ?same runs) (by rw [State.writeV_eq, looked']), ?_, ?_,
    State.group?_putGroup_self .., frames⟩
  case same =>
    simp only [State.chkWord_countIssue, State.addr_countIssue]
    rfl
  · rw [State.writeV_eq, looked']; rfl
  · have values : ∀ l ∈ (s.contrib r f).filter fun l => !lock l,
        loadWrites f ((s.countIssue g (s.useful r f)).loadUnit g r (tyBytes f.ty) (chk l)).1 =
          pieces f.d.toNat (widen f.ty (s.loadUnit g r (tyBytes f.ty) (chk l)).1) := by
      intro l hl
      rw [loadWrites, (alike.loadUnit rfl r (clear l (List.mem_of_mem_filter hl)).2).1]
    refine State.writeV_written s r (((s.activeLanes_nodup r f).filter _).filter _) (fun l hl =>
      State.activeLanes_lt (List.mem_of_mem_filter (List.mem_of_mem_filter hl))) (fun l _ => pieces_nodup _ _) ?_
    refine (congrArg State.vreg (u.writeV_congr r values)).trans ?_
    rw [State.writeV_eq, State.writeV_eq, looked']
    rfl

end

theorem Claims.failingAccesses : Claims.FailingAccesses := by
  intro f s g r c hc going own small asid ls n access word scratch loads stores w atom atoms block
  have ends {i : Instr} {sh : Shape} {lanes : List Nat} {chk : Nat → LChk} {acc op : Nat} {k : State → Gid → Group → Res}
      {ready : Prop} (hi : i.form = some ⟨false, op, f, sh⟩) (he : exec i s = issue 0 f sh s k)
      (kind : ∀ l, (chk l).OfKind acc) (data : acc ≠ 9)
      (stops : ready → r.wait = .none →
        StopsAtGate (s.countIssue g (s.useful r f)) g r lanes chk (k (s.countIssue g (s.useful r f)) g r)) :
      access i lanes chk ready :=
    fun x h ok => endsByFaults hc going own small h hi he kind data (stops ok h.first)
  have words (acc : Nat) (write : Bool) (l : Nat) : (word acc write l).OfKind acc := s.ofKind_chkWord _ _ _ _ _ _
  have scratches (acc l : Nat) : (scratch acc l).OfKind acc := s.ofKind_chkScratch _ _ _ _ _ _ _
  refine ⟨?ld, ?lds, ?ldc, ?ldcWide, ?st, ?sts, ?atom, ?atoms, ?ldb, ?stb, ⟨?jst, ?mst, ?tld, ?tldt, ?lpeek⟩, ?lockedSt, ?lockedLd⟩
  case ld =>
    refine ends rfl (exec_ld f s) (words Acc.load false) (by decide) fun free _ => ?_
    simp only [State.chkWord_countIssue, State.addr_countIssue]
    exact State.loadRes_stops free
  case lds =>
    refine ends rfl (exec_lds f s) (scratches Acc.load) (by decide) fun free _ => ?_
    exact State.loadRes_stops free
  case ldc =>
    intro lanes
    refine ends rfl (exec_ldc f s) (words Acc.load false) (by decide) fun free _ => ?_
    simp only [lanes, Bool.false_eq_true, if_false, State.chkWord_countIssue, State.addr_countIssue]
    exact State.loadRes_stops free
  case ldcWide =>
    intro wide
    obtain ⟨k, he, stops⟩ := ldc_stops wide s
    refine ends rfl ((exec_ldc f s).trans he) (words Acc.load false) (by decide) fun free _ => ?_
    have stops' := stops (s.countIssue g (s.useful r f)) g r (by simpa using free)
    simp only [State.chkWord_countIssue, State.addr_countIssue, State.contrib_countIssue, List.isEmpty_iff] at stops'
    exact stops'
  case st =>
    refine ends rfl (exec_st f s) (words Acc.store true) (by decide) fun _ _ => ?_
    simp only [State.chkWord_countIssue, State.addr_countIssue]
    exact State.storeRes_stops fun l _ => (s.offScratch_chkWord _ _ _ _ _ _).storeBlocked _ _
  case sts =>
    refine ends rfl (exec_sts f s) (scratches Acc.store) (by decide) fun free _ => ?_
    exact State.storeRes_stops free
  case atom =>
    refine ends rfl (exec_atom f s) (fun l => (s.ofKind_chkGlobal _ _ _ _ _ _ _).linked) (by decide) fun _ first => ?_
    simp only [State.chkGlobal_countIssue, State.addrPlain_countIssue]
    exact State.atomRes_stops first fun l _ => (s.offScratch_chkGlobal _ _ _ _ _ _ _).linked.storeBlocked _ _
  case atoms =>
    refine ends rfl (exec_atoms f s) (fun l => s.ofKind_chkScratch _ _ _ _ _ _ _) (by decide) fun free first => ?_
    exact State.atomRes_stops first free
  case ldb =>
    obtain ⟨k, he, stops⟩ := ldb_stops f s
    refine ends rfl ((exec_ldb f s).trans he) (fun l => s.ofKind_chkBlk _ _ _ _ _ _ _ _) (by decide) fun drained _ => ?_
    have stops' := stops (s.countIssue g (s.useful r f)) g r drained
    simp only [State.chkBlk_countIssue] at stops'
    exact stops'
  case stb =>
    obtain ⟨k, he, stops⟩ := stb_stops f s
    refine ends rfl ((exec_stb f s).trans he) (fun l => s.ofKind_chkBlk _ _ _ _ _ _ _ _) (by decide) fun _ _ => ?_
    have stops' := stops (s.countIssue g (s.useful r f)) g r
    simp only [State.chkBlk_countIssue] at stops'
    exact stops'
  case jst =>
    exact ends rfl (exec_jst f s) (fun l => s.ofKind_cellChk asid r f false Acc.store (s.joinVal r f) l) (by decide) fun _ first =>
      State.joinRes_stops first
  case mst =>
    exact ends rfl (exec_mst f s) (fun l => s.ofKind_cellChk asid r f false Acc.store (s.joinVal r f) l) (by decide) fun _ first =>
      State.joinRes_stops first
  case tld =>
    exact ends rfl (exec_tld f s) (fun l => s.ofKind_cellChk asid r f false Acc.load (s.latThresh r f) l) (by decide) fun _ _ =>
      State.threshRes_stops
  case tldt =>
    exact ends rfl (exec_tldt f s) (fun l => s.ofKind_cellChk asid r f true Acc.load (s.latThresh r f) l) (by decide) fun _ _ =>
      State.threshRes_stops
  case lpeek =>
    obtain ⟨k, he, stops⟩ := lpeek_stops f s
    exact ends rfl ((exec_lpeek f s).trans he) (fun l => s.ofKind_chkLat asid f (s.latAddr r f false l) Acc.load) (by decide)
      fun _ _ => stops (s.countIssue g (s.useful r f)) g r
  case lockedSt => exact fun x h untraced clear => exec_st_rangelk own untraced h clear
  case lockedLd => exact fun x h untraced free all clear => exec_ld_rangelk own untraced h free all clear

/-- Settles O60: each check's outcome is read off its steps, and each instruction ends as the gate over its lanes does. -/
theorem accessFaults : Obligations.AccessFaults := ⟨Claims.accessChecks, Claims.failingAccesses⟩

end Sys2Proof.Machine

/-! ## The divergence stack (R101 to R103) -/

namespace Sys2Proof.Machine

section

variable (f : Fields) (s : State) (r : Group)

/-- The lanes that DPUSH keeps: those of its predicate, or under `.n` the others. -/
def State.pushMask : W32 := if f.fnIs 1 then ~~~ s.predMask r f.a.toNat else s.predMask r f.a.toNat

/-- The entry DPUSH makes. -/
def State.pushEntry : SEntry :=
  { exec := r.exec, els := r.exec &&& ~~~ s.pushMask f r, fmt := r.fmt, rejoin := (r.rel f.i32).pc.extractLsb' 2 46 }

variable {f s r}

theorem does_dpush (h : r.depth ≠ 16) : Does (.dpush f) s r { after := { r.next f with
    stack := r.stack.set r.depth (s.pushEntry f r), depth := r.depth + 1, exec := r.exec &&& s.pushMask f r } } :=
  .plain rfl (exec_dpush f s) (Nat.zero_le _) fun _ _ => if_neg h

theorem faults_dpush (h : r.depth = 16) : Faults (.dpush f) s r Code.divdepth :=
  .of rfl (exec_dpush f s) (Nat.zero_le _) fun _ _ => if_pos h

/-- Where the path that DELSE turns to has no lane, the group goes on at the rejoin point. -/
theorem does_delse (hd : r.depth ≠ 0) (hs : r.top.isSealed = false) (he : r.top.elseDone = false) :
    Does (.delse f) s r { after := { r with
      stack := r.stack.set (r.depth - 1) { r.top with elseDone := true }, exec := r.top.els, fmt := r.top.fmt,
      pc := if r.top.els = 0 then r.top.rejoin ++ (0 : BitVec 2) else nextPc r.pc f.len } } := by
  refine .plain rfl (exec_delse f s) (Nat.zero_le _) fun _ _ => ?_
  rw [if_neg (by simp [hd, hs, he])]
  by_cases hz : r.top.els = 0
  · simp only [hz, if_true]
  · simp only [hz, if_false]
    rfl

theorem faults_delse (h : r.depth = 0 ∨ r.top.isSealed = true ∨ r.top.elseDone = true) :
    Faults (.delse f) s r Code.divdepth :=
  .of rfl (exec_delse f s) (Nat.zero_le _) fun _ _ => if_pos (by simpa [or_assoc] using h)

theorem does_dpop (hd : r.depth ≠ 0) (hs : r.top.isSealed = false) : Does (.dpop f) s r { after :=
    { r.next f with exec := r.top.exec, fmt := r.top.fmt, depth := r.depth - 1 } } :=
  .plain rfl (exec_dpop f s) (Nat.zero_le _) fun _ _ => if_neg (by simp [hd, hs])

theorem faults_dpop (h : r.depth = 0 ∨ r.top.isSealed = true) : Faults (.dpop f) s r Code.divdepth :=
  .of rfl (exec_dpop f s) (Nat.zero_le _) fun _ _ => if_pos (by simpa using h)

end

/-- Settles O3: DPUSH, DELSE and DPOP each complete with the stack turned as R102 says, and are DIVDEPTH exactly where
R103 says. -/
theorem divergenceStack : Obligations.DivergenceStack := fun _ _ _ =>
  ⟨does_dpush, faults_dpush, does_delse, faults_delse, does_dpop, faults_dpop⟩

end Sys2Proof.Machine

/-! ## Regrouping: each thread in one place of one new group (R105) -/

namespace Sys2Proof.Machine

section

/-- A thread's key, in the order of R105: target, FMT, depth. -/
def RThread.key (t : RThread) : Nat ×ₗ Nat ×ₗ Nat := toLex (t.target, toLex (t.fmt, t.depth))

variable {t u k : RThread} {ts ks : List RThread}

theorem RThread.sameKey_iff : t.sameKey u = true ↔ t.key = u.key := by
  simp [sameKey, key, Prod.ext_iff, and_assoc]

theorem RThread.keyLt_iff : t.keyLt u = true ↔ t.key < u.key := by
  simp [keyLt, key, Prod.Lex.toLex_lt_toLex]

/-! ### The keys of the new groups -/

/-- Keys that rise strictly. -/
def KeysRise (ks : List RThread) : Prop := ks.Pairwise fun a b => a.key < b.key

theorem mem_insertKey (h : u ∈ insertKey t ks) : u = t ∨ u ∈ ks := by
  induction ks with
  | nil => simpa [insertKey] using h
  | cons x ks ih =>
    unfold insertKey at h
    split at h
    · exact .inr h
    · split at h
      · simpa using h
      · rcases List.mem_cons.mp h with rfl | h
        · simp
        · exact (ih h).imp id (List.mem_cons_of_mem x)

theorem KeysRise.insertKey (h : KeysRise ks) : KeysRise (insertKey t ks) := by
  induction ks with
  | nil => simp [KeysRise, Machine.insertKey]
  | cons x ks ih =>
    obtain ⟨above, rest⟩ := List.pairwise_cons.mp h
    unfold Machine.insertKey
    split
    · exact h
    · next differ =>
      split
      · next below =>
        rw [RThread.keyLt_iff] at below
        refine List.pairwise_cons.mpr ⟨fun y hy => ?_, h⟩
        rcases List.mem_cons.mp hy with rfl | hy
        · exact below
        · exact below.trans (above y hy)
      · next notBelow =>
        rw [RThread.sameKey_iff] at differ
        rw [RThread.keyLt_iff, not_lt] at notBelow
        refine List.pairwise_cons.mpr ⟨fun y hy => ?_, ih rest⟩
        rcases mem_insertKey hy with rfl | hy
        · exact lt_of_le_of_ne notBelow (Ne.symm differ)
        · exact above y hy

/-- A thread's key is among the keys once it is inserted. -/
theorem exists_key_insertKey_self : ∃ k ∈ insertKey t ks, t.key = k.key := by
  induction ks with
  | nil => exact ⟨t, by simp [insertKey], rfl⟩
  | cons x ks ih =>
    unfold insertKey
    split
    · next same => exact ⟨x, by simp, RThread.sameKey_iff.mp same⟩
    · split
      · exact ⟨t, by simp, rfl⟩
      · obtain ⟨k, hk, e⟩ := ih
        exact ⟨k, by simp [hk], e⟩

theorem subset_insertKey (h : k ∈ ks) : k ∈ insertKey t ks := by
  induction ks with
  | nil => cases h
  | cons x ks ih =>
    unfold insertKey
    split
    · exact h
    · split
      · exact List.mem_cons_of_mem t h
      · rcases List.mem_cons.mp h with rfl | h
        · simp
        · exact List.mem_cons_of_mem x (ih h)

/-- The keys of the threads, each once, in order. -/
def keysOf (ts : List RThread) : List RThread := ts.foldr insertKey []

theorem keysRise_keysOf (ts : List RThread) : KeysRise (keysOf ts) := by
  induction ts with
  | nil => exact List.Pairwise.nil
  | cons t ts ih => exact ih.insertKey

theorem exists_key_keysOf (h : t ∈ ts) : ∃ k ∈ keysOf ts, t.key = k.key := by
  induction ts with
  | nil => cases h
  | cons x ts ih =>
    rcases List.mem_cons.mp h with rfl | h
    · exact exists_key_insertKey_self
    · obtain ⟨k, hk, e⟩ := ih h
      exact ⟨k, subset_insertKey hk, e⟩

/-! ### The threads of one new group -/

theorem mem_holders {l : Nat} : t ∈ holders ts k l ↔ t ∈ ts ∧ t.key = k.key ∧ t.lane = l := by
  simp [holders, RThread.sameKey_iff]

/-- The `n`-th new group of a key. -/
def newGroup (ts : List RThread) (k : RThread) (n : Nat) : List RThread :=
  allLanes.filterMap fun l => (holders ts k l)[n]?

theorem newGroups_eq : newGroups ts =
    (keysOf ts).flatMap fun k => (List.range (keyCount ts k)).map fun n => (k, newGroup ts k n) := rfl

theorem holders_of_mem_newGroup {n : Nat} (h : t ∈ newGroup ts k n) : (holders ts k t.lane)[n]? = some t := by
  obtain ⟨l, -, hl⟩ := List.mem_filterMap.mp h
  obtain ⟨-, -, rfl⟩ := mem_holders.mp (List.mem_of_getElem? hl)
  exact hl

theorem mem_newGroup {n : Nat} (h : t ∈ newGroup ts k n) : t ∈ ts ∧ t.key = k.key :=
  have ⟨mem, same, _⟩ := mem_holders.mp (List.mem_of_getElem? (holders_of_mem_newGroup h))
  ⟨mem, same⟩

theorem newGroup_nodup (ts : List RThread) (k : RThread) (n : Nat) : (newGroup ts k n).Nodup := by
  refine allLanes_nodup.filterMap fun l l' t h h' => ?_
  obtain ⟨-, -, rfl⟩ := mem_holders.mp (List.mem_of_getElem? h)
  exact (mem_holders.mp (List.mem_of_getElem? h')).2.2

/-- No lane of a new group holds two threads. -/
theorem newGroup_lanes_nodup (ts : List RThread) (k : RThread) (n : Nat) : ((newGroup ts k n).map (·.lane)).Nodup := by
  refine (newGroup_nodup ts k n).map_on fun t ht u hu e => ?_
  have ht := holders_of_mem_newGroup ht
  rw [e, holders_of_mem_newGroup hu] at ht
  exact (Option.some.inj ht).symm

theorem le_foldl_max {l : List Nat} {x : Nat} (a : Nat) (h : x ∈ l) : x ≤ l.foldl max a := by
  rw [List.foldl_eq_foldr]
  exact List.le_max_of_le' a h le_rfl

/-- No lane has more threads of a key than the key has new groups. -/
theorem length_holders_le {l : Nat} (h : l < 32) : (holders ts k l).length ≤ keyCount ts k :=
  le_foldl_max 0 (List.mem_map.mpr ⟨l, mem_allLanes.mpr h, rfl⟩)

/-! ### All threads of the new groups together -/

theorem newGroups_threads : (newGroups ts).map (·.2) =
    (keysOf ts).flatMap fun k => (List.range (keyCount ts k)).map (newGroup ts k) := by
  simp [newGroups_eq, List.map_flatMap, Function.comp_def]

theorem newGroups_flatten : ((newGroups ts).map (·.2)).flatten =
    (keysOf ts).flatMap fun k => (List.range (keyCount ts k)).flatMap (newGroup ts k) := by
  rw [newGroups_threads, List.flatten_eq_flatMap, List.flatMap_assoc]
  simp [List.flatMap_map]

/-- Two new groups of one key share no thread: in its lane a thread has one place. -/
theorem newGroup_disjoint (hd : ts.Nodup) {n m : Nat} (h : n ≠ m) : (newGroup ts k n).Disjoint (newGroup ts k m) := by
  intro t ht hu
  have hn := holders_of_mem_newGroup ht
  obtain ⟨small, -⟩ := List.getElem?_eq_some_iff.mp hn
  exact h ((List.getElem?_inj small (hd.filter _)).mp (hn.trans (holders_of_mem_newGroup hu).symm))

theorem newGroups_flatten_nodup (hd : ts.Nodup) : ((newGroups ts).map (·.2)).flatten.Nodup := by
  rw [newGroups_flatten, List.nodup_flatMap]
  refine ⟨fun k _ => List.nodup_flatMap.mpr ⟨fun n _ => newGroup_nodup ts k n, ?_⟩, ?_⟩
  · exact List.nodup_range.imp (newGroup_disjoint hd)
  · refine (keysRise_keysOf ts).imp fun {a b} lt t ht hu => ?_
    obtain ⟨n, -, ht⟩ := List.mem_flatMap.mp ht
    obtain ⟨m, -, hu⟩ := List.mem_flatMap.mp hu
    exact lt.ne ((mem_newGroup ht).2.symm.trans (mem_newGroup hu).2)

theorem mem_newGroups_flatten (h : t ∈ ts) (hl : t.lane < 32) : t ∈ ((newGroups ts).map (·.2)).flatten := by
  rw [newGroups_flatten]
  obtain ⟨k, hk, same⟩ := exists_key_keysOf h
  obtain ⟨n, hn, place⟩ := List.mem_iff_getElem.mp (mem_holders.mpr ⟨h, same, rfl⟩)
  have := length_holders_le (ts := ts) (k := k) hl
  exact List.mem_flatMap.mpr ⟨k, hk, List.mem_flatMap.mpr ⟨n, List.mem_range.mpr (by omega),
    List.mem_filterMap.mpr ⟨t.lane, mem_allLanes.mpr hl, List.getElem?_eq_some_iff.mpr ⟨hn, place⟩⟩⟩⟩

end

/-- Settles O22: the threads of all new groups, in a row, are without a double and hold each participant's thread, so each
is there once; a thread has its place by its key and its lane alone. -/
theorem regroupingKeepsThreads : Obligations.RegroupingKeepsThreads := by
  intro ts hd hl
  refine ⟨fun t ht => ?_, fun x hx => ?_⟩
  · have once := List.count_eq_one_of_mem (newGroups_flatten_nodup hd) (mem_newGroups_flatten ht (hl t ht))
    rwa [List.count_flatten, List.map_map] at once
  · rw [newGroups_eq] at hx
    obtain ⟨k, -, hx⟩ := List.mem_flatMap.mp hx
    obtain ⟨n, -, rfl⟩ := List.mem_map.mp hx
    refine ⟨newGroup_lanes_nodup ts k n, fun t ht => ?_⟩
    obtain ⟨mem, same⟩ := mem_newGroup ht
    exact ⟨mem, RThread.sameKey_iff.mpr same⟩

end Sys2Proof.Machine

/-! ## UNPACK where a place is listed twice (R107) -/

namespace Sys2Proof.Machine

/-- The one new group of a regrouping on barrier 0, at its UNPACK. -/
def lastPacked : Group := { crew := 0, uid := 1, kind := .packed 0 0 }

/-- The participant of the regrouping, which is parked. -/
def parkedParticipant : Group := { crew := 0, uid := 2, wait := .repack 0 0 }

/-- The crew of both: the arrival of the new group is the only one that barrier 0 awaits. -/
def regroupedCrew : Crew :=
  { uid := 3, bars := { init := true, exp := 1 } :: List.replicate 15 {}, parts := [(0, parkedParticipant)] }

/-- The new group stands in slot 0, in a table whose keys do not rise: a group of another crew, in slot 1, is listed
before it. -/
def fallingKeys : State :=
  { State.reset with
    groups := [(gidKey { core := 0, slot := 1 }, { crew := 1, uid := 4 }), (gidKey { core := 0, slot := 0 }, lastPacked)]
    crews := [(crewKey 0 0, regroupedCrew)] }

theorem fallingKeys_issues : Issues (.unpack { u := true }) ⟨false, 0x0A, { u := true }, shapeUnpack { u := true }⟩ fallingKeys { core := 0, slot := 0 }
    lastPacked where
  form := rfl
  legal := by decide
  actor := rfl
  group := rfl
  level := by decide
  extent := by decide
  guard := by decide
  free := by decide
  owed := by decide
  first := rfl
  unwatched := by unfold State.unwatched; decide

/-- The write of the group's record, at the first place where keys still rise, leaves its old record in the table: the
phase completes, but a new group seems not to have arrived. -/
theorem fallingKeys_unpack : ∃ t, exec (.unpack { u := true }) fallingKeys = .next t ∧
    (t.group? { core := 0, slot := 0 }).map (·.wait) = some (.unpack 0) :=
  ⟨_, rfl, by decide⟩

/-- Refutes O21: the clause about the arrival that completes the phase at UNPACK is stated of every table of groups, also
of one whose keys do not rise. Of `fallingKeys` the write of the arriving group's record makes a second record of its
place: R107's test that every new group has arrived meets the old one, and the participant does not come back. -/
theorem not_repackAndUnpack : ¬ Obligations.RepackAndUnpack := by
  intro h
  obtain ⟨-, -, -, returns⟩ := h { u := true } fallingKeys { core := 0, slot := 0 } lastPacked regroupedCrew rfl
  obtain ⟨t, ht, stays⟩ := fallingKeys_unpack
  obtain ⟨u, hu, back⟩ := returns _ fallingKeys_issues rfl rfl rfl (by decide) rfl rfl rfl rfl (by decide) (by decide) (by decide)
    parkedParticipant rfl (by decide) (by decide) ⟨0, rfl⟩
  obtain rfl := Host.Outcome.next.inj (ht.symm.trans hu)
  rw [back] at stays
  exact absurd stays (by decide)

end Sys2Proof.Machine

/-! ## Loads (R213, R225 to R229) -/

namespace Sys2Proof.Machine

/-! ### What a read at a core leaves, field by field (R213, R296, R297, R337) -/

/-- From `s` to `u` reads of core `core` were made: `u` is `s` but for the core's view, TLB and samples, its die's TLB,
and soft errors met. -/
structure ReadsOnly (core : Nat) (s u : State) : Prop where
  looked : Looked s u
  dev : u.dev = { s.dev with
    granary := { s.dev.granary with
      corrected := u.dev.granary.corrected, withdrawn := u.dev.granary.withdrawn,
      log := u.dev.granary.log, logFirst := u.dev.granary.logFirst }
    msix := u.dev.msix }
  sound : s.softErr = [] → u.dev = s.dev ∧ u.freeCtr = s.freeCtr ∧ u.softErr = []
  cores : ∀ n, n ≠ core → tfind u.cores n = tfind s.cores n
  own : u.core core = { s.core core with
    view := (u.core core).view, tlb := (u.core core).tlb, sample := (u.core core).sample, samples := (u.core core).samples }
  dies : ∀ n, n ≠ dieOf core → tfind u.dies n = tfind s.dies n
  die : (tfind u.dies (dieOf core)).getD {} =
    { (tfind s.dies (dieOf core)).getD {} with tlb := ((tfind u.dies (dieOf core)).getD {}).tlb }

namespace ReadsOnly

section

variable {core : Nat} {s t u : State}

theorem refl (core : Nat) (s : State) : ReadsOnly core s s :=
  ⟨.refl s, rfl, fun h => ⟨rfl, rfl, h⟩, fun _ _ => rfl, rfl, fun _ _ => rfl, rfl⟩

theorem trans (h : ReadsOnly core s t) (h' : ReadsOnly core t u) : ReadsOnly core s u where
  looked := h.looked.trans h'.looked
  dev := by rw [h'.dev, h.dev]
  sound none_ := by
    obtain ⟨dev, free, err⟩ := h.sound none_
    obtain ⟨dev', free', err'⟩ := h'.sound err
    exact ⟨dev'.trans dev, free'.trans free, err'⟩
  cores n hn := (h'.cores n hn).trans (h.cores n hn)
  own := by rw [h'.own, h.own]
  dies n hn := (h'.dies n hn).trans (h.dies n hn)
  die := by rw [h'.die, h.die]

theorem foldl {α : Type} {f : State → α → State} (hf : ∀ t x, ReadsOnly core t (f t x)) (l : List α) (s : State) :
    ReadsOnly core s (l.foldl f s) := by
  induction l generalizing s with
  | nil => exact refl core s
  | cons x l ih => exact (hf s x).trans (ih _)

/-- A soft error that a read meets is noted: corrected or withdrawn, and logged. -/
theorem noted (core : Nat) {s : State} (met : s.softErr ≠ []) (err : Tab Bool) (corrected : Nat) (withdrawn : List Nat)
    (code : Nat) (source count : Option Nat) :
    ReadsOnly core s (State.logEvent { s with
      softErr := err, dev := { s.dev with granary := { s.dev.granary with corrected := corrected, withdrawn := withdrawn } } }
      code source count) := by
  obtain ⟨log, first, msix, eq⟩ := State.logEvent_eq { s with
    softErr := err, dev := { s.dev with granary := { s.dev.granary with corrected := corrected, withdrawn := withdrawn } } }
    code source count
  rw [eq]
  exact ⟨rfl, rfl, fun none_ => absurd none_ met, fun _ _ => rfl, rfl, fun _ _ => rfl, rfl⟩

theorem correct (core : Nat) (s : State) (pa n : Nat) : ReadsOnly core s (s.correct pa n) := by
  unfold State.correct
  dsimp only
  split
  · exact refl core s
  · next hit =>
    refine noted core (fun none_ => hit ?_) _ _ s.dev.granary.withdrawn _ _ _
    rw [none_]
    rfl

theorem readElsewhere (core : Nat) (s : State) (pa n : Nat) : ReadsOnly core s (s.readElsewhere pa n) := by
  unfold State.readElsewhere
  dsimp only
  split
  · exact correct core s pa n
  · next bad =>
    refine (correct core s pa n).trans (noted core (fun none_ => bad ?_) (s.correct pa n).softErr
      (s.correct pa n).dev.granary.corrected _ _ _ _)
    rw [State.uncorrectable, none_]
    rfl

theorem walkReads (core : Nat) (s : State) (asid va : Nat) : ReadsOnly core s (s.walkReads asid va) := by
  unfold State.walkReads
  split
  · exact refl core s
  · exact foldl (fun _ _ => readElsewhere core _ _ _) _ _

/-- The core's record is written but for what a read leaves alone. -/
theorem putCore (core : Nat) (s : State) {c : Core} (h : c = { s.core core with
    view := c.view, tlb := c.tlb, sample := c.sample, samples := c.samples }) : ReadsOnly core s (s.putCore core c) where
  looked := rfl
  dev := rfl
  sound h := ⟨rfl, rfl, h⟩
  cores _ hn := tfind_tput_ne _ _ hn
  own := by rw [State.core_putCore_self]; exact h
  dies _ _ := rfl
  die := rfl

theorem dieTlb (core : Nat) (s : State) (tlb : Tab (W64 × Nat × Nat)) : ReadsOnly core s { s with
    dies := tput s.dies (dieOf core) { (tfind s.dies (dieOf core)).getD {} with tlb := tlb } } where
  looked := rfl
  dev := rfl
  sound h := ⟨rfl, rfl, h⟩
  cores _ _ := rfl
  own := rfl
  dies _ hn := tfind_tput_ne _ _ hn
  die := by rw [tfind_tput_self]; rfl

theorem translated (core : Nat) (s : State) (asid va : Nat) : ReadsOnly core s (s.translated core asid va) := by
  unfold State.translated State.lookedUp
  split
  · exact refl core s
  · split
    · exact refl core s
    · next e lvl ea _ =>
      dsimp only
      have walked : ReadsOnly core s (if (s.lookupHit core asid va).isSome then s else s.walkReads asid va) := by
        split
        · exact refl core s
        · exact walkReads core s asid va
      generalize (if (s.lookupHit core asid va).isSome then s else s.walkReads asid va) = t at walked
      have read : ReadsOnly core t
          (if bitOf e 7 && bitsOf e 56 54 != 0 then t.correct (leafSpan e 0 0).1 (leafSpan e 0 0).2 else t) := by
        split
        · exact correct core t _ _
        · exact refl core t
      exact walked.trans (read.trans ((putCore core _ rfl).trans (dieTlb core _ _)))

theorem countPages (s : State) (g : Gid) (r : Group) (ls : List Nat) (chk : Nat → LChk) (addr : Nat → W64) :
    ReadsOnly g.core s (s.countPages g r ls chk addr) := foldl (fun _ _ => translated g.core _ _ _) _ _

theorem loadUnit (s : State) (g : Gid) (r : Group) (n : Nat) (c : LChk) : ReadsOnly g.core s (s.loadUnit g r n c).2 := by
  unfold State.loadUnit
  split
  · split
    · exact refl _ s
    · split
      · exact refl _ s
      · split
        · exact refl _ s
        · exact (correct g.core s _ n).trans (putCore g.core _ rfl)
  · split <;> exact refl _ s
  · exact refl _ s
  · exact refl _ s

theorem loadLanes (s : State) (g : Gid) (r : Group) (n : Nat) (chk : Nat → LChk) (ls : List Nat) :
    ReadsOnly g.core s (s.loadLanes g r n chk ls).2 := by
  induction ls generalizing s with
  | nil => exact refl _ s
  | cons l ls ih => exact (loadUnit s g r n (chk l)).trans (ih _)

end

/-- An instruction that only reads, and writes V and G registers: what it leaves with its issue slot counted. -/
theorem onlyLoads {s u : State} {g : Gid} {b : Bool} (h : ReadsOnly g.core (s.countIssue g b) u) (vreg : Tab W32)
    (greg : Tab W64) (r' : Group) : OnlyLoads s (State.putGroup { u with vreg := vreg, greg := greg } g r') g r' := by
  refine ⟨?rest, h.sound, fun n hn => ?cores, ?own, ⟨if b then 0 else 1, ?slot, ?leaf⟩, h.dies, h.die⟩
  case rest =>
    conv_lhs => rw [h.looked, h.dev]
    rfl
  case cores =>
    exact (h.cores n hn).trans (tfind_tput_ne _ _ hn)
  case own =>
    have leaf : (u.core g.core).leaf = ((s.countIssue g b).core g.core).leaf := by rw [h.own]
    change u.core g.core = { s.core g.core with
      view := (u.core g.core).view, tlb := (u.core g.core).tlb, sample := (u.core g.core).sample
      samples := (u.core g.core).samples, leaf := (u.core g.core).leaf }
    rw [leaf]
    conv_lhs => rw [h.own, State.core_countIssue_eq]
  case slot => split <;> decide
  case leaf =>
    have own := congrArg Core.leaf h.own
    rwa [State.core_countIssue, if_pos rfl] at own

end ReadsOnly

/-! ### Several lanes' loads, helper lanes among them (R112, R213) -/

section

variable {s : State} {g : Gid} {r : Group} {f : Fields} {n : Nat} {chk : Nat → LChk} {addr : Nat → W64}

/-- A helper lane whose access would fault or meets a locked range receives zero (R112). -/
def State.zeroed (s : State) (g : Gid) (r : Group) (n : Nat) (chk : Nat → LChk) (addr : Nat → W64) (l : Nat) : Bool :=
  r.hlp.getLsbD l && ((chk l).fault?.isSome || s.lockedAt g r n (chk l) (addr l))

/-- The bytes that a lane's load gives it. -/
def State.laneBytes (s : State) (g : Gid) (r : Group) (n : Nat) (chk : Nat → LChk) (addr : Nat → W64) (l : Nat) : List Byte :=
  if s.zeroed g r n chk addr l then List.replicate n 0 else (s.loadUnit g r n (chk l)).1

/-- A lane's load is made, in this device's memory and within a line. -/
structure State.LaneLoads (s : State) (g : Gid) (r : Group) (n : Nat) (c : LChk) (a : W64) : Prop where
  sound : c.fault? = none
  unlocked : s.lockedAt g r n c a = false
  inLine : c.InLine n

theorem State.LaneLoads.not_zeroed {l : Nat} (h : s.LaneLoads g r n (chk l) (addr l)) : s.zeroed g r n chk addr l = false := by
  rw [State.zeroed, h.sound, h.unlocked]
  simp

theorem LoadsAlike.countPages (ls : List Nat) : LoadsAlike s (s.countPages g r ls chk addr) g.core := by
  have counted := Looked.countPages s g r ls chk addr
  refine ⟨?_, ?_, ?_, fun m => .inl ?_⟩
  · rw [counted]
  · rw [counted]
  · rw [counted]
  · rw [State.countPages, State.view_translatedAll]

/-- A load instruction whose lanes each make their load, or are helper lanes that receive zero: the lanes `ls` written are
the Active ones, those that load first. -/
theorem State.loadRes_lanes (unwatched : s.unwatched g.core) (untraced : s.untraced g r) {sh : Shape} {op : Nat}
    {ws : List Byte → List (Nat × W32)} (free : ∀ l ∈ s.activeLanes r f, s.loadBlocked r n (chk l) = false)
    (fit : ∀ l ∈ s.activeLanes r f, s.zeroed g r n chk addr l = true ∨ s.LaneLoads g r n (chk l) (addr l)) :
    ∃ u post ls, s.loadRes g r f sh op n chk addr ws =
        .ok (u.writeV r ls fun l => ws (s.laneBytes g r n chk addr l)) (r.next f) (some []) post [] ∧
      ReadsOnly g.core s u ∧ ls.Nodup ∧ ∀ l, l ∈ ls ↔ l ∈ s.activeLanes r f := by
  set act := s.activeLanes r f with hact
  let zero := s.zeroed g r n chk addr
  have unblocked : (act.any fun l => s.loadBlocked r n (chk l)) = false :=
    List.any_eq_false.mpr fun l hl => by simp [free l hl]
  have loads {l : Nat} (hl : l ∈ act) (hz : zero l = false) : s.LaneLoads g r n (chk l) (addr l) :=
    (fit l hl).resolve_left (by simp [zero] at hz; simp [hz])
  have own {l : Nat} (hl : l ∈ act) (hh : r.hlp.getLsbD l = false) : s.LaneLoads g r n (chk l) (addr l) :=
    loads hl (by simp [zero, State.zeroed, hh])
  -- the lanes that load, and the helper lanes that receive zero
  let loading := allLanes.filter fun l => act.contains l && !zero l
  let zeros := act.filter zero
  have lanes_loading : (allLanes.filter fun l =>
      ((act.filter fun l => !r.hlp.getLsbD l).filter fun l => !s.lockedAt g r n (chk l) (addr l)).contains l ||
      ((act.filter fun l => r.hlp.getLsbD l).filter fun l =>
        (chk l).fault?.isNone && !s.lockedAt g r n (chk l) (addr l)).contains l) = loading := by
    refine List.filter_congr fun l _ => ?_
    by_cases hl : l ∈ act
    · cases hh : r.hlp.getLsbD l
      · simp [hl, hh, zero, State.zeroed, (own hl hh).unlocked]
      · cases hf : (chk l).fault? <;> simp [hl, hh, zero, State.zeroed, hf]
    · simp [hl]
  have lanes_zero : ((act.filter fun l => r.hlp.getLsbD l).filter fun l => !((act.filter fun l => r.hlp.getLsbD l).filter
      fun l => (chk l).fault?.isNone && !s.lockedAt g r n (chk l) (addr l)).contains l) = zeros := by
    rw [List.filter_filter]
    refine List.filter_congr fun l hl => ?_
    cases hh : r.hlp.getLsbD l
    · simp [hh, zero, State.zeroed]
    · cases hf : (chk l).fault? <;> simp [hl, hh, zero, State.zeroed, hf]
  have mem_loading {l : Nat} (hl : l ∈ loading) : s.LaneLoads g r n (chk l) (addr l) := by
    obtain ⟨-, h⟩ := List.mem_filter.mp hl
    obtain ⟨mem, hz⟩ := (Bool.and_eq_true ..).mp h
    exact loads (by simpa using mem) (by simpa using hz)
  obtain ⟨ts, gate, frames⟩ := State.gate_go unwatched r f sh (ls := act.filter fun l => !r.hlp.getLsbD l) (chk := chk)
    (fun l hl => (own (List.mem_of_mem_filter hl) (by simpa using (List.mem_filter.mp hl).2)).sound) addr
    (fun l => s.lockedAt g r n (chk l) (addr l)) [{ src := 0, lanes := act.filter fun l => !r.hlp.getLsbD l, x := addr }]
  have no_traps : ts = [] := by
    have unlocked : ((act.filter fun l => !r.hlp.getLsbD l).filter fun l => s.lockedAt g r n (chk l) (addr l)) = [] :=
      List.filter_eq_nil_iff.mpr fun l hl => by
        simp [(own (List.mem_of_mem_filter hl) (by simpa using (List.mem_filter.mp hl).2)).unlocked]
    rw [unlocked] at frames
    simpa using frames
  have near : (((act.filter fun l => !r.hlp.getLsbD l).filter fun l => !s.lockedAt g r n (chk l) (addr l)).any
      fun l => (chk l).away) = false := by
    refine List.any_eq_false.mpr fun l hl => ?_
    have hl := List.mem_filter.mp (List.mem_of_mem_filter hl)
    cases hc : chk l with
    | ok pa => simpa [LChk.away] using ((own hl.1 (by simpa using hl.2)).inLine pa hc).1
    | _ => simp [LChk.away]
  have values := (LoadsAlike.countPages (s := s) (g := g) (r := r) (chk := chk) (addr := addr) act).loadLanes rfl r
    fun l hl => (mem_loading hl).inLine
  have reads := (ReadsOnly.countPages s g r act chk addr).trans
    (ReadsOnly.loadLanes (s.countPages g r act chk addr) g r n chk loading)
  have bytes : (loading.map fun l => (l, (s.loadUnit g r n (chk l)).1)) ++ zeros.map (fun l => (l, List.replicate n 0)) =
      (loading ++ zeros).map fun l => (l, s.laneBytes g r n chk addr l) := by
    rw [List.map_append]
    congr 1
    · exact List.map_congr_left fun l hl => by rw [State.laneBytes, (mem_loading hl).not_zeroed, if_neg Bool.false_ne_true]
    · exact List.map_congr_left fun l hl => by rw [State.laneBytes, if_pos (List.mem_filter.mp hl).2]
  refine ⟨_, ?post, loading ++ zeros, ?runs, reads, ?nodup, ?lanes⟩
  case runs =>
    simp only [State.loadRes, ← hact, unblocked, Bool.false_eq_true, if_false]
    rw [gate]
    simp only [lanes_loading, lanes_zero, near, values, bytes, no_traps, State.trace_untraced (reads.looked.untraced untraced)]
    rw [if_neg Bool.false_ne_true, List.foldl_map]
    rfl
  case nodup =>
    refine List.nodup_append.mpr ⟨allLanes_nodup.filter _, (s.activeLanes_nodup r f).filter _, fun a ha b hb e => ?_⟩
    subst e
    have hz := (List.mem_filter.mp hb).2
    simp [zero, (mem_loading ha).not_zeroed] at hz
  case lanes =>
    intro l
    have lane (h : l ∈ act) : l ∈ allLanes := mem_allLanes.mpr (State.activeLanes_lt h)
    cases hz : zero l <;> simp [loading, zeros, hz]
    exact lane

end

/-! ### The check of a word (R292, R302) -/

section

variable {s : State} {g : Gid} {r : Group} {n : Nat} {a : W64}

/-- The check of an access of global memory, before what a word's adds. -/
def State.globalChk (s : State) (g : Gid) (r : Group) (n : Nat) (a : W64) : LChk :=
  s.chkGlobal g.core (s.asidOf g r) a n n Acc.load false

theorem Group.linked_cases (r : Group) (a : W64) (acc : Nat) (c : LChk) : r.linked a acc c = c ∨ ∃ fr, r.linked a acc c = .bad fr := by
  unfold Group.linked
  split
  · split
    · exact .inr ⟨_, rfl⟩
    · exact .inl rfl
  · exact .inl rfl

/-- A word's check adds faults, and no place. -/
theorem State.chkWord_cases (s : State) (g : Gid) (r : Group) (a : W64) (n : Nat) :
    s.chkWord g r a n Acc.load false = s.globalChk g r n a ∨ ∃ fr, s.chkWord g r a n Acc.load false = .bad fr := by
  unfold State.chkWord
  dsimp only
  split
  · exact .inr ⟨_, rfl⟩
  · exact Group.linked_cases r a Acc.load _

/-- Of an access that is clear the word's check is that of global memory. -/
theorem LaneClear.chkWord_eq (h : LaneClear s g r n (s.globalChk g r n a) a) :
    s.chkWord g r a n Acc.load false = s.globalChk g r n a := by
  obtain ⟨-, -, here⟩ := h
  unfold State.chkWord
  change (if (s.globalChk g r n a).reg?.isSome && _ then _ else if false then _ else r.linked a Acc.load (s.globalChk g r n a)) = _
  cases hc : s.globalChk g r n a with
  | ok pa =>
    obtain ⟨near, pool⟩ := here pa hc
    obtain ⟨peer, block⟩ := (Bool.or_eq_false_iff ..).mp near
    have linked : (r.linkBad && overLink pa) = false := by
      cases hp : isPoolKey pa
      · simp [overLink, peer, hp]
      · simp [pool hp]
    simp [LChk.reg?, block, Group.linked, linked]
  | _ => rfl

theorem LaneClear.laneLoads {c : LChk} (h : LaneClear s g r n c a) (line : ∀ pa, c = .ok pa → pa % 64 + n ≤ 64) :
    s.LaneLoads g r n c a := by
  obtain ⟨sound, unlocked, here⟩ := h
  exact ⟨Option.isNone_iff_eq_none.mp sound, unlocked, fun pa hc => ⟨(here pa hc).1, line pa hc⟩⟩

end

/-! ### The instructions -/

theorem VWritten.congr {s t : State} {r : Group} {ls : List Nat} {ws ws' : Nat → List (Nat × W32)} (h : VWritten s t r ls ws)
    (same : ∀ l ∈ ls, ws l = ws' l) : VWritten s t r ls ws' := by
  obtain ⟨written, others⟩ := h
  refine ⟨fun l hl hh w hw => written l hl hh w (same l hl ▸ hw), fun k hk => others k fun l hl hh w hw => ?_⟩
  exact hk l hl hh w (same l hl ▸ hw)

theorem VWritten.of_mem_iff {s t : State} {r : Group} {ls ls' : List Nat} {ws : Nat → List (Nat × W32)}
    (h : VWritten s t r ls ws) (same : ∀ l, l ∈ ls ↔ l ∈ ls') : VWritten s t r ls' ws :=
  ⟨fun l hl => h.1 l ((same l).mpr hl), fun k hk => h.2 k fun l hl => hk l ((same l).mp hl)⟩

theorem LoadsAlike.countIssue (s : State) (g : Gid) (b : Bool) : LoadsAlike s (s.countIssue g b) g.core :=
  ⟨rfl, rfl, rfl, fun m => .inl (by rw [State.view_countIssue])⟩

section

variable {s : State} {g : Gid} {r : Group} {f : Fields} {n : Nat} {chk : Nat → LChk} {addr : Nat → W64}

/-- Each Active lane's access waits for no store and is made, or is a helper lane's that receives zero. -/
structure State.LanesFit (s : State) (g : Gid) (r : Group) (f : Fields) (n : Nat) (chk : Nat → LChk) (addr : Nat → W64) : Prop where
  free : ∀ l ∈ s.activeLanes r f, s.loadBlocked r n (chk l) = false
  fit : ∀ l ∈ s.activeLanes r f, s.zeroed g r n chk addr l = true ∨ s.LaneLoads g r n (chk l) (addr l)

theorem State.LanesFit.countIssue (h : s.LanesFit g r f n chk addr) (b : Bool) :
    (s.countIssue g b).LanesFit g r f n chk addr :=
  ⟨h.free, fun l hl => (h.fit l hl).imp id fun loads => ⟨loads.sound, loads.unlocked, loads.inLine⟩⟩

theorem State.LanesFit.laneBytes_countIssue (h : s.LanesFit g r f n chk addr) (b : Bool) {l : Nat} (hl : l ∈ s.activeLanes r f) :
    (s.countIssue g b).laneBytes g r n chk addr l = s.laneBytes g r n chk addr l := by
  have zeroed : (s.countIssue g b).zeroed g r n chk addr l = s.zeroed g r n chk addr l := rfl
  rw [State.laneBytes, State.laneBytes, zeroed]
  rcases h.fit l hl with zero | loads
  · rw [zero, if_pos rfl, if_pos rfl]
  · rw [((LoadsAlike.countIssue s g b).loadUnit rfl r loads.inLine).1]

/-- A load instruction whose lanes fit. -/
theorem exec_load {i : Instr} {x : Form} {op' op : Nat} {sh : Shape} (h : Issues i x s g r) (untraced : s.untraced g r)
    (hi : i.form = some ⟨false, op', f, sh⟩) {k : State → Gid → Group → Res} (he : exec i s = issue 0 f sh s k)
    (hk : k (s.countIssue g (s.useful r f)) g r = (s.countIssue g (s.useful r f)).loadRes g r f sh op n chk addr (loadWrites f))
    (fits : s.LanesFit g r f n chk addr) :
    ∃ t, exec i s = .next t ∧ OnlyLoads s t g { r.next f with wskip := false } ∧ t.greg = s.greg ∧
      VWritten s t r (s.activeLanes r f) fun l => loadWrites f (s.laneBytes g r n chk addr l) := by
  obtain rfl := h.form_eq hi
  have counted := Looked.countIssue s g (s.useful r f)
  have fits' := fits.countIssue (s.useful r f)
  obtain ⟨u, post, ls, runs, reads, nodup, lanes⟩ := State.loadRes_lanes (sh := sh) (op := op) (ws := loadWrites f)
    (State.unwatched_countIssue h.unwatched) (counted.untraced untraced) fits'.free fits'.fit
  have looked := counted.trans reads.looked
  rw [State.writeV_eq] at runs
  refine ⟨_, he.trans (issue_ok h (Nat.zero_le _) (hk.trans runs) (.inr rfl) ?groups), reads.onlyLoads _ _ _, ?greg, ?vreg⟩
  case groups => rw [looked]
  case greg => rw [State.putGroup_greg, looked]
  case vreg =>
    refine (VWritten.of_mem_iff (ws := fun l => loadWrites f ((s.countIssue g (s.useful r f)).laneBytes g r n chk addr l)) ?_
      lanes).congr fun l hl => congrArg (loadWrites f) (fits.laneBytes_countIssue _ hl)
    refine State.writeV_written s r nodup (fun l hl => State.activeLanes_lt ((lanes l).mp hl)) (fun l _ => pieces_nodup _ _) ?_
    rw [State.writeV_eq, looked]
    rfl

/-- The places of O9's premise about a lane. -/
def LaneFits (s : State) (g : Gid) (r : Group) (n : Nat) (chk : Nat → LChk) (addr : Nat → W64) (l : Nat) : Prop :=
  s.loadBlocked r n (chk l) = false ∧
    ((r.hlp.getLsbD l = true ∧ ((chk l).fault?.isSome ∨ s.lockedAt g r n (chk l) (addr l) = true)) ∨
      LaneClear s g r n (chk l) (addr l)) ∧
    ∀ pa, chk l = .ok pa → pa % 64 + n ≤ 64

theorem State.lanesFit (h : ∀ l ∈ s.activeLanes r f, LaneFits s g r n chk addr l) : s.LanesFit g r f n chk addr where
  free l hl := (h l hl).1
  fit l hl := by
    obtain ⟨-, fit, line⟩ := h l hl
    exact fit.imp (fun ⟨helper, why⟩ => by simpa [State.zeroed, helper] using why) fun clear => clear.laneLoads line

/-- The check of a word where that of global memory fits: the same place, or in a helper lane zero all the same. -/
theorem LaneFits.chkWord {l : Nat} (h : LaneFits s g r n (fun l => s.globalChk g r n (addr l)) addr l) :
    s.chkWord g r (addr l) n Acc.load false = s.globalChk g r n (addr l) ∨
      s.zeroed g r n (fun l => s.globalChk g r n (addr l)) addr l = true ∧
        ∃ fr, s.chkWord g r (addr l) n Acc.load false = .bad fr := by
  obtain ⟨-, ⟨helper, why⟩ | clear, -⟩ := h
  · exact (s.chkWord_cases g r (addr l) n).imp id fun bad => ⟨by simpa [State.zeroed, helper] using why, bad⟩
  · exact .inl clear.chkWord_eq

variable (h : ∀ l ∈ s.activeLanes r f, LaneFits s g r n (fun l => s.globalChk g r n (addr l)) addr l)
include h

theorem State.lanesFit_word : s.LanesFit g r f n (fun l => s.chkWord g r (addr l) n Acc.load false) addr := by
  have fits := State.lanesFit h
  refine ⟨fun l hl => ?_, fun l hl => ?_⟩
  · rcases (h l hl).chkWord with eq | ⟨-, fr, eq⟩
    · rw [eq]; exact fits.free l hl
    · rw [eq]; rfl
  · rcases (h l hl).chkWord with eq | ⟨zero, fr, eq⟩
    · simp only [State.zeroed, eq]
      exact fits.fit l hl
    · left
      simp only [State.zeroed, eq]
      simpa [LChk.fault?] using ((Bool.and_eq_true ..).mp zero).1

theorem State.laneBytes_word {l : Nat} (hl : l ∈ s.activeLanes r f) :
    s.laneBytes g r n (fun l => s.chkWord g r (addr l) n Acc.load false) addr l =
      s.laneBytes g r n (fun l => s.globalChk g r n (addr l)) addr l := by
  rcases (h l hl).chkWord with eq | ⟨zero, fr, eq⟩
  · rw [State.laneBytes, State.laneBytes, State.zeroed, State.zeroed, eq]
  · have helper := ((Bool.and_eq_true ..).mp zero).1
    rw [State.laneBytes, State.laneBytes, zero, if_pos rfl, if_pos]
    simp [State.zeroed, eq, LChk.fault?, helper]

end

theorem State.addr_wide {s : State} {r : Group} {f : Fields} (wide : f.u = true) (l : Nat) :
    s.addr r f true l = s.addr r f true 0 := by
  simp only [State.addr, State.src32, wide, Bool.or_true, Bool.true_or, if_true]

/-- A unit loads the same where the core's view, memory, scratch and regions are. -/
theorem State.loadUnit_fst_of_view {s t : State} {g : Gid} {r : Group} {n : Nat} {c : LChk} (mem : t.mem = s.mem)
    (scratch : t.scratch = s.scratch) (regions : t.regions = s.regions) (view : t.view g.core = s.view g.core)
    (near : ∀ pa, c = .ok pa → isAway pa = false) : (t.loadUnit g r n c).1 = (s.loadUnit g r n c).1 := by
  have alike : LoadsAlike s t g.core := ⟨mem, scratch, regions, fun m => .inl (by rw [view])⟩
  cases c with
  | ok pa =>
    cases own : r.forward? .global pa n with
    | some bs => rw [State.loadUnit_forwarded (near pa rfl) own, State.loadUnit_forwarded (near pa rfl) own]
    | none =>
      cases held : tfind (s.view g.core) (pa / 64) with
      | some line =>
        rw [State.loadUnit_viewed (near pa rfl) own held, State.loadUnit_viewed (near pa rfl) own (view ▸ held)]
      | none =>
        rw [State.loadUnit_home (near pa rfl) own held, State.loadUnit_home (near pa rfl) own (view ▸ held)]
        exact alike.bytes pa n
  | _ => exact (alike.loadUnit rfl r fun _ e => LChk.noConfusion e).1

section

variable {f : Fields} {x : Form} {s : State} {g : Gid} {r : Group}

/-- LDC group-wide, of an access that is made: one load, of the same address in every lane (R228). -/
theorem ldc_loads (wide : f.u = true) (s : State) : ∃ k, execLdc f s = issue 0 f (shapeLdc f) s k ∧
    ∀ (t : State) (c : LChk) (a : W64), t.unwatched g.core → t.untraced g r → (∀ l, t.addr r f true l = a) →
      t.chkWord g r a (tyBytes f.ty) Acc.load false = c → t.loadBlocked r (tyBytes f.ty) c = false → c.fault? = none →
      t.lockedAt g r (tyBytes f.ty) c a = false → c.away = false →
      let x := (t.countPages g r [0] (fun _ => c) fun _ => a).loadUnit g r (tyBytes f.ty) c
      ∃ post, k t g r = .ok (x.2.setG r f.d.toNat (widenG f.ty x.1)) (r.next f) (some []) post [] := by
  refine ⟨_, rfl, fun t c a unwatched untraced address word free sound unlocked near => ?_⟩
  -- the lanes that the access counts as made by, or the first lane where there is none
  obtain ⟨l, rest, lanes⟩ : ∃ l rest, (if (t.contrib r f).isEmpty then [0] else t.contrib r f) = l :: rest := by
    split
    · exact ⟨_, _, rfl⟩
    · next some_ => exact List.exists_cons_of_ne_nil (by simpa using some_)
  obtain ⟨ts, gate, frames⟩ := State.gate_go unwatched r f (shapeLdc f) (ls := l :: rest) (chk := fun _ => c) (fun _ _ => sound)
    (fun _ => a) (fun _ => false) [{ src := 0, lanes := t.contrib r f, x := fun _ => a }]
  have no_traps : ts = [] := by simpa using frames
  have looked := (Looked.countPages t g r [0] (fun _ => c) fun _ => a).trans (.loadUnit _ g r (tyBytes f.ty) c)
  refine ⟨?post, ?runs⟩
  case runs =>
    simp only [wide, address, word, free, unlocked, lanes, Bool.and_false, if_true, Bool.false_eq_true, if_false]
    rw [gate]
    simp only [no_traps, near, Bool.not_false, List.filter_true, List.isEmpty_cons, Bool.false_eq_true, if_false,
      State.trace_untraced (looked.untraced untraced)]
    rfl

theorem exec_ldc_group (h : Issues (.ldc f) x s g r) (untraced : s.untraced g r) (wide : f.u = true)
    (free : s.loadBlocked r (tyBytes f.ty) (s.globalChk g r (tyBytes f.ty) (s.addr r f true 0)) = false)
    (clear : LaneClear s g r (tyBytes f.ty) (s.globalChk g r (tyBytes f.ty) (s.addr r f true 0)) (s.addr r f true 0)) :
    ∃ t, exec (.ldc f) s = .next t ∧ OnlyLoads s t g { r.next f with wskip := false } ∧ t.vreg = s.vreg ∧
      GWritten s t r [(f.d.toNat, widenG f.ty
        (s.loadUnit g r (tyBytes f.ty) (s.globalChk g r (tyBytes f.ty) (s.addr r f true 0))).1)] := by
  obtain rfl := h.form_eq rfl
  have counted := Looked.countIssue s g (s.useful r f)
  have word := clear.chkWord_eq
  obtain ⟨sound, unlocked, near⟩ := clear
  set a := s.addr r f true 0
  set c := s.globalChk g r (tyBytes f.ty) a
  set s1 := s.countIssue g (s.useful r f)
  have ours (pa : Nat) (hc : c = .ok pa) : isAway pa = false := (near pa hc).1
  have away : c.away = false := by
    cases hc : c with
    | ok pa => exact ours pa hc
    | _ => rfl
  obtain ⟨k, he, loads⟩ := ldc_loads (g := g) (r := r) wide s
  obtain ⟨post, runs⟩ := loads s1 c a (State.unwatched_countIssue h.unwatched) (counted.untraced untraced)
    (fun l => State.addr_wide wide l) ((State.chkWord_countIssue ..).trans word) free (Option.isNone_iff_eq_none.mp sound)
    unlocked away
  have pages := ReadsOnly.countPages s1 g r [0] (fun _ => c) fun _ => a
  have value : ((s1.countPages g r [0] (fun _ => c) fun _ => a).loadUnit g r (tyBytes f.ty) c).1 =
      (s.loadUnit g r (tyBytes f.ty) c).1 := by
    refine State.loadUnit_fst_of_view ?_ ?_ ?_ ?_ ours
    · rw [pages.looked]; rfl
    · rw [pages.looked]; rfl
    · rw [pages.looked]; rfl
    · rw [State.countPages, State.view_translatedAll, State.view_countIssue]
  have reads := pages.trans (.loadUnit _ g r (tyBytes f.ty) c)
  have looked := counted.trans reads.looked
  refine ⟨_, ((exec_ldc f s).trans he).trans (issue_ok h (Nat.zero_le _) runs (.inr rfl) ?groups),
    reads.onlyLoads _ _ _, ?vreg, .one ?greg⟩
  case groups => rw [State.setG_groups, looked]
  case vreg => rw [looked]; rfl
  case greg => rw [value, looked]; rfl

end

theorem Claims.loadsWriteDestinations : Claims.LoadsWriteDestinations := by
  intro f s g r n act global is
  have words {i : Instr} {op' op : Nat} {sh : Shape} {k : State → Gid → Group → Res} (hi : i.form = some ⟨false, op', f, sh⟩)
      (he : exec i s = issue 0 f sh s k) (hk : ∀ t : State, k t g r = t.loadRes g r f sh op n
        (fun l => t.chkWord g r (t.addr r f true l) n Acc.load false) (t.addr r f true) (loadWrites f)) :
      is i (s.addr r f true) global := by
    intro x h untraced fits
    obtain ⟨t, runs, only, greg, written⟩ := exec_load h untraced hi he ((hk _).trans
      (by simp only [State.chkWord_countIssue, State.addr_countIssue]; rfl)) (State.lanesFit_word fits)
    exact ⟨t, runs, only, greg, written.congr fun l hl => congrArg (loadWrites f) (State.laneBytes_word fits hl)⟩
  refine ⟨words rfl (exec_ld f s) fun _ => rfl, fun x h untraced fits => ?lds, fun lanes => words (op := 0x74) rfl (exec_ldc f s) fun _ => ?ldc,
    fun wide x h untraced free clear => exec_ldc_group h untraced wide free clear⟩
  case lds => exact exec_load h untraced rfl (exec_lds f s) rfl (State.lanesFit fits)
  case ldc => rw [lanes]; rfl

theorem Claims.loadFindsNewest : Claims.LoadFindsNewest := by
  intro s g r n
  refine ⟨fun pa ours fits => ⟨fun bs own => State.loadUnit_forwarded ours own, fun none_ v held =>
    State.loadUnit_viewed ours none_ held, fun none_ absent => ?home⟩, fun uid off c k => State.loadUnit_scratch s g r n uid off c k⟩
  case home =>
    rw [State.loadUnit_home ours none_ absent]
    refine ⟨rfl, ?mem, ?line⟩
    case mem =>
      have looked := Looked.correct s pa n
      rw [State.placeLine, looked]
      rfl
    case line =>
      rw [State.placeLine, State.core_modCore_self, State.bytes_correct]
      exact tfind_tput_self ..

/-- Settles O9: what each lane reads is found in the state the access is issued in, and every step of it (pages counted,
lines placed, errors corrected) is of the kind that `ReadsOnly` describes. -/
theorem loads : Obligations.Loads := ⟨Claims.loadsWriteDestinations, Claims.loadFindsNewest⟩

end Sys2Proof.Machine

/-! ## Device queues (R64, R116 to R119, R221, R248) -/

namespace Sys2Proof.Machine

/-! ### What a queue operation looks up -/

@[simp] theorem State.qdesc_countIssue (s : State) (g : Gid) (b : Bool) (core asid : Nat) (da : W64) (acc : Nat) :
    (s.countIssue g b).qdesc core asid da acc = s.qdesc core asid da acc := by
  unfold State.qdesc
  rw [State.homeOf_countIssue, State.homeOf_countIssue]
  rfl

@[simp] theorem State.queueLinked_countIssue (s : State) (g : Gid) (b : Bool) (r : Group) (core asid : Nat) (da : W64)
    (i : Option Nat) (acc : Nat) :
    (s.countIssue g b).queueLinked r core asid da i acc = s.queueLinked r core asid da i acc := by
  simp only [State.queueLinked, State.qdesc_countIssue, State.translate_countIssue]

theorem Looked.queueTranslated (s : State) (core asid : Nat) (da : W64) (i : Option Nat) (acc : Nat) (seen : List Nat) :
    Looked s (s.queueTranslated core asid da i acc seen).1 := .translatedAll ..

theorem Looked.groups {s t : State} (h : Looked s t) : t.groups = s.groups := by rw [h]

/-- A trap withholds no access where nothing watches. -/
theorem State.pcWithheld_unwatched {s : State} {g : Gid} (h : s.unwatched g.core) (r : Group) : s.pcWithheld g r = false := by
  simp [State.pcWithheld, State.watchMatches_unwatched _ _ _ _ h]

/-! ### The steps of a queue (R117, R118) -/

section

variable {s t : State} {me : Party} {core asid acc n : Nat} {da : W64} {q : QDesc} (hq : s.qdesc core asid da acc = .ok q)
include hq

theorem State.took_of_qReserve (h : s.qReserve me core asid da acc = .took t n) : n = q.widx ∧ q.used < 2 ^ q.logn := by
  simp only [State.qReserve, hq] at h
  split at h
  · next room =>
    split at h
    · cases h
      exact ⟨rfl, room⟩
    · cases h
  · cases h

theorem State.took_of_qTake (h : s.qTake me core asid da acc = .took t n) : n = q.ridx ∧ q.ridx < q.widx := by
  simp only [State.qTake, hq] at h
  split at h
  · next held =>
    split at h
    · cases h
      exact ⟨rfl, held⟩
    · cases h
  · cases h

theorem State.seq_of_qFill {d e : List Byte} (h : s.qFill me core asid da acc n d = .done t e) :
    s.homeLoad core asid (q.seq n) 8 acc = .ok n := by
  simp only [State.qFill, hq] at h
  split at h
  · cases h
  · next x loaded =>
    split at h
    · cases h
    · next same => rw [loaded, show x = n by simpa using same]

theorem State.seq_of_qEmpty {e : List Byte} (h : s.qEmpty me core asid da acc n = .done t e) :
    s.homeLoad core asid (q.seq n) 8 acc = .ok ((n + 1) % 2 ^ 64) := by
  simp only [State.qEmpty, hq] at h
  split at h
  · cases h
  · next x loaded =>
    split at h
    · cases h
    · next same => rw [loaded, show x = (n + 1) % 2 ^ 64 by simpa using same]

end

/-! ### A write at home leaves the ASID table and the partition registers as they are -/

@[simp] theorem State.ctl_storeCells (s : State) (cs : List (Nat × Byte)) : (s.storeCells cs).ctl = s.ctl := (rfl)
@[simp] theorem State.ctl_store (s : State) (pa : Nat) (bs : List Byte) : (s.store pa bs).ctl = s.ctl := (rfl)
@[simp] theorem State.ctl_pstore (s : State) (pa n x : Nat) : (s.pstore pa n x).ctl = s.ctl := (rfl)
@[simp] theorem State.ctl_dropLeaf (s : State) (ea : Nat) : (s.dropLeaf ea).ctl = s.ctl := (rfl)

@[simp] theorem State.ctl_movePage (s : State) (a b : Nat) : (s.movePage a b).ctl = s.ctl := by
  unfold State.movePage
  split
  · rfl
  · change State.ctl (if 2 ^ 62 ≤ b then _ else State.store _ _ _) = _
    split
    · rfl
    · exact State.ctl_store ..

theorem State.cregion?_lt {s : State} {asid va i : Nat} (h : s.cregion? asid va = some i) : i < 64 :=
  List.mem_range.mp (List.mem_of_find?_eq_some h)

section

variable {s t : State} {off : Nat} (high : 0x4400 ≤ off)
include high

theorem State.ctlw_setCtl_region {asid va : Nat} {w : W64} :
    (t.setCtl (0x3C00 + 32 * (s.cregion? asid va).getD 0 + 8) w).ctlw off = t.ctlw off := by
  have small : (s.cregion? asid va).getD 0 < 64 := by
    cases hc : s.cregion? asid va with
    | none => exact Nat.zero_lt_succ _
    | some i => exact State.cregion?_lt hc
  have ne : off ≠ 0x3C00 + 32 * (s.cregion? asid va).getD 0 + 8 := by omega
  rw [State.ctlw, State.setCtl_ctl, tfind_tput_ne _ _ ne, State.ctlw]

/-- Of the control block, a write at home changes the compression regions' counters alone (R303). -/
theorem State.ctlw_homeWrite {me : Party} {asid va : Nat} {cells : List (Nat × Byte)}
    (h : s.homeWrite me asid va cells = .ok t) : t.ctlw off = s.ctlw off := by
  have ctlw_of {u : State} (same : u.ctl = s.ctl) : u.ctlw off = s.ctlw off := by rw [State.ctlw, same, State.ctlw]
  unfold State.homeWrite at h
  split at h
  · cases h; exact ctlw_of (by simp)
  · split at h
    · cases h; exact ctlw_of (by simp)
    · split at h
      · cases h; exact ctlw_of (by simp)
      split at h
      · cases h
      · dsimp only at h
        generalize imageNeed _ = n at h
        split at h
        · split at h
          · cases h; exact ctlw_of (by simp)
          · cases h; exact ctlw_of (by simp)
        · split at h
          · cases h
          · cases h
            rw [State.ctlw_setCtl_region high]
            refine ctlw_of ?_
            split <;> simp

theorem State.ctlw_homePut {me : Party} {core asid va pa acc : Nat} {bs : List Byte}
    (h : s.homePut me core asid va pa acc bs = .ok t) : t.ctlw off = s.ctlw off := by
  unfold State.homePut at h
  dsimp only at h
  split at h
  · next written =>
    cases h
    rw [← State.ctlw_homeWrite high written]
    unfold State.seen
    split <;> rfl
  · cases h
  · cases h

theorem State.ctlw_homeStore {me : Party} {core asid va acc : Nat} {bs : List Byte}
    (h : s.homeStore me core asid va acc bs = .ok t) : t.ctlw off = s.ctlw off := by
  unfold State.homeStore at h
  split at h
  · exact State.ctlw_homePut high h
  · cases h

theorem State.ctlw_qFill {me : Party} {core asid acc n : Nat} {da : W64} {d e : List Byte}
    (h : s.qFill me core asid da acc n d = .done t e) : t.ctlw off = s.ctlw off := by
  unfold State.qFill at h
  split at h
  · cases h
  · split at h
    · cases h
    · split at h
      · cases h
      · split at h
        · cases h
        · next entry =>
          unfold QStep.of at h
          split at h
          · next published =>
            cases h
            exact (State.ctlw_homeStore high published).trans (State.ctlw_homeStore high entry)
          · cases h

end

theorem State.partOf_qFill {s t : State} {me : Party} {core asid acc n : Nat} {da : W64} {d e : List Byte}
    (h : s.qFill me core asid da acc n d = .done t e) (asid' : Nat) : t.partOf asid' = s.partOf asid' := by
  rw [State.partOf, State.asidt, State.ctlw_qFill (by omega) h]
  rfl

/-! ### What an instruction that goes on comes to -/

theorem Continues.exec_hold {i : Instr} {x x' : Form} {s s' : State} {g : Gid} {r r' : Group} (h : Continues i x s g r)
    {lvl : Nat} {k : State → Gid → Group → Res} (hf : i.form = some x') (he : exec i s = issue lvl x'.f x'.shape s k)
    (hl : lvl ≤ needsLevel i) (hk : k s g r = .hold s' r') (hs : s'.groups = s.groups) :
    exec i s = .next (s'.putGroup g { r' with ins := x'.f, insSh := x'.shape, wskip := false }) := by
  obtain rfl : x = x' := Option.some.inj (h.form.symm.trans hf)
  rw [he, (issue_continues h (hl.trans h.level) k).2 (by rw [hk]; exact Res.noConfusion), hk, Res.hold,
    State.settle_wait h.unwatched _ _ _ _ _ _ _ _ (.inl rfl) (.inl rfl),
    State.keepHalt_same (by simpa [State.group?, hs] using h.group)]
  simp only [List.append_nil]

section

variable {i : Instr} {x : Form} {op : Nat} {f : Fields} {sh : Shape} {s s0 s' : State} {g : Gid} {r r' : Group}
  {k : State → Gid → Group → Res} (hf : i.form = some ⟨false, op, f, sh⟩) (he : exec i s = issue 0 f sh s k)
  (h : Issues i x s g r ∧ s0 = s.countIssue g (s.useful r f) ∨ Continues i x s g r ∧ s0 = s)
include hf he h

/-- It waits, whether it issues or goes on. -/
theorem exec_hold_of_started (hk : k s0 g r = .hold s' r') (hs : s'.groups = s.groups) :
    exec i s = .next (s'.putGroup g { r' with ins := f, insSh := sh, wskip := false }) := by
  rcases h with ⟨h, rfl⟩ | ⟨h, rfl⟩
  · exact h.exec_hold hf he (Nat.zero_le _) hk hs
  · exact h.exec_hold hf he (Nat.zero_le _) hk hs

/-- It completes, whether it issues or goes on. -/
theorem exec_done_of_started (hk : k s0 g r = .done s' r') (hs : s'.groups = s.groups) :
    exec i s = .next (s'.putGroup g { r' with wskip := false }) := by
  rcases h with ⟨h, rfl⟩ | ⟨h, rfl⟩
  · exact h.exec_done_same hf he (Nat.zero_le _) hk hs
  · exact h.exec_done_same hf he (Nat.zero_le _) hk hs

end

/-! ### QPUSH and TSUB (R117, R119) -/

/-- The first step of a push: an index is reserved, or the queue is full. -/
theorem State.pushRes_first {s : State} {g : Gid} {r : Group} {f : Fields} {asid : Nat} {da : W64} {data : List Byte}
    {after : State → Nat → State} (unwatched : s.unwatched g.core) (first : r.wait = .none)
    (ready : s.qAtomReady g r asid da = true) (unlinked : s.queueLinked r g.core asid da none Acc.push = none) :
    let c := s.queueTranslated g.core asid da none Acc.push []
    (∀ t n, c.1.qReserve (.group r.uid) g.core asid da Acc.push = .took t n →
      s.pushRes g r f asid da data after = .hold t { r with wait := .qpush n [] c.2 }) ∧
    (c.1.qReserve (.group r.uid) g.core asid da Acc.push = .none →
      s.pushRes g r f asid da data after = .done c.1 { r.next f with q := setBit r.q f.d.toNat false }) := by
  unfold State.pushRes
  simp only [first, State.pcWithheld_unwatched unwatched, ready, unlinked, Bool.not_true, Bool.false_eq_true, if_false]
  constructor
  · intro t n took
    rw [took]
  · intro full
    rw [full]

/-- The second step of a push whose entry may be published. -/
theorem State.pushRes_fills {s t : State} {g : Gid} {r : Group} {f : Fields} {asid n : Nat} {da : W64} {data e : List Byte}
    {got : Tab (List Byte)} {seen : List Nat} {after : State → Nat → State} (waits : r.wait = .qpush n got seen)
    (empty : r.outbox = []) (unlinked : s.queueLinked r g.core asid da (some n) Acc.push = none)
    (filled : (s.queueTranslated g.core asid da (some n) Acc.push seen).1.qFill (.group r.uid) g.core asid da Acc.push n data =
      .done t e) :
    s.pushRes g r f asid da data after =
      .done (after t n) { r.next f with wait := .none, q := setBit r.q f.d.toNat true } := by
  unfold State.pushRes
  simp only [waits, empty, unlinked, filled, List.isEmpty_nil, Bool.not_true, Bool.false_eq_true, if_false]

section

variable {i : Instr} {x : Form} {op : Nat} {f : Fields} {sh : Shape} {s : State} {g : Gid} {r : Group}
  {k : State → Gid → Group → Res} {da : W64} (hf : i.form = some ⟨false, op, f, sh⟩) (he : exec i s = issue 0 f sh s k)
include hf he

/-- An instruction whose first step is a push's. -/
theorem Issues.exec_pushes (h : Issues i x s g r) {asid : Nat} {data : List Byte} {after : State → Nat → State}
    (hk : k (s.countIssue g (s.useful r f)) g r =
      (s.countIssue g (s.useful r f)).pushRes g r f asid da data after)
    (ready : (s.countIssue g (s.useful r f)).qAtomReady g r asid da = true)
    (unlinked : s.queueLinked r g.core asid da none Acc.push = none) :
    let c := (s.countIssue g (s.useful r f)).queueTranslated g.core asid da none Acc.push []
    (∀ t n, c.1.qReserve (.group r.uid) g.core asid da Acc.push = .took t n → t.groups = s.groups →
      exec i s = .next (t.putGroup g
        { r with wait := .qpush n [] c.2, ins := f, insSh := sh, wskip := false })) ∧
    (c.1.qReserve (.group r.uid) g.core asid da Acc.push = .none →
      exec i s = .next (c.1.putGroup g
        { r.next f with wait := .none, q := setBit r.q f.d.toNat false, wskip := false })) := by
  obtain ⟨takes, full⟩ := State.pushRes_first (data := data) (after := after)
    (State.unwatched_countIssue h.unwatched) h.first ready ((State.queueLinked_countIssue ..).trans unlinked)
  constructor
  · intro t n took same
    exact h.exec_hold hf he (Nat.zero_le _) (hk.trans (takes t n took)) same
  · intro none_
    rw [h.exec_done_same hf he (Nat.zero_le _) (hk.trans (full none_)) (Looked.queueTranslated ..).groups]
    simp only [Group.next, h.first]

/-- The second step of a push is made: its entry is published in `t`, and its maker noted where it is asked for. -/
def FilledBy (i : Instr) (f : Fields) (s t : State) (g : Gid) (r : Group) (n : Nat) (noted : Bool) : Prop :=
  ∃ u, exec i s = .next u ∧ u.mem = t.mem ∧ u.scratch = t.scratch ∧ u.vreg = t.vreg ∧ u.preg = t.preg ∧ u.greg = t.greg ∧
    u.dev.dlqAsid = (if noted then tput t.dev.dlqAsid (s.partOf (s.asidOf g r) * 2 ^ 64 + n) (s.asidOf g r) else t.dev.dlqAsid) ∧
    u.group? g = some { r.next f with wait := .none, q := setBit r.q f.d.toNat true, wskip := false }

/-- An instruction whose second step is a push's: what `after` notes is all that follows the entry. -/
theorem Continues.exec_fills (h : Continues i x s g r) {n : Nat} {got : Tab (List Byte)} {seen : List Nat} {t : State}
    {data : List Byte} {noted : Bool} {after : State → Nat → State}
    (hk : k s g r = s.pushRes g r f (s.asidOf g r) da data after)
    (hafter : after t n = if noted then t.noteDlq (s.partOf (s.asidOf g r)) (s.asidOf g r) n else t)
    (waits : r.wait = .qpush n got seen) (empty : r.outbox = [])
    (unlinked : s.queueLinked r g.core (s.asidOf g r) da (some n) Acc.push = none)
    (filled : (s.queueTranslated g.core (s.asidOf g r) da (some n) Acc.push seen).1.qFill (.group r.uid) g.core (s.asidOf g r) da Acc.push n data =
      .done t []) (same : t.groups = s.groups) :
    FilledBy i f s t g r n noted := by
  have runs := hk.trans (State.pushRes_fills (after := after) waits empty unlinked filled)
  have groups : (after t n).groups = s.groups := by
    rw [hafter]
    split <;> exact same
  refine ⟨_, h.exec_done_same hf he (Nat.zero_le _) runs groups, ?_⟩
  rw [hafter]
  cases noted <;> exact ⟨rfl, rfl, rfl, rfl, rfl, rfl, State.group?_putGroup_self ..⟩

end

/-! ### TSUB reads its record (R209) -/

/-- The unit picked is one of those left. -/
theorem State.pick_mem {s : State} {left : List Nat} (h : left ≠ []) : (s.pick left).1 ∈ left := by
  have lt : (Config.freeValue s.freeCtr).toNat % left.length < left.length :=
    Nat.mod_lt _ (List.length_pos_iff.mpr h)
  rw [State.pick, List.getD_eq_getElem _ _ lt]
  exact List.getElem_mem lt

/-- Fewer entries than keys leave a key without one. -/
theorem exists_tfind_none {α : Type} {t : Tab α} {n : Nat} (h : t.length < n) :
    (List.range n).filter (fun i => (tfind t i).isNone) ≠ [] := by
  intro full
  have sub : List.range n ⊆ t.map Prod.fst := by
    intro i hi
    have some_ := List.filter_eq_nil_iff.mp full i hi
    cases hf : tfind t i with
    | none => exact absurd (by rw [hf]; rfl) some_
    | some v => exact mem_keys_of_tfind hf
  have le := (List.nodup_range.subperm sub).length_le
  rw [List.length_range, List.length_map] at le
  omega

/-- What a home read leaves besides the view. -/
theorem State.readHome_eq (s : State) (core : Nat) (pas : List Nat) :
    s.readHome core pas = { s with cores := (s.readHome core pas).cores } := by
  unfold State.readHome
  induction pas generalizing s with
  | nil => rfl
  | cons pa pas ih => exact (ih (s.dropLine core (pa / 64))).trans rfl

/-- A unit read is one not read yet, and it leaves what a read leaves. -/
theorem State.unitRead_ok {s : State} {g : Gid} {r : Group} {a : W64} {acc pa : Nat} {got : Tab (List Byte)} {seen : List Nat}
    (few : got.length < 4) (home : s.homeOf g.core (s.asidOf g r) a.toNat 64 acc false = .ok pa)
    (unlinked : (r.linkBad && overLink pa) = false)
    (clear : (r.outbox.any fun e => e.overlaps (if isPeer pa then .peer else .global) pa 64) = false) :
    ∃ i t seen', i < 4 ∧ tfind got i = none ∧ Looked s t ∧
      s.unitRead g r a acc got seen = .ok t (tput got i (s.bytes (pa + 16 * i) 16)) seen' := by
  have mem := State.pick_mem (s := s) (exists_tfind_none few)
  rw [List.mem_filter, List.mem_range, Option.isNone_iff_eq_none] at mem
  refine ⟨_, ?t, ?seen', mem.1, mem.2, ?looked, ?runs⟩
  case runs =>
    unfold State.unitRead
    simp only [home, unlinked, clear, Bool.false_eq_true, if_false]
    rfl
  have picked : Looked s (s.pick ((List.range 4).filter fun i => (tfind got i).isNone)).2 := rfl
  have read (t : State) : Looked t (t.readHome g.core [pa]) := by
    rw [Looked]
    exact State.readHome_eq ..
  refine Looked.trans ?_ (read _)
  split
  · exact picked
  · exact picked.trans (.translated ..)

/-! ### QPOP writes its eight G registers (R118) -/

theorem State.foldl_setG (s : State) (r : Group) (d : Nat) (val : Nat → W64) (ks : List Nat) :
    ks.foldl (fun s k => s.setG r (d + k) (val k)) s =
      { s with greg := tsetMany 0 s.greg (ks.map fun k => (gkey r.uid (d + k), val k)) } := by
  induction ks generalizing s with
  | nil => rfl
  | cons k ks ih => rw [List.foldl_cons, ih]; rfl

theorem GWritten.of_range {s t : State} {r : Group} {d n : Nat} {val : Nat → W64}
    (h : t.greg = tsetMany 0 s.greg ((List.range n).map fun k => (gkey r.uid (d + k), val k))) :
    GWritten s t r ((List.range n).map fun k => (d + k, val k)) := by
  constructor
  · intro w hw
    obtain ⟨k, hk, rfl⟩ := List.mem_map.mp hw
    rw [h]
    refine tget_tsetMany_mem _ ?_ (List.mem_map.mpr ⟨k, hk, rfl⟩)
    rw [List.map_map]
    exact List.nodup_range.map fun a b same => by simp only [Function.comp, gkey] at same; omega
  · intro k hk
    rw [h]
    refine tget_tsetMany_ne _ fun e he => ?_
    obtain ⟨j, hj, rfl⟩ := List.mem_map.mp he
    exact hk _ (List.mem_map.mpr ⟨j, hj, rfl⟩)

/-! ### The instructions -/

/-- What QPUSH puts into an entry. -/
def State.qpushData (s : State) (r : Group) (f : Fields) : List Byte :=
  (List.range 8).flatMap fun i => leBytes 8 (s.gr r (f.b.toNat + i)).toNat

theorem exec_qpush_issue (f : Fields) (s : State) : exec (.qpush f) s = issue 0 f (shapeQpush f) s fun s g r =>
    s.pushRes g r f (s.asidOf g r) (s.gr r f.a.toNat) (s.qpushData r f)
      fun t i => if s.isDlq g r (s.gr r f.a.toNat) then t.noteDlq (t.partOf (s.asidOf g r)) (s.asidOf g r) i else t := by
  simp only [exec_qpush, execQpush, State.qpushData]

theorem Looked.partOf {s t : State} (h : Looked s t) (asid : Nat) : t.partOf asid = s.partOf asid := by
  rw [h]
  rfl

section

variable {f : Fields} {x : Form} {s : State} {g : Gid} {r : Group}

theorem exec_qpush_fills (h : Continues (.qpush f) x s g r) {n : Nat} {got : Tab (List Byte)} {seen : List Nat} {t : State}
    (waits : r.wait = .qpush n got seen) (empty : r.outbox = [])
    (unlinked : s.queueLinked r g.core (s.asidOf g r) (s.gr r f.a.toNat) (some n) Acc.push = none)
    (filled : (s.queueTranslated g.core (s.asidOf g r) (s.gr r f.a.toNat) (some n) Acc.push seen).1.qFill (.group r.uid)
      g.core (s.asidOf g r) (s.gr r f.a.toNat) Acc.push n (s.qpushData r f) = .done t []) (same : t.groups = s.groups) :
    FilledBy (.qpush f) f s t g r n (s.isDlq g r (s.gr r f.a.toNat)) := by
  refine h.exec_fills rfl (exec_qpush_issue f s) rfl ?_ waits empty unlinked filled same
  rw [State.partOf_qFill filled, (Looked.queueTranslated ..).partOf]

end

/-- What TSUB comes to in the group's state of the push. -/
theorem tsub_steps (f : Fields) (s : State) : ∃ k, exec (.tsub f) s = issue 0 f (shapeTsub f) s k ∧
    ∀ (t : State) (g : Gid) (r : Group), (t.gr r f.a.toNat).toNat % 64 = 0 →
      let asid := t.asidOf g r
      let p := t.partOf asid
      (r.wait = .none → bitOf (t.dlqd p) 0 = false → k t g r = .done t { r.next f with q := setBit r.q f.d.toNat false }) ∧
      (r.wait = .none → bitOf (t.dlqd p) 0 = true → k t g r = t.pushRes g r f asid (t.dlqDesc p) [] fun t _ => t) ∧
      (∀ n got seen, r.wait = .qpush n got seen →
        (got.length = 4 → k t g r = t.pushRes g r f asid (t.dlqDesc p) (unitBytes 4 got) fun u m => u.noteDlq p asid m) ∧
        ∀ u got' seen', got.length ≠ 4 → t.unitRead g r (t.gr r f.a.toNat) Acc.queue got seen = .ok u got' seen' →
          k t g r = .hold u { r with wait := .qpush n got' seen' }) := by
  refine ⟨_, exec_tsub f s, fun t g r aligned => ⟨fun first off => ?_, fun first on => ?_, fun n got seen waits => ⟨fun full => ?_,
    fun u got' seen' few read => ?_⟩⟩⟩
  · simp [aligned, first, off]
  · simp [aligned, first, on]
  · simp [aligned, waits, full]
  · simp [aligned, waits, few, read]

/-- What QPOP comes to: the first step, or the same again on a queue found empty, and the second step. -/
theorem qpop_steps (f : Fields) (s : State) : ∃ k, exec (.qpop f) s = issue 0 f (shapeQpop f) s k ∧
    ∀ (t : State) (g : Gid) (r : Group) (seen : List Nat),
      let asid := t.asidOf g r
      let da := t.gr r f.a.toNat
      (t.unwatched g.core → (r.wait = .none ∧ seen = [] ∨ r.wait = .qpop none seen) → t.qAtomReady g r asid da = true →
        t.queueLinked r g.core asid da none Acc.queue = none →
        let c := t.queueTranslated g.core asid da none Acc.queue seen
        (∀ u n, c.1.qTake (.group r.uid) g.core asid da Acc.queue = .took u n →
          k t g r = .hold u { r with wait := .qpop (some n) c.2 }) ∧
        (c.1.qTake (.group r.uid) g.core asid da Acc.queue = .none →
          k t g r = if f.fnIs 1 then .done c.1 { r.next f with q := setBit r.q f.c.toNat false }
            else .hold c.1 { r with wait := .qpop none c.2 })) ∧
      ∀ n u bs, r.wait = .qpop (some n) seen → t.queueLinked r g.core asid da (some n) Acc.queue = none →
        (t.queueTranslated g.core asid da (some n) Acc.queue seen).1.qEmpty (.group r.uid) g.core asid da Acc.queue n = .done u bs →
        k t g r = .done ((List.range 8).foldl (fun u k =>
            u.setG r (f.d.toNat + k) (BitVec.ofNat 64 (leNat ((bs.drop (8 * k)).take 8)))) (u.emptyView g.core))
          { r.next f with wait := .none, q := if f.fnIs 1 then setBit r.q f.c.toNat true else r.q } := by
  refine ⟨_, exec_qpop f s, fun t g r seen => ⟨fun unwatched waits ready unlinked => ⟨fun u n took => ?_, fun none_ => ?_⟩,
    fun n u bs waits unlinked emptied => ?_⟩⟩
  · rcases waits with ⟨first, rfl⟩ | waits <;>
      simp [*, State.pcWithheld_unwatched unwatched]
  · rcases waits with ⟨first, rfl⟩ | waits <;>
      simp [*, State.pcWithheld_unwatched unwatched]
  · simp [waits, unlinked, emptied]

theorem Claims.deviceQueues : Claims.DeviceQueues := by
  refine ⟨fun f s g r => ⟨?pushQ, ?fillQ, fun aligned => ⟨fun on => ?pushT, fun off => ?off, ?units, ?fillT⟩, ?take, ?empty⟩,
    fun s me core asid da acc q hq => ⟨fun t n => State.took_of_qReserve hq, fun t n => State.took_of_qTake hq,
      fun t n d e => State.seq_of_qFill hq, fun t n e => State.seq_of_qEmpty hq⟩⟩
  case pushQ =>
    intro x h ready unlinked
    exact h.exec_pushes rfl (exec_qpush_issue f s) rfl ready unlinked
  case fillQ =>
    intro x n got seen t h waits _ empty unlinked filled same
    exact exec_qpush_fills h waits empty unlinked filled same
  case pushT =>
    intro x h ready unlinked
    obtain ⟨k, he, steps⟩ := tsub_steps f s
    exact h.exec_pushes rfl he ((steps (s.countIssue g (s.useful r f)) g r aligned).2.1 h.first on) ready unlinked
  case off =>
    intro x h
    obtain ⟨k, he, steps⟩ := tsub_steps f s
    exact h.exec_done_same rfl he (Nat.zero_le _) ((steps (s.countIssue g (s.useful r f)) g r aligned).1 h.first off) rfl
  case units =>
    intro x n got seen pa h waits few home unlinked clear
    obtain ⟨k, he, steps⟩ := tsub_steps f s
    obtain ⟨i, t, seen', small, left, looked, read⟩ := State.unitRead_ok (seen := seen) few home unlinked clear
    have runs := ((steps s g r aligned).2.2 n got seen waits).2 t _ seen' few.ne read
    refine ⟨i, seen', _, small, left, h.exec_hold rfl he (Nat.zero_le _) runs looked.groups, State.group?_putGroup_self .., ?_⟩
    rw [looked]
    exact ⟨rfl, rfl, rfl, rfl, rfl⟩
  case fillT =>
    intro x n got seen t h waits full empty unlinked filled same
    obtain ⟨k, he, steps⟩ := tsub_steps f s
    exact h.exec_fills (noted := true) rfl he (((steps s g r aligned).2.2 n got seen waits).1 (of_decide_eq_true full))
      rfl waits empty unlinked filled same
  case take =>
    intro x s0 seen started ready unlinked
    obtain ⟨k, he, steps⟩ := qpop_steps f s
    have started' : Issues (.qpop f) x s g r ∧ s0 = s.countIssue g (s.useful r f) ∨ Continues (.qpop f) x s g r ∧ s0 = s :=
      started.imp (fun h => ⟨h.1, h.2.1⟩) fun h => ⟨h.1, h.2.1⟩
    have facts : s0.groups = s.groups ∧ s0.unwatched g.core ∧ (r.wait = .none ∧ seen = [] ∨ r.wait = .qpop none seen) ∧
        s0.asidOf g r = s.asidOf g r ∧ s0.gr r f.a.toNat = s.gr r f.a.toNat ∧
        s0.queueLinked r g.core (s.asidOf g r) (s.gr r f.a.toNat) none Acc.queue = none := by
      rcases started with ⟨h, rfl, rfl⟩ | ⟨h, rfl, waits⟩
      · exact ⟨rfl, State.unwatched_countIssue h.unwatched, .inl ⟨h.first, rfl⟩, rfl, rfl,
          (State.queueLinked_countIssue ..).trans unlinked⟩
      · exact ⟨rfl, h.unwatched, .inr waits, rfl, rfl, unlinked⟩
    obtain ⟨same, unwatched, waits, asid, da, unlinked'⟩ := facts
    have first := (steps s0 g r seen).1
    rw [asid, da] at first
    obtain ⟨takes, empty⟩ := first unwatched waits ready unlinked'
    have groups := (Looked.queueTranslated s0 g.core (s.asidOf g r) (s.gr r f.a.toNat) none Acc.queue seen).groups.trans same
    refine ⟨fun t n took => exec_hold_of_started rfl he started' (takes t n took), fun none_ => ⟨fun block => ?_, fun nb first => ?_⟩⟩
    · exact exec_hold_of_started rfl he started' (by rw [empty none_, block]; rfl) groups
    · rw [exec_done_of_started rfl he started' (by rw [empty none_, nb]; rfl) groups]
      simp only [Group.next, first]
  case empty =>
    intro x n seen t bs h waits _ unlinked emptied same
    obtain ⟨k, he, steps⟩ := qpop_steps f s
    have runs := (steps s g r seen).2 n t bs waits unlinked emptied
    rw [State.foldl_setG] at runs
    exact ⟨_, h.exec_done_same rfl he (Nat.zero_le _) runs same, rfl, .of_range rfl, State.group?_putGroup_self ..⟩

/-! ### PUSH (R248) -/

theorem State.records_taskInv (s : State) (part asid cond addr : Nat) :
    ∃ fr, (s.taskInv part asid cond addr).records = s.records ++ [(part, fr)] ∧ fr.code = Code.taskinv ∧
      fr.b2c = BitVec.ofNat 32 cond := ⟨_, rfl, rfl, rfl⟩

theorem Claims.pushSteps : Claims.PushSteps := by
  intro s k p pa held going aligned small
  have near : (p.task % 64 != 0 || decide (2 ^ 48 ≤ p.task)) = false := by
    rw [aligned, decide_eq_false small.not_ge]
    rfl
  simp only [exec_push, execPush, held, going, near, Option.isSome_none, Bool.false_eq_true, if_false]
  refine ⟨fun on home => ⟨fun t i fresh took => ?_, fun t i taken filled => ?_⟩, fun off => ?_⟩
  · simp only [on, home, fresh, took, Bool.not_true, Bool.false_eq_true, if_false]
  · simp only [on, home, taken, filled, Bool.not_true, Bool.false_eq_true, if_false]
  · obtain ⟨fr, records, code, cond⟩ := s.records_taskInv (s.partOf p.asid) p.asid 5 p.task
    simp only [off, Bool.not_false, if_true]
    exact ⟨_, fr, rfl, rfl, records, code, cond, rfl⟩

/-- Settles O26: the two steps of a push and of a pop, by what each instruction does in the group's state of the wait; an
entry published at home moves no ASID table, so that its maker is noted under its own partition. -/
theorem queues : Obligations.Queues := ⟨Claims.deviceQueues, Claims.pushSteps⟩

end Sys2Proof.Machine

/-! ## Host queues (R119, R374 to R380) -/

namespace Sys2Proof.Machine

/-! ### What a round, a lane and a register leave of the rest -/

/-- The state with another round of lanes to serve: it translates and reads as before. -/
def State.withRound (s : State) (round : List Nat) : State := { s with dev := { s.dev with round := round } }

section
variable (s : State) (round : List Nat)

theorem State.walk_withRound (asid va lvl tab : Nat) : (s.withRound round).walk asid va lvl tab = s.walk asid va lvl tab := by
  induction lvl generalizing tab with
  | zero => rfl
  | succ lvl ih =>
    unfold State.walk
    simp only [ih]
    rfl

theorem State.lookup_withRound (core asid va : Nat) : (s.withRound round).lookup core asid va = s.lookup core asid va := by
  unfold State.lookup
  rw [State.walk_withRound]
  rfl

theorem State.translate_withRound (core asid va acc : Nat) (write x : Bool) :
    (s.withRound round).translate core asid va acc write x = s.translate core asid va acc write x := by
  unfold State.translate
  rw [State.lookup_withRound]
  rfl

theorem State.homeOf_withRound (core asid va n acc : Nat) (write : Bool) :
    (s.withRound round).homeOf core asid va n acc write = s.homeOf core asid va n acc write := by
  unfold State.homeOf
  rw [State.translate_withRound]
  rfl

theorem State.homeLoad_withRound (core asid va n acc : Nat) :
    (s.withRound round).homeLoad core asid va n acc = s.homeLoad core asid va n acc := by
  unfold State.homeLoad
  rw [State.homeOf_withRound]
  rfl
end
theorem State.readElsewhere_of_no_error {s : State} (h : s.softErr = []) (pa n : Nat) : s.readElsewhere pa n = s := by
  simp [State.readElsewhere, State.correct, State.uncorrectable, h]

@[simp] theorem State.lane_putLane (s : State) (n : Nat) (l : Lane) : (s.putLane n l).lane n = l := by
  simp [State.lane, State.putLane]

theorem State.lane_setCtl (s : State) (o : Nat) (w : W64) (n : Nat) : (s.setCtl o w).lane n = s.lane n := (rfl)
theorem State.lane_leaveRound (s : State) (m n : Nat) : (s.leaveRound m).lane n = s.lane n := (rfl)

theorem State.ctlw_setCtl (s : State) (o : Nat) (w : W64) (off : Nat) :
    (s.setCtl o w).ctlw off = if off = o then w else s.ctlw off := by
  rw [State.ctlw, State.setCtl_ctl, tfind_tput]
  split <;> rfl

theorem State.hqd_setCtl (s : State) (n k j : Nat) (w : W64) :
    (s.setCtl (hqdOff n k) w).hqd n j = if j = k then w else s.hqd n j := by
  have same : hqdOff n j = hqdOff n k ↔ j = k := by
    unfold hqdOff
    omega
  rw [State.hqd, State.ctlw_setCtl]
  simp only [same]
  rfl

theorem State.hword_of_memory {s t : State} (h : t.memory = s.memory) (a n : Nat) : t.hword a n = s.hword a n := by
  rw [State.hword, show t.hostMem = s.hostMem from congrArg Prod.snd h]
  rfl

theorem State.word_of_memory {s t : State} (h : t.memory = s.memory) (a n : Nat) : t.word a n = s.word a n := by
  unfold State.word State.bytes State.byte
  rw [show t.mem = s.mem from congrArg Prod.fst h]

/-- The word last written to host memory is the word read. -/
theorem State.hword_hstore (s : State) (a n x : Nat) : (s.hstore a (leBytes n x)).hword a n = x % 256 ^ n :=
  State.word_storeWord { s with mem := s.hostMem } a n x

/-- Where a byte is kept rests on the pool windows and the control block's place alone. -/
theorem State.home_congr {s t : State} (high : ∀ off, 0x4E00 ≤ off → t.ctlw off = s.ctlw off)
    (block : t.dev.granary.blockAt = s.dev.granary.blockAt) (pa : Nat) : t.home pa = s.home pa := by
  have wins : t.poolWins = s.poolWins := by
    unfold State.poolWins
    simp only [high _ (Nat.le_add_right ..), high _ ((Nat.le_add_right ..).trans (Nat.le_add_right ..))]
  unfold State.home
  rw [wins, block]

/-! ### QUEUE_POLL (R375) -/

section

variable {s : State} {n : Nat} (live : s.laneLive n = true) (kind : s.laneKind n = false) (free : (s.lane n).pkt = none)
include live kind free

theorem exec_queuePoll_ring (closed : (s.lane n).ib = []) : exec (.queuePoll n) s = .next (s.pollRing n) := by
  simp [exec_queuePoll, execQueuePoll, live, kind, free, closed]

theorem exec_queuePoll_buffer {a i cnt : Nat} {rest : List (Nat × Nat × Nat)} (opened : (s.lane n).ib = (a, i, cnt) :: rest) :
    exec (.queuePoll n) s = .next (s.pollBuffer n a i cnt rest) := by
  simp [exec_queuePoll, execQueuePoll, live, kind, free, opened]

end

/-- The slot of RIDX is read where it is published, in host memory or in the device's. -/
theorem State.pollRing_ok {s : State} {n : Nat} (ok : s.ringOk n = true) (sound : s.ringHost n = true ∨ s.softErr = []) :
    s.pollRing n = if s.ringWord n (s.slotAddr n (s.ridx n)) 8 = (s.ridx n + 1) % 2 ^ 64 then
        s.putLane n { s.lane n with addr := s.slotAddr n (s.ridx n), pkt := some (if s.ringHost n then
          (List.range 128).map fun k => tget 0 s.hostMem (s.slotAddr n (s.ridx n) + k)
          else s.bytes (s.home (s.slotAddr n (s.ridx n))) 128) }
      else s := by
  have read : (if s.ringHost n then s else s.readElsewhere (s.home (s.slotAddr n (s.ridx n))) 128) = s := by
    rcases sound with host | sound
    · rw [if_pos host]
    · rw [State.readElsewhere_of_no_error sound, ite_self]
  unfold State.pollRing
  dsimp only
  rw [ok, read]
  by_cases h : s.ringWord n (s.slotAddr n (s.ridx n)) 8 = (s.ridx n + 1) % 2 ^ 64
  · simp only [h, bne_self_eq_false, Bool.not_true, Bool.false_eq_true, if_false, if_true]
  · simp only [h, bne_iff_ne, ne_eq, not_false_eq_true, Bool.not_true, Bool.false_eq_true, if_false, if_true]

/-- A packet of an open buffer is read at home. -/
theorem State.pollBuffer_ok {s : State} {n a i cnt pa : Nat} {rest : List (Nat × Nat × Nat)} (sound : s.softErr = [])
    (home : (s.putLane n { s.lane n with addr := a + 128 * i }).homeOf noCore (s.laneAsid n) (a + 128 * i) 128 Acc.queue false =
      .ok pa) :
    s.pollBuffer n a i cnt rest = (s.putLane n { s.lane n with addr := a + 128 * i }).putLane n
      { s.lane n with addr := a + 128 * i, pkt := some (s.bytes pa 128), ib := (a, i + 1, cnt) :: rest } := by
  have asid : (s.putLane n { s.lane n with addr := a + 128 * i }).laneAsid n = s.laneAsid n := rfl
  have read := State.readElsewhere_of_no_error (s := s.putLane n { s.lane n with addr := a + 128 * i }) sound pa 128
  unfold State.pollBuffer
  simp only [asid, home, read]
  rfl

/-! ### Queue errors (R379) -/

@[simp] theorem State.ctl_raise (s : State) (part : Nat) (fr : FRec) : (s.raise part fr).ctl = s.ctl := (rfl)
@[simp] theorem State.ctl_vector (s : State) (v : Nat) : (s.vector v).ctl = s.ctl := (rfl)
@[simp] theorem State.ctl_putLane (s : State) (n : Nat) (l : Lane) : (s.putLane n l).ctl = s.ctl := (rfl)
@[simp] theorem State.ctl_leaveRound (s : State) (n : Nat) : (s.leaveRound n).ctl = s.ctl := (rfl)

theorem State.hqd_congr {s t : State} (h : t.ctl = s.ctl) (n k : Nat) : t.hqd n k = s.hqd n k := by
  rw [State.hqd, State.ctlw, h]
  rfl

/-- A queue error sets STOP, the code and the packet's address. -/
theorem State.hqd_queueError (s : State) (n code k : Nat) : (s.queueError n code).hqd n k =
    if k = 4 then BitVec.ofNat 64 (s.lane n).addr else if k = 3 then BitVec.ofNat 64 code
    else if k = 0 then setBit (s.hqd n 0) 59 true else s.hqd n k := by
  rw [← State.hqd_setCtl s n 0, ← State.hqd_setCtl _ n 3, ← State.hqd_setCtl _ n 4]
  refine State.hqd_congr ?_ n k
  simp only [State.queueError, State.stopQueue, State.ctl_raise, State.ctl_vector, State.ctl_putLane]

/-- A queue that stops on an error: STOP, the code, and no memory touched. -/
theorem State.queueError_stops (s : State) (n code : Nat) : bitOf ((s.queueError n code).hqd n 0) 59 = true ∧
    (s.queueError n code).hqd n 3 = BitVec.ofNat 64 code ∧ (s.queueError n code).memory = s.memory := by
  refine ⟨?_, State.hqd_queueError s n code 3, State.memory_queueError ..⟩
  rw [State.hqd_queueError]
  exact getLsbD_setBit (s.hqd n 0) 59 59 true (by omega)

/-- A ring with a peer that DOMMAP does not give stops its queue with code 5. -/
theorem State.pollRing_peer {s : State} {n : Nat} (device : s.ringHost n = false) (peer : isPeer (s.ringAddr n) = true)
    (closed : s.peerOk (s.ringAddr n) = false) :
    s.pollRing n = (s.putLane n { s.lane n with addr := s.ringAddr n }).queueError n 5 := by
  have notOk : s.ringOk n = false := by simp [State.ringOk, device, peer, closed]
  unfold State.pollRing
  rw [notOk]
  rfl

/-! ### Packets (R376, R378) -/

/-- The lane that is next in the round takes its turn where its packet is of the type. -/
theorem State.serve_next {s : State} {n : Nat} {rest : List Nat} {p : List Byte} (next : s.dev.round = n :: rest)
    (holds : s.holds n = true) (held : (s.lane n).pkt = some p) (t : Nat) (k : State → Nat → List Byte → State) :
    s.serve t k = .next (if pktType p = t then k (s.withRound rest) n p else s) := by
  have pkt : s.pktOf n = p := by rw [State.pktOf, held]; rfl
  unfold State.serve
  simp only [next, holds, pkt]
  by_cases h : pktType p = t
  · simp [h, State.withRound]
  · simp [h]

theorem State.packetTaken_eq (s : State) (n : Nat) :
    s.packetTaken n =
      let u := s.putLane n { s.lane n with pkt := none, passed := false, ib := closeBuffers (s.lane n).ib }
      if closeBuffers (s.lane n).ib = [] then u.setRidx n (s.ringWord n (s.ringAddr n + 64) 8 + 1) else u := by
  unfold State.packetTaken
  simp only [List.isEmpty_iff]
  rfl

/-- A launch made stands among the launches, not validated yet. -/
theorem State.newLaunch_made (s : State) (ws : List W64) (addr asid priv queue : Nat) :
    ∃ id, tfind (s.newLaunch ws addr asid priv queue).2.launches id =
      some { words := ws, addr := addr, asid := asid, priv := priv, queue := queue } :=
  ⟨s.nextId, tfind_tput_self ..⟩

theorem waitCond_iff {c : Nat} (h : c < 4) (x y : Nat) :
    waitCond c x y = true ↔ c = 0 ∧ x = y ∨ c = 1 ∧ x ≠ y ∨ c = 2 ∧ y ≤ x ∨ c = 3 ∧ x < y := by
  match c, h with
  | 0, _ | 1, _ | 2, _ | 3, _ => simp [waitCond]

theorem leNat_lt (bs : List Byte) : leNat bs < 256 ^ bs.length := by
  induction bs with
  | nil => exact Nat.one_pos
  | cons b bs ih =>
    have hb : b.toNat < 256 := b.isLt
    rw [leNat, List.length_cons, Nat.pow_succ]
    omega

/-- Eight bytes of a packet are a word. -/
theorem pktNat_lt (p : List Byte) (off : Nat) : pktNat p off 8 < 2 ^ 64 :=
  (leNat_lt _).trans_le (Nat.pow_le_pow_right (n := 256) (by decide) (List.length_take_le ..))

/-- A masked word, as WAIT_VALUE compares it. -/
theorem toNat_masked (p : List Byte) (x off : Nat) :
    (BitVec.ofNat 64 x &&& BitVec.ofNat 64 (pktNat p off 8)).toNat = x % 2 ^ 64 &&& pktNat p off 8 := by
  rw [BitVec.toNat_and, BitVec.toNat_ofNat, BitVec.toNat_ofNat, Nat.mod_eq_of_lt (pktNat_lt p off)]

section

variable {s : State} {n : Nat} {rest : List Nat} {p : List Byte} (next : s.dev.round = n :: rest)
  (holds : s.holds n = true) (held : (s.lane n).pkt = some p)
include next holds held

theorem exec_nopPacket_next : exec .nopPacket s =
    .next (if pktType p = 0 then (s.withRound rest).packetTaken n else s) := by
  rw [exec_nopPacket, execNopPacket, State.serve_next next holds held]

theorem exec_launch_next (typ : pktType p = 1) : ∃ t id x, exec .launch s = .next t ∧ tfind t.launches id = some x ∧
    x.words = (List.range 8).map (fun i => BitVec.ofNat 64 (pktNat p (0x10 + 8 * i) 8)) ∧ x.asid = s.laneAsid n ∧ x.queue = n ∧
    x.valid = false ∧ x.placed = 0 ∧ (t.lane n).passed = true ∧ (t.lane n).pkt = some p := by
  rw [exec_launch, execLaunch, State.serve_next next holds held, if_pos typ]
  obtain ⟨id, made⟩ := State.newLaunch_made ((s.withRound rest).putLane n { s.lane n with passed := true })
    ((List.range 8).map fun i => BitVec.ofNat 64 (pktNat p (0x10 + 8 * i) 8)) ((s.lane n).addr + 0x10) (s.laneAsid n)
    (s.lanePriv n) n
  refine ⟨_, id, _, rfl, made, rfl, rfl, rfl, rfl, rfl, ?_⟩
  have lane : ∀ t : State, t.lanes = tput s.lanes n { s.lane n with passed := true } →
      t.lane n = { s.lane n with passed := true } := fun t h => by rw [State.lane, h, tfind_tput_self]; rfl
  rw [lane _ rfl]
  exact ⟨rfl, held⟩

theorem exec_ibCall_next (typ : pktType p = 2) : exec .ibCall s = .next (
    if 4 ≤ (s.lane n).ib.length then (s.withRound rest).queueError n 1
    else if ∃ x ∈ (s.lane n).ib, x.1 = pktNat p 0x10 8 then (s.withRound rest).queueError n 2
    else if pktNat p 0x10 8 % 128 ≠ 0 ∨ pktNat p 0x18 8 = 0 ∨ 65536 < pktNat p 0x18 8 then (s.withRound rest).queueError n 4
    else (s.withRound rest).putLane n
      { s.lane n with pkt := none, ib := (pktNat p 0x10 8, 0, pktNat p 0x18 8) :: (s.lane n).ib }) := by
  rw [exec_ibCall, execIbCall, State.serve_next next holds held, if_pos typ]
  have lane : (s.withRound rest).lane n = s.lane n := rfl
  simp only [lane, List.any_eq_true, decide_eq_true_eq, Bool.or_eq_true, bne_iff_ne, or_assoc]

theorem exec_waitValue_next (typ : pktType p = 3) {x : Nat} (aligned : pktNat p 0x10 8 % pktSize p = 0) (sound : s.softErr = [])
    (loaded : s.homeLoad noCore (s.laneAsid n) (pktNat p 0x10 8) (pktSize p) Acc.queue = .ok x) :
    exec .waitValue s = .next (if waitCond (pktNat p 8 8 / 2 ^ 8 % 4) (x % 2 ^ 64 &&& pktNat p 0x20 8)
      (pktNat p 0x18 8 &&& pktNat p 0x20 8) then (s.withRound rest).packetTaken n else s.withRound rest) := by
  have read : (s.withRound rest).laneRead n (pktNat p 0x10 8) (pktSize p) = s.withRound rest := by
    unfold State.laneRead
    split
    · exact State.readElsewhere_of_no_error (s := s.withRound rest) sound ..
    · rfl
  have load := (s.homeLoad_withRound rest ..).trans loaded
  have asid : (s.withRound rest).laneAsid n = s.laneAsid n := rfl
  rw [exec_waitValue, execWaitValue, State.serve_next next holds held, if_pos typ]
  simp only [aligned, asid, load, read, bne_self_eq_false, Bool.false_eq_true, if_false, toNat_masked,
    Nat.mod_eq_of_lt (pktNat_lt p 0x18)]

theorem exec_fencePacket_next (typ : pktType p = 5) : exec .fencePacket s =
    .next (if (s.lane n).outstanding = [] then (s.withRound rest).packetTaken n else s.withRound rest) := by
  rw [exec_fencePacket, execFencePacket, State.serve_next next holds held, if_pos typ]
  have lane : (s.withRound rest).lane n = s.lane n := rfl
  simp only [lane, List.isEmpty_iff]

theorem exec_waitValue_unaligned (typ : pktType p = 3) (unaligned : pktNat p 0x10 8 % pktSize p ≠ 0) :
    exec .waitValue s = .next ((s.withRound rest).queueError n 5) := by
  rw [exec_waitValue, execWaitValue, State.serve_next next holds held, if_pos typ]
  simp only [unaligned, bne_iff_ne, ne_eq, not_false_eq_true, if_true]

theorem exec_writeValue_next (typ : pktType p = 4) :
    exec .writeValue s = .next ((s.withRound rest).packetWrite n p (pktSize p) (pktNat p 0x18 8)) := by
  rw [exec_writeValue, execWriteValue, State.serve_next next holds held, if_pos typ]

theorem exec_timestamp_next (typ : pktType p = 6) :
    exec .timestamp s = .next ((s.withRound rest).packetWrite n p 8 s.dev.hb.toNat) := by
  rw [exec_timestamp, execTimestamp, State.serve_next next holds held, if_pos typ]
  rfl

end

theorem State.packetWrite_unaligned {s : State} {n w x : Nat} {p : List Byte} (unaligned : pktNat p 0x10 8 % w ≠ 0) :
    s.packetWrite n p w x = s.queueError n 5 := by
  unfold State.packetWrite
  simp only [unaligned, bne_iff_ne, ne_eq, not_false_eq_true, if_true]

/-- A packet's write at home is made, its vector raised, and the packet is taken. -/
theorem State.packetWrite_ok {s t : State} {n w x : Nat} {p : List Byte} (aligned : pktNat p 0x10 8 % w = 0)
    (stored : s.homeStore (.lane n) noCore (s.laneAsid n) (pktNat p 0x10 8) Acc.store (leBytes w x) = .ok t) :
    s.packetWrite n p w x =
      (let u := t.putLane n { t.lane n with capf := none }
       if pktNat p 8 8 / 2 ^ 11 % 2 = 1 then u.vector (pktNat p 8 8 / 2 ^ 16 % 64) else u).packetTaken n := by
  unfold State.packetWrite
  simp only [aligned, stored, bne_self_eq_false, Bool.false_eq_true, if_false]

/-! ### QUEUE_RESTART (R380) -/

theorem State.setRidx_host {s : State} {n : Nat} (host : s.ringHost n = true) (x : Nat) :
    s.setRidx n x = s.hstore (s.ringAddr n + 64) (leBytes 8 x) := if_pos host

theorem State.setRidx_device {s : State} {n : Nat} (device : s.ringHost n = false) (ok : s.ringOk n = true) (x : Nat) :
    s.setRidx n x = s.storeWord (s.home (s.ringAddr n + 64)) 8 x := by
  simp only [State.setRidx, device, ok, Bool.false_eq_true, if_false, if_true]
  rfl

theorem State.ctl_setRidx (s : State) (n x : Nat) : (s.setRidx n x).ctl = s.ctl := by
  unfold State.setRidx
  dsimp only
  split
  · rfl
  · split <;> rfl

theorem State.dev_setRidx (s : State) (n x : Nat) : (s.setRidx n x).dev = s.dev := by
  unfold State.setRidx
  dsimp only
  split
  · rfl
  · split <;> rfl

/-- The state with a restarting queue's RIDX past the packet that stopped it. -/
def State.ridxPassed (s : State) (n : Nat) : State := if s.laneKind n then s else s.setRidx n (s.ridx n + 1)

theorem State.ctl_ridxPassed (s : State) (n : Nat) : (s.ridxPassed n).ctl = s.ctl := by
  unfold State.ridxPassed
  split
  · rfl
  · exact State.ctl_setRidx ..

theorem State.dev_ridxPassed (s : State) (n : Nat) : (s.ridxPassed n).dev = s.dev := by
  unfold State.ridxPassed
  split
  · rfl
  · exact State.dev_setRidx ..

/-- The same, its lane out of the round and with no index in hand. -/
def State.laneFreed (s : State) (n : Nat) : State :=
  ((s.ridxPassed n).putLane n { (s.ridxPassed n).lane n with taken := none }).leaveRound n

theorem State.queueRestart_eq (s : State) (n : Nat) : s.queueRestart n =
    (((s.laneFreed n).setCtl (hqdOff n 0) (setBit ((s.laneFreed n).hqd n 0) 59 false)).setCtl (hqdOff n 3) 0).setCtl
      (hqdOff n 4) 0 := by
  unfold State.queueRestart State.laneFreed State.ridxPassed
  rfl

theorem State.ctl_laneFreed (s : State) (n : Nat) : (s.laneFreed n).ctl = s.ctl := by
  rw [State.laneFreed, State.ctl_leaveRound, State.ctl_putLane, State.ctl_ridxPassed]

theorem State.memory_laneFreed (s : State) (n : Nat) : (s.laneFreed n).memory = (s.ridxPassed n).memory := by
  rw [State.laneFreed, State.memory_leaveRound, State.memory_putLane]

theorem State.memory_queueRestart (s : State) (n : Nat) : (s.queueRestart n).memory = (s.ridxPassed n).memory := by
  rw [State.queueRestart_eq, State.memory_setCtl, State.memory_setCtl, State.memory_setCtl, State.memory_laneFreed]

theorem State.hqd_queueRestart (s : State) (n k : Nat) : (s.queueRestart n).hqd n k =
    if k = 4 then 0 else if k = 3 then 0 else if k = 0 then setBit (s.hqd n 0) 59 false else s.hqd n k := by
  rw [State.queueRestart_eq, State.hqd_setCtl, State.hqd_setCtl, State.hqd_setCtl, State.hqd_congr (s.ctl_laneFreed n),
    State.hqd_congr (s.ctl_laneFreed n)]

theorem State.home_queueRestart {s : State} {n : Nat} (small : n < 64) (pa : Nat) : (s.queueRestart n).home pa = s.home pa := by
  refine State.home_congr (fun off high => ?_) ?_ pa
  · have ne (k : Nat) (hk : k < 8) : off ≠ hqdOff n k := by
      unfold hqdOff
      omega
    rw [State.queueRestart_eq, State.ctlw_setCtl, if_neg (ne 4 (by omega)), State.ctlw_setCtl, if_neg (ne 3 (by omega)),
      State.ctlw_setCtl, if_neg (ne 0 (by omega)), State.ctlw, State.ctl_laneFreed]
    rfl
  · rw [State.queueRestart_eq]
    change (s.ridxPassed n).dev.granary.blockAt = _
    rw [State.dev_ridxPassed]

theorem State.lane_queueRestart (s : State) (n : Nat) : ((s.queueRestart n).lane n).taken = none := by
  rw [State.queueRestart_eq, State.lane_setCtl, State.lane_setCtl, State.lane_setCtl, State.laneFreed, State.lane_leaveRound,
    State.lane_putLane]

theorem State.round_queueRestart (s : State) (n : Nat) : ∀ k ∈ (s.queueRestart n).dev.round, k ≠ n := by
  rw [State.queueRestart_eq]
  intro k hk
  simpa using (List.mem_filter.mp hk).2

/-- RIDX of a ring in host memory rises past the packet that stopped its queue. -/
theorem State.ridx_queueRestart_host {s : State} {n : Nat} (ring : s.laneKind n = false) (host : s.ringHost n = true) :
    (s.queueRestart n).mem = s.mem ∧ (s.queueRestart n).hword (s.ringAddr n + 64) 8 = (s.ridx n + 1) % 2 ^ 64 := by
  have mem := s.memory_queueRestart n
  rw [State.ridxPassed, ring, if_neg Bool.false_ne_true, State.setRidx_host host] at mem
  refine ⟨congrArg Prod.fst mem, ?_⟩
  rw [State.hword_of_memory mem, State.hword_hstore]
  rfl

/-- So does that of a ring in the device's memory. -/
theorem State.ridx_queueRestart_device {s : State} {n : Nat} (small : n < 64) (ring : s.laneKind n = false)
    (device : s.ringHost n = false) (ok : s.ringOk n = true) :
    (s.queueRestart n).hostMem = s.hostMem ∧ (s.queueRestart n).pword (s.ringAddr n + 64) 8 = (s.ridx n + 1) % 2 ^ 64 := by
  have mem := s.memory_queueRestart n
  rw [State.ridxPassed, ring, if_neg Bool.false_ne_true, State.setRidx_device device ok] at mem
  refine ⟨congrArg Prod.snd mem, ?_⟩
  rw [State.pword, State.home_queueRestart small, State.word_of_memory mem, State.word_storeWord]
  rfl

/-! ### DEVICE_LAUNCH_QUEUE_TAKE (R119) -/

section

variable {s t : State} {n i : Nat} (live : s.laneLive n = true) (kind : s.laneKind n = true)
include live kind

theorem exec_deviceLaunchQueueTake_took (fresh : (s.lane n).taken = none)
    (took : (s.putLane n { s.lane n with addr := (s.dlqDesc (s.lanePart n)).toNat }).qTake (.lane n) noCore (s.laneAsid n)
      (s.dlqDesc (s.lanePart n)) Acc.queue = .took t i) :
    exec (.deviceLaunchQueueTake n) s = .next (t.putLane n { t.lane n with taken := some i, capf := none }) := by
  have at_ := congrArg Lane.taken (s.lane_putLane n { s.lane n with addr := (s.dlqDesc (s.lanePart n)).toNat })
  rw [exec_deviceLaunchQueueTake, execDeviceLaunchQueueTake]
  simp only [live, kind, Bool.not_true, Bool.or_self, Bool.false_eq_true, if_false]
  generalize s.putLane n { s.lane n with addr := (s.dlqDesc (s.lanePart n)).toNat } = u at took at_ ⊢
  simp only [at_, fresh, took]

theorem exec_deviceLaunchQueueTake_done {bs : List Byte} (taken : (s.lane n).taken = some i)
    (emptied : (s.putLane n { s.lane n with addr := (s.dlqDesc (s.lanePart n)).toNat }).qEmpty (.lane n) noCore (s.laneAsid n)
      (s.dlqDesc (s.lanePart n)) Acc.queue i = .done t bs) :
    ∃ slot, exec (.deviceLaunchQueueTake n) s =
      .next ((t.putLane n { t.lane n with taken := none, capf := none }).deviceLaunch n i slot bs) := by
  have at_ := congrArg Lane.taken (s.lane_putLane n { s.lane n with addr := (s.dlqDesc (s.lanePart n)).toNat })
  rw [exec_deviceLaunchQueueTake, execDeviceLaunchQueueTake]
  simp only [live, kind, Bool.not_true, Bool.or_self, Bool.false_eq_true, if_false]
  generalize s.putLane n { s.lane n with addr := (s.dlqDesc (s.lanePart n)).toNat } = u at emptied at_ ⊢
  simp only [at_, taken, emptied]
  exact ⟨_, rfl⟩

end

theorem State.deviceLaunch_made (s : State) (n i slot : Nat) (bs : List Byte) :
    ∃ id x, tfind (s.deviceLaunch n i slot bs).launches id = some x ∧
      x.words = (List.range 8).map (fun j => BitVec.ofNat 64 (pktNat bs (8 * j) 8)) ∧ x.priv = 0 ∧ x.queue = 64 ∧
      x.valid = false := by
  unfold State.deviceLaunch
  obtain ⟨id, made⟩ := State.newLaunch_made ..
  exact ⟨id, _, made, rfl, rfl, rfl, rfl⟩

/-! ### The Thresher as a whole -/

/-- Settles O50: a poll reads the slot that RIDX names, each packet's effect is the turn of the lane that heads the round,
and a restart touches its queue's registers and RIDX alone. -/
theorem hostQueues : Obligations.HostQueues := by
  refine ⟨fun s n live kind free closed host => ?host, fun s n live kind free closed device ok sound => ?device,
    fun s n live kind free closed device peer shut => ?peer, fun s n a i cnt pa rest live kind free opened sound home => ?buffer,
    fun s left => ?goesOn, fun s left => ?round, fun s n rest p next holds held => ?packets, fun s n small stopped => ?restart,
    fun s n t i live kind => ⟨fun fresh took => exec_deviceLaunchQueueTake_took live kind fresh took, fun bs taken emptied => ?take⟩⟩
  case host =>
    rw [exec_queuePoll_ring live kind free closed, State.pollRing_ok (by simp [State.ringOk, host]) (.inl host)]
    simp only [State.ringWord, State.ridx, State.slotAddr, host, if_true]
  case device =>
    rw [exec_queuePoll_ring live kind free closed, State.pollRing_ok ok (.inr sound)]
    simp only [State.ringWord, State.ridx, State.slotAddr, device, Bool.false_eq_true, if_false]
  case peer =>
    obtain ⟨stopped, code, mem⟩ := State.queueError_stops (s.putLane n { s.lane n with addr := s.ringAddr n }) n 5
    exact ⟨_, (exec_queuePoll_ring live kind free closed).trans (congrArg _ (State.pollRing_peer device peer shut)), stopped, code,
      congrArg Prod.fst mem, congrArg Prod.snd mem⟩
  case buffer =>
    exact ⟨_, (exec_queuePoll_buffer live kind free opened).trans (congrArg _ (State.pollBuffer_ok sound home)), rfl,
      State.lane_putLane ..⟩
  case goesOn =>
    rw [exec_thresherRound, execThresherRound]
    simp only [List.isEmpty_eq_false_iff.mpr left, Bool.not_false, if_true]
  case round =>
    intro ls good
    rw [exec_thresherRound, execThresherRound]
    have none_bad : ls.filter (fun n => pktBad (s.pktOf n)) = [] := List.filter_eq_nil_iff.mpr fun n hn => by simp [good n hn]
    have all_good : ls.filter (fun n => !pktBad (s.pktOf n)) = ls := List.filter_eq_self.mpr fun n hn => by simp [good n hn]
    simp only [left, none_bad, all_good, ls, List.isEmpty_nil, Bool.not_true, Bool.false_eq_true, if_false]
    rfl
  case packets =>
    intro s1 l ridx ib taken field typ size a asid intr made
    have taken1 : s1.packetTaken n = taken s1 := State.packetTaken_eq s1 n
    refine ⟨fun h => ?nop, fun h => ?launch, fun h few new => ⟨fun whole some_ small => ?open_, fun bad => ?bad⟩, fun h many => ?deep,
      fun h few again => ?again, fun h aligned sound x loaded => ?wait_, fun h aligned t stored => ?write, fun h => ?fence,
      fun h aligned t stored => ?stamp, fun h unaligned => ?unaligned, fun h => ?other⟩
    case nop => rw [← taken1]; exact (exec_nopPacket_next next holds held).trans (congrArg _ (if_pos h))
    case launch => exact exec_launch_next next holds held h
    case open_ =>
      have fresh : ¬ ∃ x ∈ l.ib, x.1 = a := fun ⟨x, hx, same⟩ => new x hx same
      have good : ¬ (a % 128 ≠ 0 ∨ field 0x18 8 = 0 ∨ 65536 < field 0x18 8) := by omega
      exact (exec_ibCall_next next holds held h).trans
        (congrArg _ ((if_neg few.not_ge).trans ((if_neg fresh).trans (if_neg good))))
    case bad =>
      have fresh : ¬ ∃ x ∈ l.ib, x.1 = a := fun ⟨x, hx, same⟩ => new x hx same
      exact (exec_ibCall_next next holds held h).trans
        (congrArg _ ((if_neg few.not_ge).trans ((if_neg fresh).trans (if_pos bad))))
    case deep => exact (exec_ibCall_next next holds held h).trans (congrArg _ (if_pos many))
    case again => exact (exec_ibCall_next next holds held h).trans (congrArg _ ((if_neg few.not_ge).trans (if_pos again)))
    case wait_ =>
      rw [← taken1]
      refine (exec_waitValue_next next holds held h aligned sound loaded).trans (congrArg _ ?_)
      simp only [waitCond_iff (Nat.mod_lt _ (by decide))]
      rfl
    case write =>
      exact (exec_writeValue_next next holds held h).trans (congrArg _ (State.packetWrite_ok aligned stored))
    case fence => rw [← taken1]; exact exec_fencePacket_next next holds held h
    case stamp =>
      exact (exec_timestamp_next next holds held h).trans (congrArg _ (State.packetWrite_ok aligned stored))
    case unaligned =>
      rcases h with h | h
      · rw [if_pos h]
        exact exec_waitValue_unaligned next holds held h unaligned
      · rw [if_neg (by omega)]
        exact (exec_writeValue_next next holds held h).trans (congrArg _ (State.packetWrite_unaligned unaligned))
    case other => exact (exec_nopPacket_next next holds held).trans (congrArg _ (if_neg h))
  case restart =>
    have runs : exec (.queueRestart n) s = .next (s.queueRestart n) := by
      rw [exec_queueRestart, execQueueRestart, stopped]
      simp [small.not_ge]
    refine ⟨_, runs, ?_, State.hqd_queueRestart s n 3, State.hqd_queueRestart s n 4, s.lane_queueRestart n, s.round_queueRestart n,
      fun device => ?_, fun ring host => ?_, fun ring device ok => ?_⟩
    · rw [State.hqd_queueRestart]
      exact getLsbD_setBit (s.hqd n 0) 59 59 false (by omega)
    · have mem := s.memory_queueRestart n
      rw [State.ridxPassed, if_pos device] at mem
      exact ⟨congrArg Prod.fst mem, congrArg Prod.snd mem⟩
    · exact State.ridx_queueRestart_host ring host
    · exact State.ridx_queueRestart_device small ring device ok
  case take =>
    obtain ⟨slot, runs⟩ := exec_deviceLaunchQueueTake_done live kind taken emptied
    obtain ⟨id, x, made, is⟩ := State.deviceLaunch_made (t.putLane n { t.lane n with taken := none, capf := none }) n i slot bs
    exact ⟨_, id, x, runs, made, is⟩

end Sys2Proof.Machine

/-! ## Rounding what a format holds (R127, R129, R130) -/

namespace Sys2Proof.Machine

/-! ### A value `m × 2^e` and its rounding in units of `2^e` (R129) -/

theorem scaled_eq (neg : Bool) (m : Nat) (e : Int) : scaled neg m e = .fin neg (m * 2 ^ e.toNat) (2 ^ (-e).toNat) := by
  unfold scaled
  split
  · next h => rw [Int.toNat_eq_zero.mpr (by omega : -e ≤ 0), pow_zero]
  · next h => rw [Int.toNat_eq_zero.mpr (by omega : e ≤ 0), pow_zero, mul_one]

theorem log2_mul_two_pow {m : Nat} (hm : m ≠ 0) (k : Nat) : (m * 2 ^ k).log2 = m.log2 + k := by
  obtain ⟨low, high⟩ := (Nat.log2_eq_iff hm).mp rfl
  rw [Nat.log2_eq_iff (by positivity), pow_add, add_right_comm, pow_add _ _ k]
  exact ⟨Nat.mul_le_mul_right _ low, Nat.mul_lt_mul_of_pos_right high (by positivity)⟩

theorem floorLog2_scaled {m : Nat} (hm : m ≠ 0) (e : Int) :
    floorLog2 (m * 2 ^ e.toNat) (2 ^ (-e).toNat) = m.log2 + e := by
  have low := ((Nat.log2_eq_iff hm).mp rfl).1
  have estimate : (((m * 2 ^ e.toNat).log2 : Int) - (2 ^ (-e).toNat : Nat).log2) = m.log2 + e := by
    rw [log2_mul_two_pow hm, Nat.log2_two_pow]
    omega
  unfold floorLog2
  rw [estimate]
  refine if_pos ?_
  split
  · next h =>
    have shift : (-e).toNat + (m.log2 + e).toNat = m.log2 + e.toNat := by omega
    rw [decide_eq_true_eq, ← pow_add, shift, pow_add]
    exact Nat.mul_le_mul_right _ low
  · next h =>
    have shift : (-e).toNat = m.log2 + (e.toNat + (-(m.log2 + e)).toNat) := by omega
    rw [decide_eq_true_eq, mul_assoc, ← pow_add, shift, pow_add]
    exact Nat.mul_le_mul_right _ low

theorem roundUp_exact (mode : Nat) (neg : Bool) (m : Nat) {den : Nat} (h : 0 < den) : roundUp mode neg m 0 den = false := by
  unfold roundUp
  split <;> simp [h.ne]

theorem roundAt_scaled (mode : Nat) (neg : Bool) (m : Nat) (e : Int) :
    roundAt mode neg (m * 2 ^ e.toNat) (2 ^ (-e).toNat) e = (m, false) := by
  have num : (if 0 ≤ e then m * 2 ^ e.toNat else m * 2 ^ e.toNat * 2 ^ (-e).toNat) = m * 2 ^ e.natAbs := by
    split
    · rw [show e.natAbs = e.toNat by omega]
    · rw [mul_assoc, ← pow_add, show e.natAbs = e.toNat + (-e).toNat by omega]
  have den : (if 0 ≤ e then 2 ^ (-e).toNat * 2 ^ e.toNat else 2 ^ (-e).toNat) = 2 ^ e.natAbs := by
    split
    · rw [← pow_add, show e.natAbs = (-e).toNat + e.toNat by omega]
    · rw [show e.natAbs = (-e).toNat by omega]
  unfold roundAt
  rw [num, den]
  simp only [Nat.mul_mod_left, Nat.mul_div_cancel m (Nat.two_pow_pos _), roundUp_exact _ _ _ (Nat.two_pow_pos _)]
  rfl

/-! ### The finite values of a format (R127) -/

/-- The significand of a finite encoding: its fraction, with the leading one of a normal value. -/
def FFmt.sig (t : FFmt) (x : Nat) : Nat := if t.expo x = 0 then t.frac x else 2 ^ t.fb + t.frac x
/-- The exponent of the last place of an encoding's value. -/
def FFmt.ulpExp (t : FFmt) (x : Nat) : Int := (max (t.expo x) 1 : Nat) - t.bias - t.fb

section

variable {t : FFmt} {x : Nat}

theorem FFmt.read_finite (nan : t.isNan x = false) (inf : t.isInf x = false) :
    t.read x = scaled (t.neg x) (t.sig x) (t.ulpExp x) := by
  unfold FFmt.read FFmt.sig FFmt.ulpExp
  rw [nan, inf]
  simp only [Bool.false_eq_true, if_false]
  split
  · next h => rw [h]; rfl
  · next h => rw [max_eq_left (Nat.one_le_iff_ne_zero.mpr h)]

theorem FFmt.frac_lt (t : FFmt) (x : Nat) : t.frac x < 2 ^ t.fb := Nat.mod_lt _ (Nat.two_pow_pos _)
theorem FFmt.expo_lt (t : FFmt) (x : Nat) : t.expo x < 2 ^ t.eb := Nat.mod_lt _ (Nat.two_pow_pos _)

theorem FFmt.sig_lt (t : FFmt) (x : Nat) : t.sig x < 2 ^ (t.fb + 1) := by
  have := t.frac_lt x
  unfold FFmt.sig
  split <;> omega

/-- Exponent and fraction fields, read as one number: the encoding without its sign. -/
theorem FFmt.mag_eq (t : FFmt) (x : Nat) : t.expo x * 2 ^ t.fb + t.frac x = x % 2 ^ (t.eb + t.fb) := by
  rw [FFmt.expo, FFmt.frac, add_comm t.eb, pow_add, Nat.mod_mul]
  ring

/-- The magnitude that a normal or subnormal value's exponent and significand encode. -/
theorem FFmt.mag_of_sig (t : FFmt) (x : Nat) : (max (t.expo x) 1 - 1) * 2 ^ t.fb + t.sig x = x % 2 ^ (t.eb + t.fb) := by
  rw [← t.mag_eq, FFmt.sig]
  split
  · next h => simp [h]
  · next h =>
    obtain ⟨e, he⟩ := Nat.exists_eq_succ_of_ne_zero h
    simp only [he, Nat.succ_eq_add_one, max_eq_left (Nat.le_add_left 1 e), Nat.add_sub_cancel]
    ring

theorem FFmt.signed_mag (hx : x < 2 ^ t.bits) : t.signed (t.neg x) (x % 2 ^ (t.eb + t.fb)) = x := by
  have split := Nat.div_add_mod x (2 ^ (t.eb + t.fb))
  have top : x / 2 ^ (t.eb + t.fb) < 2 := Nat.div_lt_of_lt_mul (by rwa [← pow_succ])
  rw [FFmt.signed, FFmt.neg, Nat.testBit_eq_decide_div_mod_eq, Nat.mod_eq_of_lt top]
  obtain h | h := Nat.le_one_iff_eq_zero_or_eq_one.mp (Nat.le_of_lt_succ top)
  · simpa [h] using split
  · rw [h, mul_one] at split
    rw [h, decide_eq_true (by rfl), if_pos rfl, add_comm, split]

/-- The place of a value's last bit: rounding is in units of it. -/
theorem FFmt.max_exponent_eq (h : t.sig x ≠ 0) :
    max ((t.sig x).log2 + t.ulpExp x) (1 - (t.bias : Int)) - t.fb = t.ulpExp x := by
  by_cases sub : t.expo x = 0
  · have small : (t.sig x).log2 < t.fb := by
      rw [Nat.log2_lt h, FFmt.sig, if_pos sub]
      exact t.frac_lt x
    simp only [FFmt.ulpExp, sub]
    omega
  · have lead : (t.sig x).log2 = t.fb := by
      rw [Nat.log2_eq_iff h]
      exact ⟨by rw [FFmt.sig, if_neg sub]; omega, t.sig_lt x⟩
    simp only [FFmt.ulpExp, lead]
    omega

end

/-! ### What lies beyond the greatest finite value (R130) -/

section

variable {t : FFmt} {x : Nat}

/-- In a format with infinities a finite exponent field is below the top one. -/
theorem FFmt.expo_finite (ieee : t.kind = 0) (nan : t.isNan x = false) (inf : t.isInf x = false) :
    t.expo x < 2 ^ t.eb - 1 := by
  have := t.expo_lt x
  simp only [FFmt.isNan, FFmt.isInf, ieee] at nan inf
  by_contra top
  have e : t.expo x = 2 ^ t.eb - 1 := by omega
  simp [e] at nan inf
  exact inf nan

theorem FFmt.mag_le_maxMag (nan : t.isNan x = false) (inf : t.isInf x = false) : x % 2 ^ (t.eb + t.fb) ≤ t.maxMag := by
  have hf := t.frac_lt x
  have he := t.expo_lt x
  have all : x % 2 ^ (t.eb + t.fb) < 2 ^ (t.eb + t.fb) := Nat.mod_lt _ (Nat.two_pow_pos _)
  unfold FFmt.maxMag
  split
  · next ieee =>
    have below := Nat.mul_le_mul_right (2 ^ t.fb) (Nat.succ_le_of_lt (FFmt.expo_finite ieee nan inf))
    rw [Nat.succ_mul] at below
    rw [← t.mag_eq]
    omega
  · next e4m3 =>
    -- all ones is the format's NaN
    have distinct : x % 2 ^ (t.eb + t.fb) ≠ 2 ^ (t.eb + t.fb) - 1 := by
      intro ones
      rw [← t.mag_eq, pow_add] at ones
      have top : t.expo x = 2 ^ t.eb - 1 := by
        by_contra low
        have := Nat.mul_le_mul_right (2 ^ t.fb) (by omega : t.expo x + 1 + 1 ≤ 2 ^ t.eb)
        rw [Nat.add_mul, Nat.add_mul] at this
        omega
      rw [top, Nat.sub_mul] at ones
      have := Nat.le_mul_of_pos_left (2 ^ t.fb) (Nat.two_pow_pos t.eb)
      have full : t.frac x = 2 ^ t.fb - 1 := by omega
      simp [FFmt.isNan, e4m3, top, full] at nan
    omega
  · omega

/-- The greatest finite value of a format with infinities: a significand of ones under the last exponent but one. -/
theorem FFmt.read_maxMag (ieee : t.kind = 0) (he : 2 ≤ t.eb) :
    t.read t.maxMag = scaled false (2 ^ (t.fb + 1) - 1) ((2 ^ t.eb - 2 : Nat) - t.bias - t.fb) := by
  have two : 2 ^ 2 ≤ 2 ^ t.eb := Nat.pow_le_pow_right (by decide) he
  have pos := Nat.two_pow_pos t.fb
  have max_eq : t.maxMag = (2 ^ t.fb - 1) + 2 ^ t.fb * (2 ^ t.eb - 2) := by
    simp only [FFmt.maxMag, ieee]
    rw [show 2 ^ t.eb - 1 = 2 ^ t.eb - 2 + 1 by omega, Nat.succ_mul, mul_comm]
    omega
  have frac : t.frac t.maxMag = 2 ^ t.fb - 1 := by
    rw [FFmt.frac, max_eq, Nat.add_mul_mod_self_left, Nat.mod_eq_of_lt (by omega)]
  have expo : t.expo t.maxMag = 2 ^ t.eb - 2 := by
    rw [FFmt.expo, max_eq, Nat.add_mul_div_left _ _ pos, Nat.div_eq_of_lt (by omega), zero_add, Nat.mod_eq_of_lt (by omega)]
  have neg : t.neg t.maxMag = false := by
    rw [FFmt.neg]
    refine Nat.testBit_lt_two_pow ?_
    have := Nat.mul_le_mul_left (2 ^ t.fb) (by omega : 2 ^ t.eb - 2 + 1 ≤ 2 ^ t.eb)
    rw [Nat.mul_succ] at this
    rw [max_eq, add_comm t.eb, pow_add]
    omega
  rw [FFmt.read_finite (by simp [FFmt.isNan, ieee, expo]; omega) (by simp [FFmt.isInf, ieee, expo]; omega), neg, FFmt.sig,
    FFmt.ulpExp, expo, frac, if_neg (by omega), max_eq_left (by omega)]
  congr 1
  rw [pow_succ]
  omega

theorem FFmt.exceeds_finite (ieee : t.kind = 0) (he : 2 ≤ t.eb) (nan : t.isNan x = false) (inf : t.isInf x = false) :
    t.exceeds (t.sig x * 2 ^ (t.ulpExp x).toNat) (2 ^ (-t.ulpExp x).toNat) = false := by
  have small := t.sig_lt x
  have two : 2 ^ 2 ≤ 2 ^ t.eb := Nat.pow_le_pow_right (by decide) he
  have below : t.ulpExp x ≤ (2 ^ t.eb - 2 : Nat) - t.bias - t.fb := by
    have := FFmt.expo_finite ieee nan inf
    simp only [FFmt.ulpExp]
    omega
  unfold FFmt.exceeds
  rw [FFmt.read_maxMag ieee he, scaled_eq]
  generalize ((2 ^ t.eb - 2 : Nat) : Int) - t.bias - t.fb = e at below
  rw [decide_eq_false_iff_not, not_lt, mul_assoc, mul_assoc, ← pow_add, ← pow_add]
  exact Nat.mul_le_mul (by omega) (Nat.pow_le_pow_right (by decide) (by omega))

theorem FFmt.beyond_finite (he : 2 ≤ t.eb) (nan : t.isNan x = false) (inf : t.isInf x = false) (sat : Bool) :
    t.beyond sat (t.sig x * 2 ^ (t.ulpExp x).toNat) (2 ^ (-t.ulpExp x).toNat) (x % 2 ^ (t.eb + t.fb)) = false := by
  unfold FFmt.beyond
  split
  · next h =>
    obtain ⟨-, ieee⟩ := (Bool.and_eq_true ..).mp h
    exact FFmt.exceeds_finite (by simpa using ieee) he nan inf
  · simpa using FFmt.mag_le_maxMag nan inf

theorem FFmt.round_zero (t : FFmt) (mode : Nat) (sat neg : Bool) (d : Nat) :
    t.round mode sat (.fin neg 0 d) = (t.signed neg 0, 0) := by
  unfold FFmt.round
  exact if_pos rfl

/-- A finite value of a format rounds to itself, without a flag. -/
theorem FFmt.round_read (he : 2 ≤ t.eb) (hx : x < 2 ^ t.bits) (nan : t.isNan x = false) (inf : t.isInf x = false)
    (mode : Nat) (sat : Bool) : t.round mode sat (t.read x) = (x, 0) := by
  rw [FFmt.read_finite nan inf, scaled_eq]
  by_cases zero : t.sig x = 0
  · have mag : x % 2 ^ (t.eb + t.fb) = 0 := by
      have expo : t.expo x = 0 := by
        by_contra normal
        rw [FFmt.sig, if_neg normal] at zero
        have := Nat.two_pow_pos t.fb
        omega
      simp [← t.mag_of_sig, zero, expo]
    rw [zero, zero_mul, FFmt.round_zero, ← mag, FFmt.signed_mag hx]
  · have nonzero : t.sig x * 2 ^ (t.ulpExp x).toNat ≠ 0 := by positivity
    have place := FFmt.max_exponent_eq zero
    have steps : (max ((t.sig x).log2 + t.ulpExp x) (1 - (t.bias : Int)) - (1 - (t.bias : Int))).toNat =
        max (t.expo x) 1 - 1 := by
      simp only [FFmt.ulpExp] at place ⊢
      omega
    simp only [FFmt.round, if_neg nonzero, floorLog2_scaled zero, place, steps, roundAt_scaled, t.mag_of_sig,
      FFmt.beyond_finite he nan inf, FFmt.signed_mag hx, Bool.false_and, Bool.false_eq_true, if_false, add_zero]

end

/-- Settles O8: in units of its own last place a finite value is an integer, so nothing is cut; and its magnitude is at most
the greatest one. -/
theorem roundingKeepsRepresentable : Obligations.RoundingKeepsRepresentable := by
  intro t ht mode sat x hx nan inf
  have wide : ∀ t ∈ [fmtF32, fmtBF16, fmtH16, fmtE5M2, fmtE4M3, fmtE2M1], 2 ≤ t.eb := by decide
  exact FFmt.round_read (wide t ht) hx nan inf mode sat

end Sys2Proof.Machine

/-! ## Segments and their residues (R140 to R142) -/

namespace Sys2Proof.Machine

theorem residue_cast {m : Nat} (hm : 0 < m) (v : Int) : (residue m v : Int) = v % m :=
  Int.toNat_of_nonneg (Int.emod_nonneg v (by omega))

/-- A channel's sum is the segment's, modulo the channel's modulus. -/
theorem chanSum_cast {m : Nat} (hm : 0 < m) (as bs : List Int) :
    (chanSum m as bs : Int) = (List.zipWith (· * ·) as bs).sum % m := by
  induction as generalizing bs with
  | nil => simp [chanSum]
  | cons a as ih =>
    cases bs with
    | nil => simp [chanSum]
    | cons b bs =>
      simp only [chanSum, Int.natCast_mod, Nat.cast_add, Nat.cast_mul, residue_cast hm, ih, List.zipWith_cons_cons, List.sum_cons]
      rw [Int.add_emod (a * b), Int.mul_emod a b, Int.emod_add_emod]

/-- The three residues of an integer give it back modulo 255 × 256 × 257. -/
theorem crt_residues (v : Int) {x y z : Nat} (hx : (x : Int) = v % 255) (hy : (y : Int) = v % 256) (hz : (z : Int) = v % 257) :
    (crt x y z : Int) = v % 16776960 := by
  unfold crt
  omega

/-- Settles O43: each channel's sum is the segment's modulo its modulus, and the three moduli are coprime. -/
theorem segmentsAreExact : Obligations.SegmentsAreExact := by
  intro as bs _ sum high low
  have recovered := crt_residues sum (chanSum_cast (by decide) as bs) (chanSum_cast (by decide) as bs)
    (chanSum_cast (by decide) as bs)
  unfold segX
  generalize crt (chanSum 255 as bs) (chanSum 256 as bs) (chanSum 257 as bs) = x at recovered
  dsimp only
  split <;> omega

end Sys2Proof.Machine

/-! ## Spilled words and their forms (R147) -/

namespace Sys2Proof.Machine

/-- Where a list holds a word for each lane, the lanes' words in order are that list. -/
theorem map_allLanes_eq {α : Type} {xs : List α} (h : xs.length = 32) {f : Nat → α}
    (hf : ∀ l (hl : l < xs.length), f l = xs[l]) : allLanes.map f = xs :=
  List.ext_getElem (by simp [allLanes, h]) fun l _ hl => by simpa [allLanes] using hf l hl

theorem unspill_zero (bs : List Byte) :
    unspill 0 bs = allLanes.map fun l => BitVec.ofNat 32 (leNat ((bs.drop (4 * l)).take 4)) := (rfl)
theorem unspill_one (bs : List Byte) : unspill 1 bs = allLanes.map fun l =>
    BitVec.ofNat 32 (leNat (bs.take 4)) + (bs.getD (4 + l) 0).signExtend 32 := (rfl)
theorem unspill_two (bs : List Byte) : unspill 2 bs = allLanes.map fun l =>
    BitVec.ofNat 32 (leNat (bs.take 4)) + (BitVec.ofNat 16 (leNat ((bs.drop (4 + 2 * l)).take 2))).signExtend 32 := (rfl)

/-- Of chunks of `n` bytes each the one of index `l`. -/
theorem take_drop_flatMap {α β : Type} {f : α → List β} {n : Nat} (hf : ∀ a, (f a).length = n) {xs : List α} {l : Nat}
    (hl : l < xs.length) (rest : List β) : ((xs.flatMap f ++ rest).drop (n * l)).take n = f xs[l] := by
  induction xs generalizing l with
  | nil => simp at hl
  | cons a xs ih =>
    rw [List.flatMap_cons, List.append_assoc]
    cases l with
    | zero => rw [Nat.mul_zero, List.drop_zero, List.take_left' (hf a)]; rfl
    | succ l =>
      rw [Nat.mul_succ, Nat.add_comm, ← List.drop_drop, List.drop_left' (hf a), ih (by simpa using hl)]
      rfl

theorem leNat_leBytes_toNat {w : Nat} (n : Nat) (hw : w = 8 * n) (x : BitVec w) :
    BitVec.ofNat w (leNat (leBytes n x.toNat)) = x := by
  have small : x.toNat < 256 ^ n := lt_of_lt_of_eq x.isLt (by simp [hw, pow_mul])
  rw [leNat_leBytes, Nat.mod_eq_of_lt small, BitVec.ofNat_toNat, BitVec.setWidth_eq]

/-- A difference that a form holds gives the word back. -/
theorem add_signExtend_diff {w : Nat} (hw : 0 < w) (base x : W32) (low : -2 ^ (w - 1) ≤ (x - base).toInt)
    (high : (x - base).toInt < 2 ^ (w - 1)) : base + (BitVec.ofInt w (x - base).toInt).signExtend 32 = x := by
  have diff : (BitVec.ofInt w (x - base).toInt).signExtend 32 = x - base := by
    rw [BitVec.signExtend, BitVec.toInt_ofInt_eq_self hw low high, BitVec.ofInt_toInt]
  rw [diff, BitVec.add_comm, BitVec.sub_add_cancel]

theorem length_flatMap_leBytes {α : Type} (n : Nat) (x : α → Nat) (as : List α) :
    (as.flatMap fun a => leBytes n (x a)).length = n * as.length := by
  simp [List.length_flatMap, Nat.mul_comm]

section

variable {xs : List W32}

theorem unspill_words (h : xs.length = 32) : unspill 0 (xs.flatMap fun x => leBytes 4 x.toNat) = xs := by
  rw [unspill_zero]
  refine map_allLanes_eq h fun l hl => ?_
  have chunk := take_drop_flatMap (f := fun x : W32 => leBytes 4 x.toNat) (fun _ => length_leBytes 4 _) hl []
  rw [List.append_nil] at chunk
  exact (congrArg (fun bs => BitVec.ofNat 32 (leNat bs)) chunk).trans (leNat_leBytes_toNat 4 rfl _)

/-- The base of a form with differences. -/
theorem unspill_base (base : W32) (rest : List Byte) :
    BitVec.ofNat 32 (leNat ((leBytes 4 base.toNat ++ rest).take 4)) = base := by
  rw [List.take_left' (length_leBytes ..), leNat_leBytes_toNat 4 rfl]

theorem unspill_bytes (h : xs.length = 32) (base : W32) (pad : List Byte)
    (fit : ∀ x ∈ xs, -128 ≤ (x - base).toInt ∧ (x - base).toInt ≤ 127) :
    unspill 1 (leBytes 4 base.toNat ++ ((xs.map fun x => (x - base).toInt).map (fun d => BitVec.ofInt 8 d) ++ pad)) = xs := by
  rw [unspill_one]
  refine map_allLanes_eq h fun l hl => ?_
  obtain ⟨low, high⟩ := fit _ (List.getElem_mem hl)
  have byte : (leBytes 4 base.toNat ++ ((xs.map fun x => (x - base).toInt).map (fun d => BitVec.ofInt 8 d) ++ pad)).getD
      (4 + l) 0 = BitVec.ofInt 8 (xs[l] - base).toInt := by
    rw [List.getD_append_right _ _ _ _ (by simp), length_leBytes, Nat.add_sub_cancel_left, List.getD_append _ _ _ _ (by simpa),
      List.getD_eq_getElem _ _ (by simpa)]
    simp
  rw [unspill_base, byte]
  exact add_signExtend_diff (by decide) _ _ low (by omega)

theorem unspill_halves (h : xs.length = 32) (base : W32) (pad : List Byte)
    (fit : ∀ x ∈ xs, -32768 ≤ (x - base).toInt ∧ (x - base).toInt ≤ 32767) :
    unspill 2 (leBytes 4 base.toNat ++
      ((xs.map fun x => (x - base).toInt).flatMap (fun d => leBytes 2 (BitVec.ofInt 16 d).toNat) ++ pad)) = xs := by
  rw [unspill_two]
  refine map_allLanes_eq h fun l hl => ?_
  obtain ⟨low, high⟩ := fit _ (List.getElem_mem hl)
  have chunk := take_drop_flatMap (f := fun d : Int => leBytes 2 (BitVec.ofInt 16 d).toNat) (fun _ => length_leBytes 2 _)
    (xs := xs.map fun x => (x - base).toInt) (l := l) (by simpa) pad
  rw [unspill_base, ← List.drop_drop, List.drop_left' (length_leBytes ..), chunk, leNat_leBytes_toNat 2 rfl, List.getElem_map]
  exact add_signExtend_diff (by decide) _ _ low (by omega)

end

/-- Settles O12: a form is chosen only where it holds every word's difference from the base, and no form drops a byte. -/
theorem spillRestores : Obligations.SpillRestores := by
  intro xs h
  dsimp only [spillForm]
  split
  · next fit =>
    refine ⟨?_, by simp [spillLen, h]⟩
    rw [List.append_assoc]
    exact unspill_bytes h _ _ (by simpa using fit)
  · split
    · next fit =>
      refine ⟨?_, by simp [spillLen, h, -List.length_flatMap, length_flatMap_leBytes]⟩
      rw [List.append_assoc]
      exact unspill_halves h _ _ (by simpa using fit)
    · exact ⟨unspill_words h, by simp [spillLen, h, -List.length_flatMap, length_flatMap_leBytes]⟩

end Sys2Proof.Machine

/-! ## Floating point (R131, R132, R156 to R160) -/

namespace Sys2Proof.Machine

/-! ### Instructions that raise flags -/

section

variable {i : Instr} {x : Form} {s : State} {g : Gid} {r : Group} {lvl : Nat} {k : State → Gid → Group → Res}

/-- The effect completes, and some lanes trap: the group is no handler group (R322). -/
theorem issue_ok_traps (h : Issues i x s g r) (own : r.inHandler = false) (hl : lvl ≤ s.levelOf g r) {s' : State} {r' : Group}
    {pre : Option (List WMatch)} {post : List WSrc} {ts : List TrapLane}
    (hk : k (s.countIssue g (s.useful r x.f)) g r = .ok s' r' pre post ts) (hp : pre = none ∨ pre = some [])
    (hs : s'.groups = s.groups) :
    issue lvl x.f x.shape s k = .next (s'.putGroup g { r' with wskip := false, traps := r'.traps ++ ts }) := by
  rw [issue_settle h hl k (by rw [hk]; exact Res.noConfusion), hk,
    State.settle_ok (State.unwatched_countIssue h.unwatched) _ _ _ _ _ _ _ _ _ hp (.inr own),
    State.keepHalt_same (by simpa [State.group?, hs] using h.group)]

/-- Raising flags writes rows of %fpx, and makes a trap of each lane that enables one of its flags. -/
theorem State.raiseFlags_eq (u s : State) (r : Group) (f : Fields) (sh : Shape) (r' : Group) (fl : Nat → Nat) :
    ∃ post, u.raiseFlags s r f sh r' fl = .ok
      { u with
        fpx := tsetMany 0 u.fpx (fpxWrites r (fun l => s.fpxOf r l ||| BitVec.ofNat 32 (fl l % 256)) (s.contrib r f)) }
      r' none post
      (((s.contrib r f).filter fun l => fl l &&& bitsOf (s.fpxOf r l) 23 16 ≠ 0).map fun l =>
        s.trapFrame r f sh l Code.fptrap 0 (BitVec.ofNat 32 (fl l))) := by
  have enabled : (fun l => fl l &&& bitsOf (s.fpxOf r l) 23 16 != 0) =
      fun l => decide (fl l &&& bitsOf (s.fpxOf r l) 23 16 ≠ 0) := by
    funext l
    rw [Bool.eq_iff_iff, bne_iff_ne, decide_eq_true_eq]
  refine ⟨?post, ?raised⟩
  case raised => rw [State.raiseFlags, State.foldl_setFpx_eq, enabled]

/-- An instruction that raises flags: what it does follows from what its registers hold when it does. -/
theorem DoesWithFlags.of_raise {e : Effect} {fl : Nat → Nat} (hf : i.form = some x)
    (he : exec i s = issue lvl x.f x.shape s k) (hl : lvl ≤ needsLevel i) {u : Gid → Bool → State}
    (hk : ∀ g b, k (s.countIssue g b) g r = (u g b).raiseFlags (s.countIssue g b) r x.f x.shape e.after fl)
    (rest : ∀ g b, u g b = { s.countIssue g b with vreg := (u g b).vreg, preg := (u g b).preg, greg := (u g b).greg })
    (hv : ∀ g b, VWritten s (u g b) r e.ls e.v) (hp : ∀ g b, PWritten s (u g b) r e.ls e.p)
    (hg : ∀ g b, GWritten s (u g b) r e.g) : DoesWithFlags i s r e fl := by
  intro x' g h own
  obtain rfl := h.form_eq hf
  let b := s.useful r x'.f
  obtain ⟨post, raised⟩ := State.raiseFlags_eq (u g b) (s.countIssue g b) r x'.f x'.shape e.after fl
  have unflagged : (u g b).fpx = s.fpx := by
    rw [rest]
    rfl
  rw [unflagged] at raised
  refine ⟨_, he.trans (issue_ok_traps h own (hl.trans h.level) ((hk g b).trans raised) (.inl rfl) (by rw [rest]; rfl)),
    ?rest, hv g b, hp g b, hg g b, fun l hl' hh => ?own, fun n hn => ?others⟩
  case rest =>
    conv_lhs => rw [rest]
    rfl
  case own =>
    exact tget_tsetMany_mem _ (fpxWrites_nodup ((State.activeLanes_nodup ..).filter _) fun _ hm =>
      State.activeLanes_lt (List.mem_of_mem_filter hm)) (mem_fpxWrites.mpr ⟨l, hl', hh, rfl⟩)
  case others =>
    refine tget_tsetMany_ne _ fun e he' => ?_
    obtain ⟨l, hl', hh, rfl⟩ := mem_fpxWrites.mp he'
    exact hn l hl' hh

/-- An instruction that writes V registers of the Active lanes and raises flags. -/
theorem DoesWithFlags.writesV {r' : Group} {ls : List Nat} {ws : Nat → List (Nat × W32)} {fl : Nat → Nat}
    (hf : i.form = some x)
    (he : exec i s = issue lvl x.f x.shape s k) (hl : lvl ≤ needsLevel i)
    (hk : ∀ g b, k (s.countIssue g b) g r =
      ((s.countIssue g b).writeV r ls ws).raiseFlags (s.countIssue g b) r x.f x.shape r' fl)
    (hd : ls.Nodup) (hn : ∀ l ∈ ls, l < 32) (hw : ∀ l ∈ ls, ((ws l).map Prod.fst).Nodup) :
    DoesWithFlags i s r { after := r', ls := ls, v := ws } fl := by
  refine .of_raise hf he hl hk (fun g b => ?_) (fun g b => State.writeV_written s r hd hn hw
    (by rw [State.writeV_eq, State.writeV_eq]; rfl)) (fun g b => .none ?_) fun g b => .none ?_
  all_goals rw [State.writeV_eq]
  all_goals rfl

/-- An instruction that writes one P register of the Active lanes and raises flags. -/
theorem DoesWithFlags.writesP {r' : Group} {ls : List Nat} {n : Nat} {bs : Nat → Bool} {fl : Nat → Nat} (hf : i.form = some x)
    (he : exec i s = issue lvl x.f x.shape s k) (hl : lvl ≤ needsLevel i)
    (hk : ∀ g b, k (s.countIssue g b) g r =
      ((s.countIssue g b).writeP r ls n bs).raiseFlags (s.countIssue g b) r x.f x.shape r' fl)
    (hd : ls.Nodup) (hn : ∀ l ∈ ls, l < 32) :
    DoesWithFlags i s r { after := r', ls := ls, p := fun l => [(n, bs l)] } fl := by
  refine .of_raise hf he hl hk (fun g b => ?_) (fun g b => .none ?_) (fun g b => State.writeP_written s r hd hn
    (State.writeP_preg (s := s.countIssue g b) (t := s) rfl ..)) fun g b => .none ?_
  · rw [State.writeP_eq]
  · rw [State.writeP_eq]; rfl
  · rw [State.writeP_eq]; rfl

/-- An instruction whose lanes each give D one register's result and raise flags. -/
theorem DoesWithFlags.floatOp {op : Nat} {f : Fields} {sh : Shape} {res : State → Group → Nat → W32 × Nat}
    {y : Nat → W32 × Nat} (hf : i.form = some ⟨false, op, f, sh⟩) (he : exec i s = floatOp f sh s res)
    (hy : ∀ g b l, res (s.countIssue g b) r l = y l) :
    DoesWithFlags i s r { after := r.next f, ls := s.activeLanes r f, v := fun l => [(f.d.toNat, (y l).1)] }
      fun l => (y l).2 := by
  refine .writesV hf he (Nat.zero_le _) (fun g b => ?_) (State.activeLanes_nodup ..) (fun _ => State.activeLanes_lt) fun _ _ =>
    List.nodup_singleton _
  simp only [hy]
  rfl

end

/-! ### Comparison and the packed halves (R159, R160) -/

/-- FCMP's conditions by number, and its flags: an ordered comparison of a NaN, or a signalling one. -/
theorem fcond_eq (c : Nat) (a b : Num) : fcond c a b =
    let un := a.isNan || b.isNan
    let k := Num.cmp a b
    (if c = 0 then !un && k == 0 else if c = 1 then un || k != 0 else if c = 2 then !un && decide (k < 0)
      else if c = 3 then !un && decide (k ≤ 0) else if c = 4 then !un && decide (k > 0) else if c = 5 then !un && decide (k ≥ 0)
      else if c = 6 then un else !un,
     if 2 ≤ c ∧ c ≤ 5 then (if un then 1 else 0) else if a.isSig || b.isSig then 1 else 0) := by
  have sig : sigFlag [a, b] = if a.isSig || b.isSig then 1 else 0 := by simp [sigFlag, Flag.iv]
  unfold fcond
  rw [sig]
  refine Prod.ext ?_ (by simp [Flag.iv])
  match c with
  | 0 | 2 | 3 | 4 | 5 | 6 => rfl
  | 1 =>
    have differ : decide (Num.cmp a b ≠ 0) = (Num.cmp a b != 0) := by rw [Bool.eq_iff_iff, decide_eq_true_eq, bne_iff_ne]
    exact congrArg (_ || ·) differ
  | n + 7 => simp

/-- The upper half of a register, as its other half is read. -/
theorem upper_half (x : W32) : x.toNat / 65536 ^ 1 % 65536 = x.toNat / 65536 := by
  have := x.isLt
  omega

theorem lower_half (x : W32) : x.toNat / 65536 ^ 0 % 65536 = x.toNat % 65536 := by
  rw [pow_zero, Nat.div_one]

theorem Claims.floatArithmetic : Claims.FloatArithmetic := by
  intro f s r rm A B C is
  have rounds {i : Instr} {op : Nat} {sh : Shape} {exact : State → Group → Nat → Num × Nat} {y : Nat → Num × Nat}
      (hf : i.form = some ⟨false, op, f, sh⟩)
      (he : exec i s = floatOp f sh s fun s r l => toF32 (Fields.rm f) (exact s r l))
      (hy : ∀ g b l, exact (s.countIssue g b) r l = y l) : is i y :=
    .floatOp (y := fun l => toF32 (Fields.rm f) (y l)) hf he fun g b l => congrArg (toF32 _) (hy g b l)
  exact ⟨rounds rfl (exec_fadd f s) fun _ _ _ => rfl, rounds rfl (exec_fsub f s) fun _ _ _ => rfl,
    rounds rfl (exec_fmul f s) fun _ _ _ => rfl, rounds rfl (exec_ffma f s) fun _ _ _ => rfl,
    rounds rfl (exec_fdiv f s) fun _ _ _ => rfl, rounds rfl (exec_fsqrt f s) fun _ _ _ => rfl,
    rounds rfl (exec_frcp f s) fun _ _ _ => rfl, rounds rfl (exec_frsq f s) fun _ _ _ => rfl,
    rounds rfl (exec_fexp2 f s) fun _ _ _ => rfl, rounds rfl (exec_flog2 f s) fun _ _ _ => rfl⟩

theorem Claims.floatCompareAndPacked : Claims.FloatCompareAndPacked := by
  intro f s r ls is
  have does {i : Instr} {op : Nat} {sh : Shape} {res : State → Group → Nat → W32 × Nat} {y : Nat → W32 × Nat}
      (hf : i.form = some ⟨false, op, f, sh⟩) (he : exec i s = floatOp f sh s res)
      (hy : ∀ g b l, res (s.countIssue g b) r l = y l) : is i y := .floatOp hf he hy
  refine ⟨does rfl (exec_fmin f s) fun _ _ _ => rfl, does rfl (exec_fmax f s) fun _ _ _ => rfl,
    does rfl (exec_frnd f s) fun _ _ _ => rfl, does rfl (exec_fclass f s) fun _ _ _ => rfl,
    does rfl (exec_pfma f s) fun g b l => ?pfma, ?fcmp⟩
  case pfma =>
    simp only [upper_half, lower_half]
    rfl
  case fcmp =>
    refine .writesP rfl (exec_fcmp f s) (Nat.zero_le _) (fun g b => ?_) (State.activeLanes_nodup ..) fun _ => State.activeLanes_lt
    simp only [fcond_eq]
    rfl

/-- Settles O5: one register's result in each Active lane with the flags of its rounding, and FCMP's in a P register. -/
theorem floatInstructions : Obligations.FloatInstructions := ⟨Claims.floatArithmetic, Claims.floatCompareAndPacked⟩

end Sys2Proof.Machine

/-! ## Scale groups and spill frames (R147, R226, R229, R230) -/

namespace Sys2Proof.Machine

/-! ### What reads of units leave (R213, R223, R296) -/

namespace ReadsOnly

theorem translatedAll (core : Nat) (s : State) (asid : Nat) (vas : List Nat) :
    ReadsOnly core s (s.translatedAll core asid vas) := foldl (fun _ _ => translated core _ _ _) _ _

theorem readHome (core : Nat) (s : State) (pas : List Nat) : ReadsOnly core s (s.readHome core pas) :=
  foldl (fun _ _ => putCore core _ rfl) _ _

theorem loadUnits (s : State) (g : Gid) (r : Group) (us : List (LChk × Nat × Nat)) :
    ReadsOnly g.core s (s.loadUnits g r us).2 := by
  induction us generalizing s with
  | nil => exact refl _ s
  | cons u us ih => exact (loadUnit s g r u.2.2 u.1).trans (ih _)

end ReadsOnly

/-! ### Units whose checks pass (R226) -/

/-- Every unit's checks pass, and no range of it is locked. -/
structure State.UnitsClear (s : State) (g : Gid) (r : Group) (us : List (LChk × Nat × Nat)) : Prop where
  sound : ∀ u ∈ us, u.1.fault? = none
  unlocked : ∀ u ∈ us, s.locked g.core (s.asidOf g r) u.2.1 u.2.2 = false

/-- Whether an access is of a peer's memory. -/
def LChk.onPeer : LChk → Bool
  | .ok pa => isPeer pa
  | _ => false

/-- Whether a unit meets an entry of the group's outbox. -/
def Group.meets (r : Group) (u : LChk × Nat × Nat) : Bool :=
  match u.1.space with
  | some (sp, x) => r.outbox.any fun e => e.overlaps sp x u.2.2
  | none => false

section

variable {s : State} {g : Gid} {r : Group} {f : Fields} {acc : Nat} {write : Bool} {l : Nat}

/-- The check of a lane's scale group, and its units (R229). -/
def State.groupChk (s : State) (g : Gid) (r : Group) (f : Fields) (acc : Nat) (write : Bool) (l : Nat) :
    LChk × List (LChk × Nat × Nat) :=
  s.chkBlk r g.core (s.asidOf g r) (s.src64 r false f.ka f.a l) (s.src64 r false f.kb f.b l) f.gb acc write

theorem State.groupChk_countIssue (b : Bool) : (s.countIssue g b).groupChk g r f acc write = s.groupChk g r f acc write := by
  funext l
  rw [State.groupChk, State.chkBlk_countIssue]
  rfl

/-- A scale group fails where one of its units does. -/
theorem State.fault?_groupChk (h : ∀ u ∈ (s.groupChk g r f acc write l).2, u.1.fault? = none) :
    (s.groupChk g r f acc write l).1.fault? = none := by
  unfold State.groupChk State.chkBlk at h ⊢
  dsimp only at h ⊢
  split at h
  · next u worst => simpa using h u (mem_of_worstUnit worst)
  · next worst =>
    obtain ⟨u, us, eq⟩ := List.exists_cons_of_ne_nil (l := blkUnits (s.src64 r false f.ka f.a l) (s.src64 r false f.kb f.b l) f.gb)
      (by simp [blkUnits])
    rw [eq] at h ⊢
    exact h _ List.mem_cons_self

/-- A lane's scale group is read: its units are clear, in this device's memory, and meet no older store. -/
structure State.GroupLoads (s : State) (g : Gid) (r : Group) (f : Fields) (l : Nat) : Prop where
  own : r.hlp.getLsbD l = false
  clear : s.UnitsClear g r (s.groupChk g r f Acc.load false l).2
  near : ∀ u ∈ (s.groupChk g r f Acc.load false l).2, u.1.onPeer = false
  apart : ∀ u ∈ (s.groupChk g r f Acc.load false l).2, r.meets u = false

/-- The registers that LDB writes in a lane: the words of its group, the last of one byte, its scale (R229). -/
def State.groupWrites (s : State) (g : Gid) (r : Group) (f : Fields) (l : Nat) : List (Nat × W32) :=
  pieces f.d.toNat ((List.range (f.gb / 4 + 1)).map fun i => BitVec.ofNat 32 (leNat
    ((((s.groupChk g r f Acc.load false l).2.flatMap fun u => s.homeUnit (dieOf g.core) u).drop (4 * i)).take
      (if i = f.gb / 4 then 1 else 4))))

theorem State.GroupLoads.countIssue (h : s.GroupLoads g r f l) (b : Bool) : (s.countIssue g b).GroupLoads g r f l := by
  obtain ⟨own, ⟨sound, unlocked⟩, near, apart⟩ := h
  refine ⟨own, ⟨?_, ?_⟩, ?_, ?_⟩
  all_goals rwa [State.groupChk_countIssue]

theorem State.groupWrites_countIssue (b : Bool) : (s.countIssue g b).groupWrites g r f = s.groupWrites g r f := by
  funext l
  rw [State.groupWrites, State.groupChk_countIssue]
  rfl

/-- The locked ranges of clear units hold no lane back, and no lane traps. -/
theorem State.gate_clear {ls : List Nat} (unwatched : s.unwatched g.core)
    (clear : ∀ l ∈ ls, s.UnitsClear g r (s.groupChk g r f acc write l).2) (sh : Shape)
    (addr : Nat → W64) (srcs : List WSrc) :
    s.gate g r f sh ls (fun l => (s.groupChk g r f acc write l).1) addr
      (fun l => (s.groupChk g r f acc write l).2.any fun u => s.locked g.core (s.asidOf g r) u.2.1 u.2.2) srcs =
      .go [] ls [] := by
  have unlocked {l : Nat} (hl : l ∈ ls) : ((s.groupChk g r f acc write l).2.any fun u =>
      s.locked g.core (s.asidOf g r) u.2.1 u.2.2) = false :=
    List.any_eq_false.mpr fun u hu => by simp [(clear l hl).unlocked u hu]
  obtain ⟨ts, gate, frames⟩ := State.gate_go unwatched r f sh
    (fun l hl => State.fault?_groupChk (clear l hl).sound) addr (fun l => (s.groupChk g r f acc write l).2.any fun u =>
      s.locked g.core (s.asidOf g r) u.2.1 u.2.2) srcs
  have all :
      (ls.filter fun l => !(s.groupChk g r f acc write l).2.any fun u => s.locked g.core (s.asidOf g r) u.2.1 u.2.2) = ls :=
    List.filter_eq_self.mpr fun l hl => by rw [unlocked hl]; rfl
  have none_ :
      (ls.filter fun l => (s.groupChk g r f acc write l).2.any fun u => s.locked g.core (s.asidOf g r) u.2.1 u.2.2) = [] :=
    List.filter_eq_nil_iff.mpr fun l hl => by rw [unlocked hl]; exact Bool.false_ne_true
  rw [none_, List.map_nil, List.map_eq_nil_iff] at frames
  rw [gate, all, frames]

end

/-- What LDB does in the state it runs in: its Active lanes write their groups' registers, and only reads happen. -/
theorem ldb_loads (f : Fields) (s : State) : ∃ k, execLdb f s = issue 0 f (shapeLdb f) s k ∧
    ∀ (t : State) (g : Gid) (r : Group), t.unwatched g.core → t.untraced g r →
      (∀ l ∈ t.activeLanes r f, t.GroupLoads g r f l) →
      ∃ u post, k t g r = .ok (u.writeV r (t.activeLanes r f) (t.groupWrites g r f)) (r.next f) (some []) post [] ∧
        ReadsOnly g.core t u := by
  refine ⟨_, rfl, fun t g r unwatched untraced lanes => ?_⟩
  have own : t.contrib r f = t.activeLanes r f :=
    List.filter_eq_self.mpr fun l hl => by simp [(lanes l hl).own]
  have helpers : ((t.activeLanes r f).filter fun l => r.hlp.getLsbD l) = [] :=
    List.filter_eq_nil_iff.mpr fun l hl => by simp [(lanes l hl).own]
  have apart : ((t.activeLanes r f).any fun l => (t.groupChk g r f Acc.load false l).2.any r.meets) = false :=
    List.any_eq_false.mpr fun l hl => by simpa using (lanes l hl).apart
  have near : ((t.activeLanes r f).any fun l => (t.groupChk g r f Acc.load false l).2.any fun u => u.1.onPeer) = false :=
    List.any_eq_false.mpr fun l hl => by simpa using (lanes l hl).near
  have gate := State.gate_clear unwatched (fun l hl => (lanes l hl).clear) (shapeLdb f)
    (fun l => t.src64 r false f.ka f.a l) [{ src := 0, lanes := t.activeLanes r f, x := fun l => t.src64 r false f.ka f.a l }]
  refine ⟨?u, ?post, ?runs, ?reads⟩
  case runs =>
    refine (if_neg fun met => Bool.false_ne_true (apart.symm.trans met)).trans ?_
    simp only [State.groupChk] at gate
    simp only [own, helpers, gate, List.filter_nil, List.append_nil]
    refine (if_neg fun met => Bool.false_ne_true (near.symm.trans met)).trans ?_
    rw [State.writeV_congr _ _ (ws' := t.groupWrites g r f) fun l hl => by
      simp only [List.contains_iff_mem.mpr hl, Bool.true_or, if_true]
      rfl]
  case reads =>
    rw [State.trace_untraced]
    · exact (ReadsOnly.translatedAll g.core t _ _).trans (.readHome g.core _ _)
    · exact (Looked.translatedAll t g.core _ _).trans (ReadsOnly.readHome g.core _ _).looked |>.untraced untraced

/-! ### Cells of units that follow one another -/

theorem flatMap_eq_cutCells_drop (l : Nat) {us : List (LChk × Nat × Nat)} {off : Nat → Nat} {c : Nat} {bs : List Byte}
    {cells : Nat → List (Space × Nat × Nat × Byte × Nat)}
    (h : ∀ i < us.length, off i = c + ((us.take i).map (·.2.2)).sum)
    (hc : ∀ i (hi : i < us.length), cells i = laneCells l us[i].1 us[i].2.1 ((bs.drop (off i)).take us[i].2.2)) :
    (List.range us.length).flatMap cells = cutCells l us (bs.drop c) := by
  induction us generalizing off c cells with
  | nil => rfl
  | cons u us ih =>
    have first : cells 0 = laneCells l u.1 u.2.1 ((bs.drop c).take u.2.2) := by
      rw [hc 0 (by simp), h 0 (by simp)]
      rfl
    have later : ∀ i < us.length, off (i + 1) = c + u.2.2 + ((us.take i).map (·.2.2)).sum := fun i hi => by
      rw [h (i + 1) (by simpa using hi), List.take_succ_cons, List.map_cons, List.sum_cons, Nat.add_assoc]
    rw [List.length_cons, List.range_succ_eq_map, List.flatMap_cons, List.flatMap_map, cutCells, List.drop_drop, first,
      ih later fun i hi => hc (i + 1) (by simpa using hi)]

/-- The cells of a lane's units, each with the bytes at its own offset, are the bytes cut unit by unit. -/
theorem flatMap_eq_cutCells (l : Nat) {us : List (LChk × Nat × Nat)} {off : Nat → Nat} {bs : List Byte}
    {cells : Nat → List (Space × Nat × Nat × Byte × Nat)} (h : ∀ i < us.length, off i = ((us.take i).map (·.2.2)).sum)
    (hc : ∀ i (hi : i < us.length), cells i = laneCells l us[i].1 us[i].2.1 ((bs.drop (off i)).take us[i].2.2)) :
    (List.range us.length).flatMap cells = cutCells l us bs :=
  flatMap_eq_cutCells_drop l (c := 0) (fun i hi => by rw [h i hi, Nat.zero_add]) hc

theorem mem_laneCells {l a : Nat} {k : LChk} {bs : List Byte} {c : Space × Nat × Nat × Byte × Nat}
    (h : c ∈ laneCells l k a bs) : ∃ i < bs.length, c.2.2.1 = a + i := by
  unfold laneCells at h
  split at h
  · nomatch h
  · obtain ⟨i, hi, rfl⟩ := List.mem_map.mp h
    exact ⟨i, List.mem_range.mp hi, rfl⟩

theorem mem_cutCells {l : Nat} {us : List (LChk × Nat × Nat)} {bs : List Byte} {c : Space × Nat × Nat × Byte × Nat}
    (h : c ∈ cutCells l us bs) : ∃ u ∈ us, ∃ i < u.2.2, c.2.2.1 = u.2.1 + i := by
  induction us generalizing bs with
  | nil => nomatch h
  | cons u us ih =>
    rcases List.mem_append.mp h with first | rest
    · obtain ⟨i, hi, place⟩ := mem_laneCells first
      exact ⟨u, List.mem_cons_self, i, lt_of_lt_of_le hi (List.length_take_le _ _), place⟩
    · obtain ⟨v, hv, cell⟩ := ih rest
      exact ⟨v, List.mem_cons_of_mem _ hv, cell⟩

/-! ### STB (R229) -/

/-- The outbox entry of one lane's cells: of a peer's memory where all of them are. -/
def entryOf (pc : BitVec 48) (cs : List (Space × Nat × Nat × Byte × Nat)) : Ent :=
  { space := if cs.all fun c => c.1 == .peer then .peer else .global
    cells := cs.map fun c => (c.2.1, c.2.2.2.1), vas := cs.map fun c => c.2.2.1, lanes := cs.map fun c => c.2.2.2.2, pc := pc }

/-- What STB stores in a lane: the group's words and the low byte of the register after them, its scale (R229). -/
def State.groupData (s : State) (r : Group) (f : Fields) (l : Nat) : List Byte :=
  (List.range (f.gb / 4)).flatMap (fun i => leBytes 4 (s.v r (f.c.toNat + i) l).toNat) ++
    leBytes 1 (s.v r (f.c.toNat + f.gb / 4) l).toNat

/-- The entry that STB adds for a lane. -/
def State.groupEntry (s : State) (g : Gid) (r : Group) (f : Fields) (l : Nat) : Ent :=
  entryOf r.pc (cutCells l (s.groupChk g r f Acc.store true l).2 (s.groupData r f l))

theorem State.groupEntry_countIssue (s : State) (g : Gid) (r : Group) (f : Fields) (b : Bool) :
    (s.countIssue g b).groupEntry g r f = s.groupEntry g r f := by
  funext l
  rw [State.groupEntry, State.groupChk_countIssue]
  rfl

/-- What STB does in the state it runs in: its lanes' entries join the outbox, and only reads happen. -/
theorem stb_stores (f : Fields) (s : State) : ∃ k, execStb f s = issue 0 f (shapeStb f) s k ∧
    ∀ (t : State) (g : Gid) (r : Group), t.unwatched g.core → t.untraced g r →
      (∀ l ∈ t.contrib r f, t.UnitsClear g r (t.groupChk g r f Acc.store true l).2) →
      ∃ u, k t g r = .ok u { r.next f with outbox := r.outbox ++ (t.contrib r f).map (t.groupEntry g r f) } (some []) [] [] ∧
        ReadsOnly g.core t u := by
  refine ⟨_, rfl, fun t g r unwatched untraced lanes => ?_⟩
  have gate := State.gate_clear unwatched lanes (shapeStb f) (fun l => t.src64 r false f.ka f.a l)
    [{ src := 1, lanes := t.contrib r f, x := fun l => t.src64 r false f.ka f.a l },
     { src := 3, lanes := t.contrib r f, x := fun l => BitVec.ofNat 64 (leNat ((t.groupData r f l).take 8)) }]
  refine ⟨?u, ?runs, ?reads⟩
  case runs =>
    simp only [State.groupChk, State.groupData] at gate
    simp only [gate]
    refine congrArg (fun e => Res.ok _ { r.next f with outbox := r.outbox ++ (t.contrib r f).map e } (some []) [] [])
      (funext fun l => congrArg (entryOf r.pc) (flatMap_eq_cutCells l (us := (t.groupChk g r f Acc.store true l).2)
        (bs := t.groupData r f l) (off := fun i => ((List.range (t.groupChk g r f Acc.store true l).2.length).map fun i =>
          (((t.groupChk g r f Acc.store true l).2.take i).map (·.2.2)).sum).getD i 0)
        (fun i hi => by simp [hi]) fun i hi => ?_))
    simp only [State.groupChk, State.groupData] at hi ⊢
    rw [List.getElem?_eq_getElem hi]
  case reads =>
    rw [State.trace_untraced ((Looked.translatedAll t g.core _ _).untraced untraced)]
    exact .translatedAll g.core t _ _

/-! ### Spill frames (R147, R230) -/

section

variable {s : State} {g : Gid} {r : Group} {f : Fields} {frame a : W64} {us : List (LChk × Nat × Nat)}
  {n acc : Nat} {write : Bool}

theorem State.frameUnits_countIssue (b : Bool) :
    (s.countIssue g b).frameUnits g r f a n acc write = s.frameUnits g r f a n acc write := by
  unfold State.frameUnits State.chkUnit
  simp only [State.chkGlobal_countIssue, State.asidOf_countIssue, State.chkScratch_countIssue]

/-- A frame's checks pass, and no copy or drain holds its scratch back (R218, R226). -/
structure State.FrameFits (s : State) (us : List (LChk × Nat × Nat)) : Prop where
  sound : ∀ u ∈ us, u.1.fault? = none
  free : ∀ u ∈ us, s.storeBlocked u.2.2 u.1 = false

theorem State.FrameFits.frameFault_eq (h : s.FrameFits us) (aligned : frame.toNat % 4096 = 0) :
    s.frameFault frame us acc = none := by
  have sound : ((worstUnit us).bind fun u => u.1.fault?) = none := by
    cases worst : worstUnit us with
    | none => rfl
    | some u => exact h.sound u (mem_of_worstUnit worst)
  have free : (us.any fun u => s.storeBlocked u.2.2 u.1) = false :=
    List.any_eq_false.mpr fun u hu => by simp [h.free u hu]
  simp [State.frameFault, aligned, sound, free]

theorem State.frameGate_go (unwatched : s.unwatched g.core) (unlocked : s.frameLocked g r f frame = false) (sh : Shape) :
    s.frameGate g r f sh frame us acc = .go [] allLanes [] := by
  have quiet : (if r.wskip then [] else s.watchMatches g r [pcSrc r]) = [] := by
    rw [s.watchMatches_unwatched _ _ _ unwatched, ite_self]
  simp [State.frameGate, quiet, unlocked]

/-- The units of a spilled register's bytes: 16 bytes each, within the `n` bytes from `a`. -/
theorem State.mem_frameUnits (hn : 16 ≤ n) {u : LChk × Nat × Nat} (h : u ∈ s.frameUnits g r f a n acc write) :
    ∃ i < n / 16, u.2.1 ≤ a.toNat + 16 * i ∧ u.2.2 = 16 := by
  rw [State.frameUnits, if_neg (by omega)] at h
  obtain ⟨i, hi, rfl⟩ := List.mem_map.mp h
  refine ⟨i, List.mem_range.mp hi, ?_, rfl⟩
  simp only [BitVec.toNat_add, BitVec.toNat_ofNat]
  omega

theorem State.sum_frameUnits {i : Nat} (hi : i < (s.frameUnits g r f a n acc write).length) :
    16 * i = (((s.frameUnits g r f a n acc write).take i).map (·.2.2)).sum := by
  unfold State.frameUnits at hi ⊢
  dsimp only at hi ⊢
  split
  · next small =>
    rw [if_pos small, List.length_singleton, Nat.lt_one_iff] at hi
    simp [hi]
  · next large =>
    rw [if_neg large, List.length_map, List.length_range] at hi
    rw [List.map_take, List.map_map]
    change 16 * i = (((List.range (n / 16)).map fun _ => 16).take i).sum
    simp [Nat.min_eq_left hi.le, Nat.mul_comm]

end

/-! ### SPILL and FILL (R147, R230) -/

section

variable {s : State} {g : Gid} {r : Group} {f : Fields}

/-- The form in which SPILL saves a register (R147). -/
def State.spilled (s : State) (r : Group) (f : Fields) : Nat × List Byte := spillForm (allLanes.map fun l => s.v r f.c.toNat l)
/-- The units of the register's slot in the frame, and that of its format byte (R147). -/
def State.slotUnits (s : State) (g : Gid) (r : Group) (f : Fields) (n acc : Nat) (write : Bool) : List (LChk × Nat × Nat) :=
  s.frameUnits g r f (s.gr r f.a.toNat + BitVec.ofNat 64 (128 * (f.imm.toNat + 1))) n acc write
def State.formatUnits (s : State) (g : Gid) (r : Group) (f : Fields) (acc : Nat) (write : Bool) : List (LChk × Nat × Nat) :=
  s.frameUnits g r f (s.gr r f.a.toNat + BitVec.ofNat 64 f.imm.toNat) 1 acc write

@[simp] theorem State.slotUnits_countIssue (b : Bool) (n acc : Nat) (write : Bool) :
    (s.countIssue g b).slotUnits g r f n acc write = s.slotUnits g r f n acc write := State.frameUnits_countIssue b
@[simp] theorem State.formatUnits_countIssue (b : Bool) (acc : Nat) (write : Bool) :
    (s.countIssue g b).formatUnits g r f acc write = s.formatUnits g r f acc write := State.frameUnits_countIssue b

theorem State.spillLen_spilled : spillLen (s.spilled r f).1 = some (s.spilled r f).2.length :=
  (spillRestores _ (by simp [allLanes])).2

theorem spillLen_ge {fmt n : Nat} (h : spillLen fmt = some n) : 16 ≤ n := by
  unfold spillLen at h
  split at h <;> cases h <;> decide

/-- Every byte of a form is a lane's, or the base's or the padding's. -/
theorem spillLane_le {fmt n i : Nat} (h : spillLen fmt = some n) (hi : i < n) : spillLane fmt i ≤ 32 := by
  match fmt with
  | 0 =>
    cases h
    exact (Nat.div_lt_of_lt_mul hi).le
  | 1 =>
    change (if 4 ≤ i && i < 36 then i - 4 else 32) ≤ 32
    split_ifs with within
    · simp only [Bool.and_eq_true, decide_eq_true_eq] at within
      omega
    · exact le_refl 32
  | 2 =>
    change (if 4 ≤ i && i < 68 then (i - 4) / 2 else 32) ≤ 32
    split_ifs with within
    · simp only [Bool.and_eq_true, decide_eq_true_eq] at within
      omega
    · exact le_refl 32
  | _ + 3 => nomatch h

/-- The bytes that SPILL stores: the form's, in the slot, and its format byte. -/
def State.spillEntries (s : State) (g : Gid) (r : Group) (f : Fields) : List Ent :=
  storeEntries (cutCells 0 (s.slotUnits g r f (s.spilled r f).2.length Acc.store true) (s.spilled r f).2) ++
    storeEntries (cutCells 0 (s.formatUnits g r f Acc.store true) [BitVec.ofNat 8 (s.spilled r f).1])

/-- Of a form's cells none is left out where every lane takes part. -/
theorem filter_spillLane {fmt n a : Nat} {us : List (LChk × Nat × Nat)} (len : spillLen fmt = some n)
    (within : ∀ u ∈ us, ∃ i < n / 16, u.2.1 ≤ a + 16 * i ∧ u.2.2 = 16) (bs : List Byte) :
    ((cutCells 0 us bs).filter fun c => decide (spillLane fmt (c.2.2.1 - a) = 32) ||
      allLanes.contains (spillLane fmt (c.2.2.1 - a))) = cutCells 0 us bs := by
  refine List.filter_eq_self.mpr fun c hc => ?_
  obtain ⟨u, hu, j, hj, place⟩ := mem_cutCells hc
  obtain ⟨i, hi, low, wide⟩ := within u hu
  have lane := spillLane_le (i := c.2.2.1 - a) len (by omega)
  rcases lane.eq_or_lt with rest | own
  · simp [rest]
  · simp [mem_allLanes.mpr own]

/-- What SPILL does in the state it runs in: its entries join the outbox, and only reads happen. -/
theorem spill_stores (f : Fields) (s : State) : ∃ k, execSpill f s = issue 0 f (shapeSpill f) s k ∧
    ∀ (t : State) (g : Gid) (r : Group), t.unwatched g.core → (t.gr r f.a.toNat).toNat % 4096 = 0 →
      t.FrameFits (t.slotUnits g r f (t.spilled r f).2.length Acc.store true ++ t.formatUnits g r f Acc.store true) →
      t.frameLocked g r f (t.gr r f.a.toNat) = false →
      ∃ u, k t g r = .ok u { r.next f with outbox := r.outbox ++ (t.spillEntries g r f).map fun e => { e with pc := r.pc } }
          (some []) [] [] ∧ ReadsOnly g.core t u := by
  refine ⟨_, rfl, fun t g r unwatched aligned fits unlocked => ?_⟩
  have fault := fits.frameFault_eq (acc := Acc.store) aligned
  have gate := State.frameGate_go (us := t.slotUnits g r f (t.spilled r f).2.length Acc.store true ++
    t.formatUnits g r f Acc.store true) (acc := Acc.store) unwatched unlocked (shapeSpill f)
  have within (u) (hu : u ∈ t.slotUnits g r f (t.spilled r f).2.length Acc.store true) :=
    State.mem_frameUnits (spillLen_ge State.spillLen_spilled) hu
  have len : spillLen (t.spilled r f).1 = some (t.spilled r f).2.length := State.spillLen_spilled
  have lanes : allLanes.isEmpty = false := rfl
  refine ⟨?u, ?runs, ?reads⟩
  case runs =>
    simp only [State.slotUnits, State.formatUnits, State.spilled] at fault gate within len
    simp only [State.spillEntries, State.slotUnits, State.formatUnits, State.spilled, fault, gate, lanes, Bool.false_eq_true,
      if_false]
    rw [flatMap_eq_cutCells 0 (off := (16 * ·)) (fun _ => State.sum_frameUnits) fun i hi => by rw [List.getElem?_eq_getElem hi],
      flatMap_eq_cutCells 0 (off := (16 * ·)) (fun _ => State.sum_frameUnits) fun i hi => by rw [List.getElem?_eq_getElem hi],
      filter_spillLane len within]
  case reads => exact .translatedAll g.core t _ _

/-- What FILL does in the state it runs in: it reads the form `x`, then the slot of that form's length, and writes all lanes. -/
theorem fill_loads (f : Fields) (s : State) : ∃ k, execFill f s = issue 0 f (shapeFill f) s k ∧
    ∀ (t : State) (g : Gid) (r : Group), t.unwatched g.core → (t.gr r f.a.toNat).toNat % 4096 = 0 →
      t.frameLocked g r f (t.gr r f.a.toNat) = false →
      let fb := t.formatUnits g r f Acc.load false
      t.FrameFits fb → (∀ u ∈ fb, t.loadBlocked r u.2.2 u.1 = false ∧ u.1.onPeer = false) →
      let x := t.loadUnits g r fb
      ∀ n, spillLen (leNat x.1) = some n →
      let us := t.slotUnits g r f n Acc.load false
      t.FrameFits us → (∀ u ∈ us, t.loadBlocked r u.2.2 u.1 = false ∧ u.1.onPeer = false) →
      ∃ u, k t g r = .ok (u.writeV r allLanes fun l => [(f.d.toNat, (unspill (leNat x.1) (x.2.loadUnits g r us).1).getD l 0)])
          (r.next f) (some []) [] [] ∧ ReadsOnly g.core t u := by
  refine ⟨_, rfl, ?_⟩
  intro t g r unwatched aligned unlocked fb fits free x n len us fits' free'
  have fault := fits.frameFault_eq (acc := Acc.load) aligned
  have fault' := fits'.frameFault_eq (acc := Acc.load) aligned
  have gate := State.frameGate_go (us := us ++ fb) (acc := Acc.load) unwatched unlocked (shapeFill f)
  have unblocked : (fb.any fun u => t.loadBlocked r u.2.2 u.1) = false :=
    List.any_eq_false.mpr fun u hu => by simp [(free u hu).1]
  have unblocked' : (us.any fun u => t.loadBlocked r u.2.2 u.1) = false :=
    List.any_eq_false.mpr fun u hu => by simp [(free' u hu).1]
  have near (u) (hu : u ∈ us ++ fb) : u.1.onPeer = false :=
    (List.mem_append.mp hu).elim (fun hu => (free' u hu).2) fun hu => (free u hu).2
  have some_ : n ≠ 0 := by have := spillLen_ge len; omega
  refine ⟨?u, ?runs, ?reads⟩
  case runs =>
    simp only [us, fb, x, State.slotUnits, State.formatUnits] at fault fault' gate unblocked unblocked' len near ⊢
    simp only [fault, fault', gate, unblocked, unblocked', unlocked, len, some_, Bool.false_eq_true, if_false]
    rw [if_neg]
    rw [List.any_eq_true]
    rintro ⟨u, hu, peer⟩
    exact Bool.false_ne_true ((near u hu).symm.trans peer)
  case reads =>
    exact ((ReadsOnly.loadUnits t g r fb).trans (.loadUnits _ g r us)).trans (.translatedAll g.core _ _ _)

end

/-! ### The four instructions -/

section

variable {f : Fields} {x : Form} {s : State} {g : Gid} {r : Group}

theorem exec_ldb_next (h : Issues (.ldb f) x s g r) (untraced : s.untraced g r)
    (lanes : ∀ l ∈ s.activeLanes r f, s.GroupLoads g r f l) :
    ∃ t, exec (.ldb f) s = .next t ∧ OnlyLoads s t g { r.next f with wskip := false } ∧ t.greg = s.greg ∧
      VWritten s t r (s.activeLanes r f) (s.groupWrites g r f) := by
  obtain rfl := h.form_eq rfl
  have counted := Looked.countIssue s g (s.useful r f)
  obtain ⟨k, he, loads⟩ := ldb_loads f s
  obtain ⟨u, post, runs, reads⟩ := loads _ g r (State.unwatched_countIssue h.unwatched) (counted.untraced untraced)
    fun l hl => (lanes l hl).countIssue (s.useful r f)
  have looked := counted.trans reads.looked
  rw [State.groupWrites_countIssue, State.writeV_eq] at runs
  refine ⟨_, ((exec_ldb f s).trans he).trans (issue_ok h (Nat.zero_le _) runs (.inr rfl) ?groups), reads.onlyLoads _ _ _,
    ?greg, ?vreg⟩
  case groups => rw [looked]
  case greg => rw [State.putGroup_greg, looked]
  case vreg =>
    refine State.writeV_written s r (State.activeLanes_nodup ..) (fun _ => State.activeLanes_lt) (fun _ _ => pieces_nodup _ _) ?_
    rw [State.writeV_eq, looked]
    rfl

/-- An instruction that stores completes with its outbox, and leaves what a read leaves. -/
theorem Issues.exec_stores {i : Instr} {k : State → Gid → Group → Res} {u : State} {r' : Group} (h : Issues i x s g r)
    (he : exec i s = issue 0 x.f x.shape s k) (runs : k (s.countIssue g (s.useful r x.f)) g r = .ok u r' (some []) [] [])
    (reads : ReadsOnly g.core (s.countIssue g (s.useful r x.f)) u) :
    ∃ t, exec i s = .next t ∧ t.vreg = s.vreg ∧ t.greg = s.greg ∧ OnlyLoads s t g { r' with wskip := false } := by
  have looked := (Looked.countIssue s g (s.useful r x.f)).trans reads.looked
  refine ⟨_, he.trans (issue_ok h (Nat.zero_le _) runs (.inr rfl) ?groups), ?vreg, ?greg, reads.onlyLoads u.vreg u.greg _⟩
  case groups => rw [looked]
  case vreg => rw [State.putGroup_vreg, looked]
  case greg => rw [State.putGroup_greg, looked]

theorem exec_stb_next (h : Issues (.stb f) x s g r) (untraced : s.untraced g r)
    (lanes : ∀ l ∈ s.contrib r f, s.UnitsClear g r (s.groupChk g r f Acc.store true l).2) :
    ∃ t, exec (.stb f) s = .next t ∧ t.vreg = s.vreg ∧ t.greg = s.greg ∧ OnlyLoads s t g { r.next f with
      wskip := false, outbox := r.outbox ++ (s.contrib r f).map (s.groupEntry g r f) } := by
  obtain rfl := h.form_eq rfl
  obtain ⟨k, he, stores⟩ := stb_stores f s
  obtain ⟨u, runs, reads⟩ := stores (s.countIssue g (s.useful r f)) g r (State.unwatched_countIssue h.unwatched)
    ((Looked.countIssue s g _).untraced untraced) fun l hl => by
      rw [State.groupChk_countIssue]
      exact ⟨(lanes l hl).sound, (lanes l hl).unlocked⟩
  rw [State.groupEntry_countIssue] at runs
  exact h.exec_stores ((exec_stb f s).trans he) runs reads

theorem exec_spill_next (h : Issues (.spill f) x s g r) (aligned : (s.gr r f.a.toNat).toNat % 4096 = 0)
    (fits : s.FrameFits (s.slotUnits g r f (s.spilled r f).2.length Acc.store true ++ s.formatUnits g r f Acc.store true))
    (unlocked : s.frameLocked g r f (s.gr r f.a.toNat) = false) :
    ∃ t, exec (.spill f) s = .next t ∧ t.vreg = s.vreg ∧ t.greg = s.greg ∧ OnlyLoads s t g { r.next f with
      wskip := false, outbox := r.outbox ++ (s.spillEntries g r f).map fun e => { e with pc := r.pc } } := by
  obtain rfl := h.form_eq rfl
  obtain ⟨k, he, stores⟩ := spill_stores f s
  obtain ⟨u, runs, reads⟩ := stores (s.countIssue g (s.useful r f)) g r (State.unwatched_countIssue h.unwatched) aligned
    (by rw [State.slotUnits_countIssue, State.formatUnits_countIssue]; exact ⟨fits.sound, fits.free⟩) unlocked
  have entries : (s.countIssue g (s.useful r f)).spillEntries g r f = s.spillEntries g r f := by
    unfold State.spillEntries
    rw [State.slotUnits_countIssue, State.formatUnits_countIssue]
    rfl
  rw [entries] at runs
  exact h.exec_stores ((exec_spill f s).trans he) runs reads

theorem exec_fill_next (h : Issues (.fill f) x s g r) (aligned : (s.gr r f.a.toNat).toNat % 4096 = 0)
    (unlocked : s.frameLocked g r f (s.gr r f.a.toNat) = false) {fb us : List (LChk × Nat × Nat)} {n : Nat}
    (hfb : s.formatUnits g r f Acc.load false = fb) (fits : s.FrameFits fb)
    (free : ∀ u ∈ fb, s.loadBlocked r u.2.2 u.1 = false ∧ u.1.onPeer = false)
    (len : spillLen (leNat ((s.countIssue g (s.useful r f)).loadUnits g r fb).1) = some n)
    (hus : s.slotUnits g r f n Acc.load false = us) (fits' : s.FrameFits us)
    (free' : ∀ u ∈ us, s.loadBlocked r u.2.2 u.1 = false ∧ u.1.onPeer = false) :
    let y := (s.countIssue g (s.useful r f)).loadUnits g r fb
    ∃ t, exec (.fill f) s = .next t ∧ OnlyLoads s t g { r.next f with wskip := false } ∧ t.greg = s.greg ∧
      VWritten s t r allLanes fun l => [(f.d.toNat, (unspill (leNat y.1) (y.2.loadUnits g r us).1).getD l 0)] := by
  obtain rfl := h.form_eq rfl
  subst hfb hus
  obtain ⟨k, he, loads⟩ := fill_loads f s
  have loads := loads (s.countIssue g (s.useful r f)) g r (State.unwatched_countIssue h.unwatched) aligned unlocked
  simp only [State.formatUnits_countIssue, State.slotUnits_countIssue] at loads
  obtain ⟨u, runs, reads⟩ := loads ⟨fits.sound, fits.free⟩ free n len ⟨fits'.sound, fits'.free⟩ free'
  have looked := (Looked.countIssue s g (s.useful r f)).trans reads.looked
  rw [State.writeV_eq] at runs
  refine ⟨_, ((exec_fill f s).trans he).trans (issue_ok h (Nat.zero_le _) runs (.inr rfl) ?groups), reads.onlyLoads _ _ _,
    ?greg, ?vreg⟩
  case groups => rw [looked]
  case greg => rw [State.putGroup_greg, looked]
  case vreg =>
    refine State.writeV_written s r allLanes_nodup (fun _ => mem_allLanes.mp) (fun _ _ => by exact List.nodup_singleton _) ?_
    rw [State.writeV_eq, looked]
    rfl

end

/-! ### The premises, unit by unit -/

theorem LChk.onPeer_eq_false {c : LChk} (h : (match c with | .ok pa => !isPeer pa | _ => true) = true) : c.onPeer = false := by
  cases c with
  | ok pa => exact (Bool.not_eq_true' _).mp h
  | _ => rfl

theorem State.unitsClear {s : State} {g : Gid} {r : Group} {us : List (LChk × Nat × Nat)}
    (h : (us.all fun u => u.1.fault?.isNone && !s.locked g.core (s.asidOf g r) u.2.1 u.2.2) = true) : s.UnitsClear g r us := by
  have each := List.all_eq_true.mp h
  simp only [Bool.and_eq_true, Option.isNone_iff_eq_none, Bool.not_eq_true'] at each
  exact ⟨fun u hu => (each u hu).1, fun u hu => (each u hu).2⟩

theorem State.frameFits {s : State} {g : Gid} {r : Group} {us : List (LChk × Nat × Nat)}
    (h : (us.all fun u => u.1.fault?.isNone && !s.storeBlocked u.2.2 u.1 && !s.lockedAt g r u.2.2 u.1 (BitVec.ofNat 64 u.2.1)) =
      true) : s.FrameFits us := by
  have each := List.all_eq_true.mp h
  simp only [Bool.and_eq_true, Option.isNone_iff_eq_none, Bool.not_eq_true'] at each
  exact ⟨fun u hu => (each u hu).1.1, fun u hu => (each u hu).1.2⟩

/-- Settles O13: every unit passes its check, so that the gate lets every lane through, and what is read on the way is of
the kind that `ReadsOnly` describes. -/
theorem blockMovesAndSpills : Obligations.BlockMovesAndSpills := by
  intro f s g r a b units clear near meets act frame slot fill fit older
  have near_ {us : List (LChk × Nat × Nat)} (h : near us = true) : ∀ u ∈ us, u.1.onPeer = false := fun u hu =>
    LChk.onPeer_eq_false (List.all_eq_true.mp h u hu)
  have younger {us : List (LChk × Nat × Nat)} (h : older us = false) : ∀ u ∈ us, s.loadBlocked r u.2.2 u.1 = false :=
    fun u hu => Bool.eq_false_iff.mpr (List.any_eq_false.mp h u hu)
  refine ⟨?ldb, ?stb, ?spill, ?fill⟩
  case ldb =>
    intro x h untraced lanes
    refine exec_ldb_next h untraced fun l hl => ?_
    obtain ⟨own, sound, here, apart⟩ := lanes l hl
    exact ⟨own, State.unitsClear sound, near_ here, fun u hu => Bool.eq_false_iff.mpr (List.any_eq_false.mp apart u hu)⟩
  case stb =>
    intro x h untraced lanes
    exact exec_stb_next h untraced fun l hl => State.unitsClear (lanes l hl)
  case spill =>
    intro x h form us fb aligned fits unlocked
    exact exec_spill_next h aligned (State.frameFits fits) unlocked
  case fill =>
    intro x h fb y aligned unlocked fits here free n len us fits' here' free'
    exact exec_fill_next h aligned unlocked rfl (State.frameFits fits) (fun u hu => ⟨younger free u hu, near_ here u hu⟩)
      len rfl (State.frameFits fits') fun u hu => ⟨younger free' u hu, near_ here' u hu⟩

end Sys2Proof.Machine

/-! ## Integer and bit instructions (R150 to R155) -/

namespace Sys2Proof.Machine

/-! ### A result in D, and a predicate beside it -/

section

variable {i : Instr} {s : State} {r : Group}

/-- An instruction that writes V registers and one P register of the same lanes. -/
theorem Does.writesVP {x : Form} {r' : Group} {lvl : Nat} {k : State → Gid → Group → Res} {ls : List Nat}
    {ws : Nat → List (Nat × W32)} {n : Nat} {bs : Nat → Bool} (hf : i.form = some x)
    (he : exec i s = issue lvl x.f x.shape s k) (hl : lvl ≤ needsLevel i)
    (hk : ∀ g b, k (s.countIssue g b) g r = .done (((s.countIssue g b).writeV r ls ws).writeP r ls n bs) r')
    (hd : ls.Nodup) (hn : ∀ l ∈ ls, l < 32) (hw : ∀ l ∈ ls, ((ws l).map Prod.fst).Nodup) :
    Does i s r { after := r', ls := ls, v := ws, p := fun l => [(n, bs l)] } := by
  intro x' g h
  obtain rfl := h.form_eq hf
  refine .of_ok h (hl.trans h.level) he (hk g _) (.inl rfl) ?rest (State.writeV_written s r hd hn hw ?v)
    (State.writeP_written s r hd hn (State.writeP_preg ?p ..)) (.none ?g)
  case rest => rw [State.writeP_eq, State.writeV_eq]
  case v => rw [State.writeP_eq, State.writeV_eq, State.writeV_eq]; rfl
  case p => rw [State.writeV_eq]; rfl
  case g => rw [State.writeP_eq, State.writeV_eq]; rfl

/-- The registers of a lane's result: one, or the pair from `d` on. -/
theorem nodup_lane_result (d w : Nat) (lo hi : W32) :
    (((d, lo) :: if w = 32 then [] else [(d + 1, hi)]).map Prod.fst).Nodup := by
  split <;> simp

/-- An instruction whose result goes to D by `writeD`, as a row of integer results says it. -/
theorem Does.intOp {op : Nat} {sh : Shape} {y : IntRow} {res : State → Group → Nat → W64}
    {cc : State → Group → W64 → BitVec 4} (hf : i.form = some ⟨false, op, y.f, sh⟩)
    (he : exec i s = intOp y.f sh s y.w y.signed res cc)
    (hv : ∀ g b l, res (s.countIssue g b) r l = y.val l := by intros; rfl)
    (hcc : ∀ g b, cc (s.countIssue g b) r (y.val 0) = y.cc.getD r.cc := by intros; rfl) : Does i s r (y.effect s r) := by
  have hv' g b : res (s.countIssue g b) r = y.val := funext (hv g b)
  unfold IntRow.effect
  split
  · next hu =>
    refine .writesG hf he (Nat.zero_le _) fun g b => ?_
    simp only [State.writeD_group _ _ hu, hv', hcc, hu, Bool.true_and]
    split <;> rfl
  · next hu =>
    have hu : y.f.u = false := Bool.eq_false_iff.mpr hu
    refine .writesV hf he (Nat.zero_le _) (fun g b => ?_) (State.activeLanes_nodup ..) (fun _ => State.activeLanes_lt)
      fun _ _ _ => nodup_lane_result ..
    simp only [State.writeD_lanes _ _ hu, hv', hu, Bool.false_and]
    rfl

/-- AND, OR and XOR: one operation on the bits of A and B (R155). -/
theorem Does.logicOp {op : Nat} {f : Fields} {bits : W64 → W64 → W64}
    (hf : i.form = some ⟨false, op, f, shapeInt3 f false true⟩) (he : exec i s = logicOp f s bits) :
    Does i s r ((IntRow.typed f (fun l => bits (s.opA r f l) (s.opB r f l))
      (some (ccLogic f.width (bits (s.opA r f 0) (s.opB r f 0))))).effect s r) :=
  .intOp hf (he.trans (by rw [Machine.logicOp]; rfl))

end

theorem Claims.integerArithmetic : Claims.IntegerArithmetic := by
  intro f s r A B C fit wrap is
  exact ⟨Does.intOp rfl (exec_mov f s), Does.intOp rfl (exec_movi f s), Does.intOp rfl (exec_sel f s),
    Does.intOp rfl (exec_iadd f s), Does.intOp rfl (exec_isub f s), Does.intOp rfl (exec_imul f s),
    Does.intOp rfl (exec_imulh f s), Does.intOp rfl (exec_imad f s), Does.intOp rfl (exec_imadw f s),
    Does.intOp rfl (exec_iabs f s), Does.intOp rfl (exec_ineg f s), Does.intOp rfl (exec_imin f s),
    Does.intOp rfl (exec_imax f s), Does.intOp rfl (exec_lea f s), Does.intOp rfl (exec_dot4 f s)⟩

theorem Claims.bitwiseAndCounts : Claims.BitwiseAndCounts := by
  intro f s r is logic w ofNat
  exact ⟨Does.logicOp rfl (exec_and f s), Does.logicOp rfl (exec_or f s), Does.logicOp rfl (exec_xor f s),
    Does.intOp rfl (exec_not f s), Does.intOp rfl ((exec_btab f s).trans (by rw [execBtab]; rfl)),
    Does.intOp rfl (exec_bysel f s), Does.intOp rfl (exec_popc f s), Does.intOp rfl (exec_clz f s),
    Does.intOp rfl (exec_brev f s)⟩

theorem Claims.shiftsAndBitFields : Claims.ShiftsAndBitFields := by
  intro f s r is logic n A w
  refine ⟨Does.intOp rfl (exec_shl f s), Does.intOp rfl (exec_shr f s), Does.intOp rfl (exec_sha f s),
    Does.intOp rfl (exec_rot f s), Does.intOp rfl (exec_bfx f s) (fun g b l => ?bfx), Does.intOp rfl (exec_bfi f s)⟩
  exact congrArg (ite _ _) (apply_ite (narrow f.width false false) _ _ _).symm

/-! ### The carry chains (R152, R153) -/

/-- A carry chain: group-wide its result goes to G[D] and its carry to CC.C under `.cc`; of each Active lane the result
goes to D and the carry to Pc. -/
theorem Does.carryOp {i : Instr} {op : Nat} {f : Fields} {s : State} {r : Group} {sum : Nat → Nat → Nat → Int}
    {cin : Bool → Nat} {carries : Int → Bool} {cc : W64 → W64 → Nat → W64 → BitVec 4} {c : Nat → Nat} {x : Nat → Int}
    {out : Nat → Bool} (hf : i.form = some ⟨false, op, f, shapeCarry f⟩)
    (he : exec i s = carryOp f s sum cin carries cc)
    (hc : ∀ l, c l = if f.u then cin r.flagC else if s.p r f.c.toNat l then 1 else 0)
    (hx : ∀ l, x l = sum (s.opA r f l).toNat (s.opB r f l).toNat (c l)) (ho : ∀ l, out l = carries (x l)) :
    Does i s r { (IntRow.typed f (fun l => narrow f.width false false (x l))
        (some (cc (s.opA r f 0) (s.opB r f 0) (c 0) (narrow f.width false false (x 0))))).effect s r with
      p := fun l => if f.u then [] else [(f.c.toNat, out l)] } := by
  obtain rfl : c = _ := funext hc
  obtain rfl : x = _ := funext hx
  obtain rfl : out = _ := funext ho
  cases hu : f.u with
  | true =>
    simp only [IntRow.effect, IntRow.typed, hu, if_true, Option.getD_some]
    refine .writesG hf he (Nat.zero_le _) fun g b => ?_
    simp only [State.writeD_group _ _ hu, hu, if_true]
    split <;> rfl
  | false =>
    simp only [IntRow.effect, IntRow.typed, hu, Bool.false_eq_true, if_false]
    refine .writesVP hf he (Nat.zero_le _) (fun g b => ?_) (State.activeLanes_nodup ..) (fun _ => State.activeLanes_lt)
      fun _ _ => nodup_lane_result ..
    simp only [State.writeD_lanes _ _ hu, hu, Bool.false_eq_true, if_false]
    rfl

theorem Claims.carryThroughPOrCC : Claims.CarryThroughPOrCC := by
  intro f s r w A B carry is sum dif
  have carry_eq (flag : Bool) (l : Nat) :
      carry flag l = if f.u then flag.toNat else if s.p r f.c.toNat l then 1 else 0 := by
    dsimp only [carry]
    split
    · rfl
    · cases s.p r f.c.toNat l <;> rfl
  refine ⟨.carryOp (c := carry r.flagC) rfl (exec_iaddc f s) (carry_eq _) (fun l => ?_) fun l => ?_,
    .carryOp (c := carry !r.flagC) (cin := fun c => (!c).toNat) rfl (exec_isubb f s) (carry_eq _)
      (fun _ => rfl) fun _ => rfl⟩
  all_goals exact_mod_cast rfl

/-! ### ICMP (R153, R154) -/

/-- The conditions of ICMP by number. -/
theorem icond_eq {c : Nat} (hc : c ≤ 5) (a b : Int) : icond c a b =
    ((c = 0 && a == b) || (c = 1 && a != b) || (c = 2 && decide (a < b)) || (c = 3 && decide (a ≤ b)) ||
      (c = 4 && decide (a > b)) || (c = 5 && decide (a ≥ b))) := by
  have eq : decide (a = b) = (a == b) := by rw [Bool.eq_iff_iff, decide_eq_true_eq, beq_iff_eq]
  match c with
  | 0 => simp [icond, eq]
  | 1 => simp [icond, eq, bne]
  | 2 | 3 | 4 | 5 => simp [icond]

theorem sub_le_of_icmp_legal {f : Fields} (h : (shapeIcmp f).legal f = true) : f.sub ≤ 5 := by
  simp only [Shape.legal, shapeIcmp, Fields.intFn, Bool.and_eq_true, decide_eq_true_eq] at h
  obtain ⟨⟨⟨⟨⟨⟨⟨_, bound⟩, _⟩, _⟩, _⟩, _⟩, _⟩, _⟩ := h
  exact bound

/-- ICMP as the model's own conditions give it. -/
theorem Does.icmp (f : Fields) (s : State) (r : Group) {c : Nat → Bool}
    (hc : ∀ l, c l = icond f.sub (Fields.val f (s.opA r f l)) (Fields.val f (s.opB r f l))) :
    Does (.icmp f) s r
      (if f.u then
        let r := { r.next f with q := setBit r.q f.d.toNat (c 0) }
        { after := if f.ccw then { r with cc := ccSub f.width (s.opA r f 0) (s.opB r f 0) 0 (narrow f.width false false
            (valOf f.width false (s.opA r f 0) - valOf f.width false (s.opB r f 0))) } else r }
      else { after := r.next f, ls := s.activeLanes r f, p := fun l => [(f.d.toNat, c l)] }) := by
  obtain rfl : c = _ := funext hc
  split
  · next hu => exact .plain rfl (exec_icmp f s) (Nat.zero_le _) fun g b => by rw [if_pos hu]; split <;> rfl
  · next hu => exact .writesP rfl (exec_icmp f s) (Nat.zero_le _) (fun g b => if_neg hu) (State.activeLanes_nodup ..) fun _ =>
      State.activeLanes_lt

theorem Claims.integerCompare : Claims.IntegerCompare := by
  intro f s r w holds c sub x g h
  have bound : f.sub ≤ 5 := by
    obtain rfl := h.form_eq rfl
    exact sub_le_of_icmp_legal (Bool.and_eq_true_iff.mp h.legal).2
  exact Does.icmp f s r (fun l => (icond_eq bound _ _).symm) x g h

/-- Settles O1: a row's result goes to D as `writeD` puts it; the chains write a carry beside it, and ICMP a predicate alone. -/
theorem integerInstructions : Obligations.IntegerInstructions :=
  ⟨Claims.integerArithmetic, Claims.bitwiseAndCounts, Claims.shiftsAndBitFields, Claims.carryThroughPOrCC,
    Claims.integerCompare⟩

end Sys2Proof.Machine
/-! ## Conversions and block-scaled form (R161 to R165) -/

namespace Sys2Proof.Machine

/-! ### F2I (R161, R162) -/

theorem sigFlag_singleton (x : Num) : sigFlag [x] = if x.isSig then 1 else 0 := by simp [sigFlag, Flag.iv]

/-- A result of 64 bits in a pair, or a narrower one in D alone. -/
theorem pieces_or_one (d w : Nat) (y : W64) : (if w = 64 then pieces d (halves y) else [(d, y.setWidth 32)]) =
    (d, y.setWidth 32) :: (if w = 64 then [(d + 1, y.extractLsb' 32 32)] else []) := by
  rw [pieces_halves]
  split <;> rfl

theorem Claims.conversions : Claims.Conversions := by
  intro f s r ls is mode ty src int lead
  refine ⟨.floatOp rfl (exec_f2f f s) fun _ _ _ => rfl, .floatOp rfl (exec_i2f f s) fun _ _ _ => rfl, ?f2i, ?dqblk, ?reserved⟩
  case f2i =>
    refine .writesV rfl (exec_f2i f s) (Nat.zero_le _) (fun g b => ?_) (State.activeLanes_nodup ..)
      (fun _ => State.activeLanes_lt) fun l _ => by split <;> simp
    simp only [pieces_or_one, sigFlag_singleton]
    rfl
  case dqblk =>
    intro accepted
    refine .writesV rfl (exec_dqblk f s) (Nat.zero_le _) (fun g b => ?_) (State.activeLanes_nodup ..)
      (fun _ => State.activeLanes_lt) fun l _ => List.nodup_singleton _
    rw [if_neg (by simp [accepted])]
    rfl
  case reserved =>
    intro refused
    have fmtx : (!blkFmtOk r.fmt) = true := by simp [refused]
    exact ⟨.of rfl (exec_dqblk f s) (Nat.zero_le _) fun _ _ => if_pos fmtx,
      .of rfl (exec_qblk f s) (Nat.zero_le _) fun _ _ => if_pos fmtx⟩

/-! ### Writes that name a register twice: the last one stands -/

/-- V registers that read alike. -/
def State.SameV (s t : State) : Prop := ∀ k, tget 0 s.vreg k = tget 0 t.vreg k

section

variable {r : Group} {s t : State}

theorem State.tget_setV (s : State) (r : Group) (n l : Nat) (x : W32) (k : Nat) : tget 0 (s.setV r n l x).vreg k =
    if r.home l ≠ 0 ∧ k = vkey (r.home l) n l then x else tget 0 s.vreg k := by
  unfold State.setV
  by_cases h : r.home l = 0 <;> simp [h, tget_tset]

theorem State.SameV.setV (h : s.SameV t) (n l : Nat) (x : W32) : (s.setV r n l x).SameV (t.setV r n l x) := fun k => by
  rw [State.tget_setV, State.tget_setV, h k]

theorem State.SameV.setV_setV (h : s.SameV t) (n l : Nat) (x y : W32) :
    ((s.setV r n l x).setV r n l y).SameV (t.setV r n l y) := fun k => by
  simp only [State.tget_setV, h k]
  split <;> rfl

/-- Where the writes of every lane come to the same, all of them do. -/
theorem State.SameV.writeV {ws ws' : Nat → List (Nat × W32)} (lane : ∀ {s t : State}, s.SameV t → ∀ l,
    ((ws l).foldl (fun u w => u.setV r w.1 l w.2) s).SameV ((ws' l).foldl (fun u w => u.setV r w.1 l w.2) t))
    (h : s.SameV t) (ls : List Nat) : (s.writeV r ls ws).SameV (t.writeV r ls ws') := by
  induction ls generalizing s t with
  | nil => exact h
  | cons l ls ih => exact ih (lane h l)

theorem VWritten.of_sameV {t' : State} {ls : List Nat} {ws : Nat → List (Nat × W32)} (h : VWritten s t r ls ws)
    (same : t'.SameV t) : VWritten s t' r ls ws :=
  ⟨fun l hl hh w hw => (same _).trans (h.1 l hl hh w hw), fun k hk => (same k).trans (h.2 k hk)⟩

end

/-! ### QBLK (R163, R164) -/

/-- The contributing lanes of lane `l`'s scale group, and their values. -/
def State.blkContrib (s : State) (r : Group) (f : Fields) (l : Nat) : List Nat :=
  (blkLanes (bitsOf r.fmt 9 8) l).filter (s.contrib r f).contains
def State.blkVals (s : State) (r : Group) (f : Fields) (l : Nat) : List Num :=
  (s.blkContrib r f l).map fun l => f32of (s.a32 r f l)

/-- What QBLK gives lane `l`: its element, its scale byte and its flags; nothing without a contributing lane. -/
def State.qblkLane (s : State) (r : Group) (f : Fields) (l : Nat) : Option (W32 × W32 × Nat) :=
  if (s.blkContrib r f l).isEmpty then none
  else if (s.blkVals r f l).all Num.isFinite then
    let m := amaxOf (s.blkVals r f l)
    let sc := blkScale (bitsOf r.fmt 13 12) (bitsOf r.fmt 3 0) m.1 m.2
    let y := quantElem (bitsOf r.fmt 3 0) (bitsOf r.fmt 15 14) (f32of (s.a32 r f l)) sc.2.1 sc.2.2
    some (y.1, BitVec.ofNat 32 sc.1, y.2)
  else some (0, if bitsOf r.fmt 13 12 = 1 then 0xFF else 0x7F, Flag.iv)

/-- The registers a lane's result is written to, in order; what stands in them then; and the flags it raises. -/
def qblkWrites (f : Fields) : Option (W32 × W32 × Nat) → List (Nat × W32)
  | some (d, c, _) => [(f.d.toNat, d), (f.c.toNat, c)]
  | none => []
def qblkLeaves (f : Fields) : Option (W32 × W32 × Nat) → List (Nat × W32)
  | some (d, c, _) => if f.c = f.d then [(f.c.toNat, c)] else [(f.d.toNat, d), (f.c.toNat, c)]
  | none => []
def qblkFlags : Option (W32 × W32 × Nat) → Nat
  | some (_, _, fl) => fl
  | none => 0

theorem qblkLeaves_nodup (f : Fields) (y : Option (W32 × W32 × Nat)) : ((qblkLeaves f y).map Prod.fst).Nodup := by
  match y with
  | none => exact List.nodup_nil
  | some (d, c, fl) =>
    rw [qblkLeaves]
    split
    · exact List.nodup_singleton _
    · next apart => simpa [← BitVec.toNat_inj] using Ne.symm apart

theorem State.SameV.qblkWrites {s t : State} (h : s.SameV t) (r : Group) (f : Fields) (y : Option (W32 × W32 × Nat))
    (l : Nat) : ((qblkWrites f y).foldl (fun u w => u.setV r w.1 l w.2) s).SameV
      ((qblkLeaves f y).foldl (fun u w => u.setV r w.1 l w.2) t) := by
  match y with
  | none => exact h
  | some (d, c, fl) =>
    rw [Machine.qblkWrites, qblkLeaves]
    split
    · next one =>
      rw [one]
      exact h.setV_setV _ _ _ _
    · exact (h.setV _ _ _).setV _ _ _

/-- QBLK on a format it accepts (R163). -/
theorem DoesWithFlags.qblk {f : Fields} {s : State} {r : Group} (accepted : blkFmtOk r.fmt = true) :
    DoesWithFlags (.qblk f) s r
      { after := r.next f, ls := s.activeLanes r f, v := fun l => qblkLeaves f (s.qblkLane r f l) }
      fun l => qblkFlags (s.qblkLane r f l) := by
  refine .of_raise (u := fun g b => (s.countIssue g b).writeV r (s.activeLanes r f) fun l => qblkWrites f (s.qblkLane r f l))
    rfl (exec_qblk f s) (Nat.zero_le _) (fun g b => ?effect) (fun g b => ?rest) (fun g b => ?v) (fun g b => .none ?p)
    fun g b => .none ?g
  case effect =>
    rw [if_neg (by simp [accepted])]
    rfl
  case v =>
    have same : (s.countIssue g b).SameV s := fun _ => rfl
    exact (State.writeV_written s r (State.activeLanes_nodup ..) (fun _ => State.activeLanes_lt)
      (fun _ _ => qblkLeaves_nodup f _) rfl).of_sameV
      (same.writeV (fun h l => h.qblkWrites r f (s.qblkLane r f l) l) _)
  all_goals rw [State.writeV_eq]
  all_goals rfl

theorem State.qblkLane_eq (s : State) (r : Group) (f : Fields) (l : Nat) : s.qblkLane r f l =
    let vals := s.blkVals r f l
    let fin := vals.all Num.isFinite
    let scale := blkScale (bitsOf r.fmt 13 12) (bitsOf r.fmt 3 0) (amaxOf vals).1 (amaxOf vals).2
    let elem := quantElem (bitsOf r.fmt 3 0) (bitsOf r.fmt 15 14) (f32of (s.a32 r f l)) scale.2.1 scale.2.2
    if vals = [] then none else some (if fin then elem.1 else 0,
      if fin then BitVec.ofNat 32 scale.1 else if bitsOf r.fmt 13 12 = 1 then 0xFF else 0x7F, if fin then elem.2 else 1) := by
  have alone : s.blkVals r f l = [] ↔ (s.blkContrib r f l).isEmpty = true := by simp [State.blkVals]
  simp only [State.qblkLane, alone]
  split
  · rfl
  · split <;> rfl

theorem Claims.blockQuantisation : Claims.BlockQuantisation := by
  intro f s r accepted af sf A vals scale fin elem
  have leaves (l : Nat) : qblkLeaves f (s.qblkLane r f l) =
      let d := if fin l then (elem l).1 else 0
      let c := if fin l then BitVec.ofNat 32 (scale l).1 else if sf = 1 then 0xFF else 0x7F
      if vals l = [] then [] else if f.c = f.d then [(f.c.toNat, c)] else [(f.d.toNat, d), (f.c.toNat, c)] := by
    rw [State.qblkLane_eq]
    exact apply_ite (qblkLeaves f) ..
  have flags (l : Nat) : qblkFlags (s.qblkLane r f l) = if vals l = [] then 0 else if fin l then (elem l).2 else 1 := by
    rw [State.qblkLane_eq]
    exact apply_ite qblkFlags ..
  have does := DoesWithFlags.qblk (f := f) (s := s) accepted
  simp only [leaves, flags] at does
  exact does

/-- Settles O6: each conversion by its lane's result and flags, DQBLK and QBLK where the format is accepted, and FMTX where
it is not; of QBLK's two writes to one register the last one stands. -/
theorem conversionInstructions : Obligations.ConversionInstructions := ⟨Claims.conversions, Claims.blockQuantisation⟩

end Sys2Proof.Machine

/-! ## Quad, cross-lane and predicate instructions (R155, R166 to R171) -/

namespace Sys2Proof.Machine

/-! ### Values moved across lanes (R166, R168, R170) -/

section

variable {i : Instr} {f : Fields} {s : State} {r : Group}

/-- An instruction whose Active lanes each take one register's value. -/
theorem Does.laneOp {op : Nat} {sh : Shape} {res : State → Group → Nat → W32} {y : Nat → W32}
    (hf : i.form = some ⟨false, op, f, sh⟩) (he : exec i s = laneOp f sh s res)
    (hy : ∀ g b l, res (s.countIssue g b) r l = y l) :
    Does i s r { after := r.next f, ls := s.activeLanes r f, v := fun l => [(f.d.toNat, y l)] } := by
  refine .writesV hf he (Nat.zero_le _) (fun g b => ?_) (State.activeLanes_nodup ..) (fun _ => State.activeLanes_lt)
    fun _ _ _ => List.nodup_singleton _
  simp only [hy]
  rfl

/-- A step down of at most 256 lanes in a segment of `n`, as the model makes it and as the residue it is. -/
theorem rotate_down (i : Nat) {n k : Nat} (hn : 0 < n) (hk : k ≤ 256) :
    (i + n * 256 - k) % n = (((i : Int) - k) % n).toNat := by
  have below : k ≤ i + n * 256 := by omega
  have up : ((i + n * 256 - k : Nat) : Int) = (i - k : Int) + n * 256 := by omega
  rw [← Int.toNat_natCast ((i + n * 256 - k) % n), Int.natCast_emod, up, Int.add_mul_emod_self_left]

/-- LXCH's source lane by mode; none past the segment's end under `.edge`, which `e` = 1 is. -/
theorem lxchSrc_eq {mode n k : Nat} (e l : Nat) (hn : 0 < n) (hk : k ≤ 256) :
    lxchSrc mode n (e == 1) l k =
      if e ≠ 1 ∨ (mode = 1 → l % n + k < n) ∧ (mode = 2 → k ≤ l % n) then
        some (l - l % n + (if mode = 0 then k % n else if mode = 1 then (l % n + k) % n
          else if mode = 2 then (((l % n : Nat) : Int) - k) % n |>.toNat else (l % n ^^^ k) % n))
      else none := by
  match mode with
  | 0 | m + 3 => simp [lxchSrc]
  | 1 => by_cases edge : e = 1 <;> by_cases past : n ≤ l % n + k <;> simp [lxchSrc, edge, past]
  | 2 => by_cases edge : e = 1 <;> by_cases past : l % n < k <;> simp [lxchSrc, edge, past, rotate_down _ hn hk]

theorem setWidth_beq {v w : Nat} (h : v ≤ w) (x y : BitVec v) : (x.setWidth w == y.setWidth w) = (x == y) := by
  rw [Bool.eq_iff_iff, beq_iff_eq, beq_iff_eq]
  refine ⟨fun eq => ?_, congrArg _⟩
  simpa [BitVec.setWidth_setWidth_of_le _ h] using congrArg (BitVec.setWidth v) eq

/-- MATCHG compares single registers, or pairs. -/
theorem State.matchVal_beq (s : State) (r : Group) (f : Fields) (x y : Nat) :
    (s.srcW r (if f.fn.toNat < 2 then 32 else 64) false f.ka f.a x ==
      s.srcW r (if f.fn.toNat < 2 then 32 else 64) false f.ka f.a y) =
    if f.fn.toNat < 2 then s.src32 r false f.ka f.a x == s.src32 r false f.ka f.a y
    else s.src64 r false f.ka f.a x == s.src64 r false f.ka f.a y := by
  split
  · exact setWidth_beq (v := 32) (w := 64) (by decide) ..
  · rfl

end

theorem Claims.laneMoves : Claims.LaneMoves := by
  intro f s r A is C same
  refine ⟨.laneOp rfl (exec_lxch f s) fun g b l => ?lxch, .laneOp rfl (exec_qswz f s) fun _ _ _ => rfl,
    .laneOp rfl (exec_qbcast f s) fun _ _ _ => rfl, .laneOp rfl (exec_matchg f s) fun g b l => ?matchg,
    .writesG rfl (exec_bcastg f s) (Nat.zero_le _) fun _ _ => rfl⟩
  case lxch =>
    have count : (s.b32 r f l).toNat % 256 ≤ 256 := by omega
    dsimp only [State.b32_countIssue]
    rw [lxchSrc_eq _ _ (Nat.two_pow_pos _) count]
    symm
    split <;> rfl
  case matchg =>
    simp only [State.matchVal_beq, List.contains_iff_mem, beq_iff_eq]
    rfl

/-! ### Predicates (R155, R170, R171) -/

section

variable (p : Nat → Bool) (ls : List Nat)

theorem not_isEmpty_filter : (!(ls.filter p).isEmpty) = ls.any p := by
  rw [Bool.eq_iff_iff]
  simp

theorem length_filter_beq_length : ((ls.filter p).length == ls.length) = ls.all p := by
  rw [Bool.eq_iff_iff, beq_iff_eq, List.length_filter_eq_length_iff, List.all_eq_true]

theorem none_or_all_filter : ((ls.filter p).isEmpty || (ls.filter p).length == ls.length) =
    (decide ((ls.filter p).length = 0) || decide ((ls.filter p).length = ls.length)) := by
  rw [Bool.eq_iff_iff]
  simp

end

/-- PCOLL's answer in a Q register. -/
theorem Group.done_setQ {r : Group} (s : State) (f : Fields) {x y : Bool} (h : x = y) :
    Res.done s { r.next f with q := setBit r.q f.d.toNat x } = .done s { r.next f with q := setBit r.q f.d.toNat y } :=
  h ▸ rfl

theorem Claims.predicateOps : Claims.PredicateOps := by
  intro f s r ls C set T toQ toG toP
  refine ⟨?pcoll, .writesP rfl (exec_plop f s) (Nat.zero_le _) (fun _ _ => rfl) (State.activeLanes_nodup ..) fun _ =>
    State.activeLanes_lt, .plain rfl (exec_qlop f s) (Nat.zero_le _) fun _ _ => rfl, ?pmov⟩
  case pcoll =>
    obtain ⟨n, hn⟩ : ∃ n, f.fn.toNat = n := ⟨_, rfl⟩
    simp only [hn]
    match n with
    | 0 =>
      refine Does.plain rfl (exec_pcoll f s) (Nat.zero_le _) fun g b => ?_
      rw [hn]
      exact Group.done_setQ _ f (not_isEmpty_filter ..)
    | 1 =>
      refine Does.plain rfl (exec_pcoll f s) (Nat.zero_le _) fun g b => ?_
      rw [hn]
      exact Group.done_setQ _ f (length_filter_beq_length ..)
    | 2 =>
      refine Does.plain rfl (exec_pcoll f s) (Nat.zero_le _) fun g b => ?_
      rw [hn]
      exact Group.done_setQ _ f (none_or_all_filter ..)
    | 3 | n + 4 =>
      refine Does.writesG rfl (exec_pcoll f s) (Nat.zero_le _) fun g b => ?_
      rw [hn]
      rfl
  case pmov =>
    obtain ⟨n, hn⟩ : ∃ n, f.fn.toNat = n := ⟨_, rfl⟩
    simp only [hn]
    match n with
    | 0 | 1 | n + 4 =>
      refine Does.writesP rfl (exec_pmov f s) (Nat.zero_le _) (fun g b => ?_) (State.activeLanes_nodup ..) fun _ =>
        State.activeLanes_lt
      rw [hn]
      rfl
    | 2 =>
      refine Does.writesV rfl (exec_pmov f s) (Nat.zero_le _) (fun g b => ?_) (State.activeLanes_nodup ..)
        (fun _ => State.activeLanes_lt) fun _ _ _ => List.nodup_singleton _
      rw [hn]
      rfl
    | 3 =>
      refine Does.writesG rfl (exec_pmov f s) (Nat.zero_le _) fun g b => ?_
      rw [hn]
      rfl

/-! ### Differences, reductions and scans (R166, R168, R169) -/

/-- An instruction that writes one G register and raises flags. -/
theorem DoesWithFlags.writesG {i : Instr} {x : Form} {s : State} {r r' : Group} {lvl : Nat} {k : State → Gid → Group → Res}
    {n : Nat} {y : W64} {fl : Nat → Nat} (hf : i.form = some x) (he : exec i s = issue lvl x.f x.shape s k)
    (hl : lvl ≤ needsLevel i) (hk : ∀ g b, k (s.countIssue g b) g r =
      ((s.countIssue g b).setG r n y).raiseFlags (s.countIssue g b) r x.f x.shape r' fl) :
    DoesWithFlags i s r { after := r', g := [(n, y)] } fl :=
  .of_raise (u := fun g b => (s.countIssue g b).setG r n y) hf he hl hk (fun _ _ => rfl) (fun _ _ => .none rfl)
    (fun _ _ => .none rfl) fun _ _ => .one rfl

/-- An instruction whose lanes each give D an exact value rounded once to F32. -/
theorem DoesWithFlags.rounds {i : Instr} {op mode : Nat} {f : Fields} {sh : Shape} {s : State} {r : Group}
    {exact : State → Group → Nat → Num × Nat} {y : Nat → Num × Nat} (hf : i.form = some ⟨false, op, f, sh⟩)
    (he : exec i s = Machine.floatOp f sh s fun s r l => toF32 mode (exact s r l))
    (hy : ∀ g b l, exact (s.countIssue g b) r l = y l) :
    DoesWithFlags i s r { after := r.next f, ls := s.activeLanes r f, v := fun l =>
      [(f.d.toNat, BitVec.ofNat 32 (fmtF32.round mode false (y l).1).1)] }
      fun l => (y l).2 ||| (fmtF32.round mode false (y l).1).2 :=
  .floatOp (y := fun l => toF32 mode (y l)) hf he fun g b l => congrArg (toF32 mode) (hy g b l)

/-- What SCANG gives a lane: of its entry in the scan the value before it or with it, and the flags of its addition; without
an entry the identity (R169). -/
def scanAnswer (f : Fields) (e : Option (Nat × W32 × W32 × Nat)) : W32 × Nat :=
  (match e with
    | some e => if f.fnBits 4 4 = 1 then e.2.1 else e.2.2.1
    | none => redId (f.fnBits 3 0),
   match e with
    | some e => e.2.2.2
    | none => 0)

theorem Claims.reductionsAndScans : Claims.ReductionsAndScans := by
  intro f s r A con code tree sumF red
  refine ⟨?redg, ?scang, .rounds rfl (exec_qdiff f s) fun _ _ _ => rfl⟩
  case redg =>
    refine .writesG rfl (exec_redg f s) (Nat.zero_le _) fun g b => ?_
    simp only [List.foldl_map, List.any_map, List.contains_iff_mem]
    rfl
  case scang =>
    intro run at_
    refine .floatOp (y := fun l => scanAnswer f (at_ l)) rfl (exec_scang f s) fun g b l => ?_
    have found : at_ l = (scanOf (f.fnBits 3 0) (fun x => (s.countIssue g b).laneA r f x) ((s.countIssue g b).contrib r f)
      (redId (f.fnBits 3 0))).find? fun e => e.1 = l := rfl
    dsimp only
    rw [← found]
    cases at_ l <;> rfl

/-- Settles O7: a move by its source lane, a predicate instruction by the file its F.fn names, and a reduction or scan by its
value and flags over the contributing lanes. -/
theorem crossLaneInstructions : Obligations.CrossLaneInstructions :=
  ⟨Claims.laneMoves, Claims.predicateOps, Claims.reductionsAndScans⟩

end Sys2Proof.Machine
